-- ==== Sys2Proof/Word.lean ====
section
/-!
DEFINITION. The word types of the TQ-3072H and their plainest arithmetic: the 64-bit register word (R8), the byte, and the
reading of a bit range `[high:low]` as R4 and R5 write it.
-/

namespace Sys2Proof

/-- A register, descriptor or table word: 64 bits (R8). -/
abbrev Word := BitVec 64

/-- One byte of memory. -/
abbrev Byte := BitVec 8

/-- Bits `[hi:lo]` of a natural number, as a natural number (R4). -/
def bitsOf (w hi lo : Nat) : Nat := w / 2 ^ lo % 2 ^ (hi + 1 - lo)

/-- Bit `[n]` of a natural number. -/
def bitAt (w n : Nat) : Bool := w / 2 ^ n % 2 == 1

/-- Bits `[hi:lo]` of a word (R4). -/
def Word.fld (w : Word) (hi lo : Nat) : Nat := bitsOf w.toNat hi lo

/-- Bit `[n]` of a word. -/
def Word.bit (w : Word) (n : Nat) : Bool := w.getLsbD n

/-- The word `w` with bits `[hi:lo]` replaced by `v` (taken modulo the field's width). -/
def Word.put (w : Word) (hi lo v : Nat) : Word :=
  let m := (2 ^ (hi + 1 - lo) - 1) * 2 ^ lo
  (w &&& ~~~(BitVec.ofNat 64 m)) ||| (BitVec.ofNat 64 (v % 2 ^ (hi + 1 - lo) * 2 ^ lo))

/-- A signed reading of the low `n` bits of a number: two's complement. -/
def signedOf (n v : Nat) : Int :=
  let u := v % 2 ^ n
  if u < 2 ^ (n - 1) then (u : Int) else (u : Int) - (2 ^ n : Nat)

/-- The `n`-bit two's complement pattern of an integer. -/
def wrapInt (n : Nat) (v : Int) : Nat := (v % ((2 ^ n : Nat) : Int)).toNat

/-- 1 for true, 0 for false. -/
def b2n (b : Bool) : Nat := if b then 1 else 0

/-- The natural number whose little-endian bytes are the list (R5: byte 0 holds bits [7:0]). -/
def leNat : List Byte → Nat
  | [] => 0
  | b :: t => b.toNat + 256 * leNat t

/-- The `n` little-endian bytes of a natural number (R5). -/
def leBytes : Nat → Nat → List Byte
  | 0, _ => []
  | n + 1, v => BitVec.ofNat 8 v :: leBytes n (v / 256)

end Sys2Proof
end

