-- ==== Sys2Proof/Machine/StNet.lean ====
section
/-!
DEFINITION. On-chip network and HBM controller state (chapters 12 and 13) as plain data: packets in flight, request trackers,
schedule credits, refresh, self-refresh, scrub and maintenance.
-/

namespace Sys2Proof.Machine

/-- A direction of the device mesh (R425, R435). -/
inductive Dir where
  | north | east | south | west
  deriving DecidableEq, Repr

/-- A packet at a router (R425, R430): network 0 REQ, 1 RSP, 2 SNP, 3 DAT; its route word and control word, the index of its
next turn code, the move under way with the hops it still has to make, its flits, whether it has missed its
slot here, the hops and bridge lanes behind it, whether it travels as read data on DAT (R421), its flits that have crossed the
link ahead, the bridge lane by whose buffer it stands at its router, if any (R423), the flow of its source's die by which it goes, if
guaranteed (R436), and whether it is a copy of a broadcast that spreads (R422). -/
structure NocPacket where
  router : Nat
  net : Nat
  route : Word
  ctl : Word
  pos : Nat
  dir : Option Dir
  left : Nat
  flits : Nat
  missed : Bool
  hops : Nat
  bridges : Nat
  readData : Bool
  crossed : Nat
  lane : Option Nat
  flow : Option Nat
  spread : Bool
  deriving DecidableEq, Repr

/-- What a link has sent (R423, R435): a bridge lane's place in the eleven round-robin turns, whether its last flit was an SNP flit, and the slot
in which it last sent GUAR flits with their number. -/
structure LaneSt where
  turn : Nat
  snp : Bool
  slot : Nat
  guar : Nat
  deriving DecidableEq, Repr

/-- A lane that has sent nothing. -/
def LaneSt.idle : LaneSt := { turn := 0, snp := false, slot := 0, guar := 0 }

/-- A request a die tracks (R439): its tag generation, deadline, the timeout it was issued with, the queue and sequence number
of its command, its corral, and the device it went to over the reins, if any. -/
structure TrackedReq where
  gen : Nat
  deadline : Nat
  timeout : Nat
  queue : Nat
  seq : Nat
  corral : Nat
  remote : Option Nat
  kind : Nat                -- rein packet type of the request, 0 on chip
  addr : Nat
  len : Nat
  dest : Nat                -- the position of its bytes in their stream
  ctx : Nat                 -- the stream context that issued it
  recv : Nat                -- the receiver of a multicast it goes to, by index
  deriving DecidableEq, Repr

/-- Network and tracker state. Keys of the maps are die × 65,536 + tag. -/
structure NocSt where
  packets : List NocPacket
  delivered : List NocPacket
  reqs : SMap (Option TrackedReq)
  gens : SMap Nat
  held : SMap (Option (Nat × Nat))    -- GEN that timed out, end of the hold (R440)
  lanes : SMap LaneSt                 -- by link number, 4 × router + direction (R435)
  deriving DecidableEq, Repr

/-- No packet, no request. -/
def NocSt.reset : NocSt := { packets := [], delivered := [], reqs := [], gens := [], held := [], lanes := [] }

/-- A class of units (R262). -/
inductive UnitClass where
  | read | write | remote
  deriving DecidableEq, Repr

/-- What sends a transfer unit to a controller (R588): a read or a write of a stream of this device, a page-table walk, the fetch of a
descriptor or of a configuration image, a record (of completion, fault or latch, or a card), trace, a probe port's capture or replay,
a rein port or a host port. -/
inductive UnitSource where
  | streamRead | streamWrite | walk | fetch | record | trace | capture | replay | reinPort | hostPort
  deriving DecidableEq, Repr

/-- The class of a source's units (R262, R357, R359, R556, R588). -/
def UnitSource.cls : UnitSource → UnitClass
  | .streamRead => .read
  | .walk => .read
  | .fetch => .read
  | .record => .write
  | .streamWrite => .write
  | .trace => .write
  | .capture => .write
  | .replay => .read
  | .reinPort => .remote
  | .hostPort => .remote

/-- A transfer unit waiting at a controller (R259): its source, the corral it works for, its address, and whether it covers some 32-byte
ECC word only partly (R261). -/
structure HbmUnit where
  src : UnitSource
  corral : Option (BitVec 8)
  addr : BitVec 39
  partialWord : Bool
  deriving DecidableEq, Repr

/-- The class of a unit (R262). -/
def HbmUnit.cls (u : HbmUnit) : UnitClass := u.src.cls

/-- What comes up at a controller: a schedule position, with the units that arrived before it (R455); an uncorrectable error in its
request buffers (R598); an error in an ECC word of its memory, named by address bits [38:5], of one bit or uncorrectable (R459); or a
correction that the stack reports (R472). -/
inductive HbmPosition where
  | serve (arrived : List HbmUnit)
  | spoiled
  | upset (word : BitVec 34) (lost : Bool)
  | stackFixed
  deriving DecidableEq, Repr

/-- A controller: schedule credits (R455), waiting units in arrival order, and when it last scrubbed (R461). -/
structure CtrlSt where
  read : Int
  write : Int
  remote : Int
  waiting : List HbmUnit
  scrubAt : Nat
  scrubLow : Bool          -- the pseudo-channel of the pair to scrub next
  scrubDue : Option Nat    -- since when a scrub read waits for a position (R461)
  deriving DecidableEq, Repr

/-- A controller at commit: credits 0 (R455). -/
def CtrlSt.idle : CtrlSt := { read := 0, write := 0, remote := 0, waiting := [], scrubAt := 0, scrubLow := false, scrubDue := none }

/-- A pseudo-channel: last use, self-refresh, the next unit of its scrub walk and when it last completed one (R458, R462). -/
structure PcSt where
  usedAt : Nat
  inSr : Bool
  walk : Nat
  walkedAt : Nat
  waking : Bool             -- scrub woke it to complete a walk
  deriving DecidableEq, Repr

/-- A pseudo-channel at reset. -/
def PcSt.idle : PcSt := { usedAt := 0, inSr := false, walk := 0, walkedAt := 0, waking := false }

/-- Contents of a stack that became undefined (R637): the draw of the free value, and the stack-selecting hash masks then. -/
structure UndefMem where
  stack : Nat
  draw : Nat
  masks : List Nat
  deriving DecidableEq, Repr

/-- HBM state: controllers keyed stack × 16 + c, pseudo-channels keyed 0–255, last refresh of each bank keyed pseudo-channel ×
64 + bank, banks being refreshed, maintenance operations waiting per stack, words with a single-bit error,
and stacks with undefined contents. -/
structure HbmSt where
  ctrls : SMap CtrlSt
  pcs : SMap PcSt
  refreshed : SMap Nat
  busy : SMap Bool
  maint : SMap (List Nat)
  soft : List Nat
  undef : List UndefMem
  deriving DecidableEq, Repr

/-- HBM state at power-on reset. -/
def HbmSt.reset : HbmSt := { ctrls := [], pcs := [], refreshed := [], busy := [], maint := [], soft := [], undef := [] }

end Sys2Proof.Machine
end

