-- ==== Sys2Proof/Wire.lean ====
section
/-!
DEFINITION. What reaches the device from outside as operands of commands: Ethernet frames and RoCE requests (R293, R296), rein
packets (R490), and what the device sends.
-/

namespace Sys2Proof

/-- The sender of a RoCE packet: its GID, MAC and queue pair number (R298, R299). -/
structure Peer where
  gid : BitVec 128
  mac : BitVec 48
  qpn : BitVec 24
  deriving DecidableEq, Repr, Inhabited

/-- A RoCE request a queue pair receives (R296, R297). -/
inductive RoceReq where
  | send (data : List Byte)
  | write (rkey : BitVec 32) (off : BitVec 64) (data : List Byte)
  | read (rkey : BitVec 32) (off : BitVec 64) (len : BitVec 32)
  | compareSwap (rkey : BitVec 32) (off : BitVec 64) (compare swap : Word)
  | fetchAdd (rkey : BitVec 32) (off : BitVec 64) (addend : Word)
  | unsupported
  deriving DecidableEq, Repr, Inhabited

/-- An answer to a request the device issued (R296, R298). -/
inductive RoceRsp where
  | ack
  | readData (data : List Byte)
  | nakSequence
  | nakRemote
  | rnr
  deriving DecidableEq, Repr, Inhabited

/-- How a frame's headers read (R293, R294, R295): RoCE v2 requests and responses for a queue pair, a CNP, a PFC frame, or
anything else. -/
inductive FrameBody where
  | request (qpn : BitVec 24) (psn : BitVec 24) (src : Peer) (r : RoceReq)
  | response (qpn : BitVec 24) (psn : BitVec 24) (r : RoceRsp)
  | cnp (qpn : BitVec 24)
  | pfc (enable : BitVec 8) (quanta : List (BitVec 16))
  | other
  deriving DecidableEq, Repr, Inhabited

/-- A frame at a host port (R293): its length with FCS, its 802.1Q tags, whether it is IP-fragmented or carries IPv4 options or
IPv6 extension headers, the IPv4 or IPv6 destination it names, its ECN mark, its body, and what the line code and the FCS found
in it: a bad FCS, and FEC codewords corrected and uncorrectable (R335). -/
structure EthFrame where
  len : BitVec 16
  tags : List (BitVec 12)
  badIp : Bool
  dst4 : Option (BitVec 32)
  dst6 : Option (BitVec 128)
  ce : Bool
  badFcs : Bool
  fecFixed : BitVec 8
  fecLost : BitVec 8
  body : FrameBody
  raw : List Byte          -- the frame without FCS, as a relay carries it (R501)
  deriving DecidableEq, Repr, Inhabited

/-- A rein packet's header without TYPE, and its payload (R490). -/
structure ReinPkt where
  dst : BitVec 16
  src : BitVec 16
  vc : BitVec 5
  ghops : BitVec 2
  len : BitVec 11
  corral : BitVec 8
  tag : BitVec 16
  gen : BitVec 8
  srcIndex : BitVec 6
  srcRouter : BitVec 10
  code : BitVec 16
  addr : Word
  payload : List Byte
  deriving DecidableEq, Repr

/-- What a rein port receives (R485, R486): a flit of 256 bytes as the line code's first stage hands it over, or the symbol slots of a
codeword pair as they stand on the line, stuff slots among them, the level of physical lane l in bits [2l + 1:2l]. -/
inductive RxUnit where
  | flit (bytes : List Byte)
  | pair (slots : List Byte)
  deriving DecidableEq, Repr

/-- The headers of a packet that a host port sends (R295, R296, R298, R329): the VLAN identifier where the port sends tagged, the
priority, the DSCP of HST_PORT_CFG, the traffic class byte of the queue pair's entry (none where no entry gives one), and the ECN
mark. -/
structure FrameHdr where
  port : Nat
  vlan : Option Nat
  pcp : Nat
  dscp : Nat
  tclass : Option Nat
  ecn : Nat
  deriving DecidableEq, Repr

/-- Something the device puts on a wire. -/
inductive WireMsg where
  /-- an acknowledgement to a peer: queue pair, PSN -/
  | roceAck (qp : Nat) (psn : Nat)
  /-- data of an RDMA READ -/
  | roceData (qp : Nat) (psn : Nat) (data : List Byte)
  /-- the old value of an atomic -/
  | roceAtomic (qp : Nat) (psn : Nat) (value : Word)
  /-- a NAK: 0 PSN sequence error, 1 invalid request, 2 remote access error, 3 remote operational error -/
  | roceNak (qp : Nat) (psn : Nat) (kind : Nat)
  /-- a NAK to a queue pair of a peer, for a request that names no queue pair of the device -/
  | roceNakTo (qpn : Nat) (psn : Nat) (kind : Nat)
  /-- a receiver-not-ready NAK with its timer code -/
  | roceRnr (qp : Nat) (psn : Nat) (timer : Nat)
  /-- an RDMA WRITE the device issues: queue pair, PSN, remote address, rkey, data -/
  | roceWrite (qp : Nat) (psn : Nat) (addr : Nat) (rkey : Nat) (data : List Byte)
  /-- an RDMA READ the device issues -/
  | roceRead (qp : Nat) (psn : Nat) (addr : Nat) (rkey : Nat) (len : Nat)
  /-- a CNP to a queue pair's peer -/
  | cnp (qp : Nat)
  /-- a RoCE v2 message of a host port, with the headers its packets bear -/
  | framed (h : FrameHdr) (m : WireMsg)
  /-- a PFC frame: port, priorities, pause quanta -/
  | pfc (port : Nat) (prios : Nat) (quanta : Nat)
  /-- a rein packet leaving a port, with its TYPE -/
  | rein (port : Nat) (typ : Nat) (p : ReinPkt)
  /-- the identity a rein port sends in INIT (R495): the port, the device ID, RNL_PORT_CFG, and whether the device is numbered -/
  | ident (port : Nat) (dev : Nat) (cfg : Word) (numbered : Bool)
  /-- an I2C answer word, or none for a NAK -/
  | i2c (w : Option (BitVec 16))
  /-- the presence mask, from a lead to a position (R608) -/
  | mgmt (pos : Nat) (mask : Nat)
  /-- a poll, from a lead to a position (R610) -/
  | mgmtPoll (pos : Nat)
  /-- a wheeler's answer to its lead's poll (R610) -/
  | mgmtAnswer
  /-- a wheeler's report to its lead that every port toward a position is DOWN for SIGNAL or MARKERS (R610) -/
  | mgmtDown (pos : Nat)
  /-- a PMBus command to a regulator: its address, the command code, the value -/
  | pmbus (addr : Nat) (code : Nat) (value : Nat)
  deriving DecidableEq, Repr

/-- What the line of a host port presents (R328): a link, a signal, PCS lock and FEC lock. -/
structure HostLine where
  up : Bool
  signal : Bool
  pcs : Bool
  fec : Bool
  deriving DecidableEq, Repr

/-- An error that a code over memory finds: uncorrectable at a place, or of one bit, which the device corrects. -/
inductive EccError (α : Type) where
  | uncorrectable (place : α)
  | corrected
  deriving DecidableEq, Repr

end Sys2Proof
end

