-- ==== Sys2Proof/Syntax.lean ====
section
/-!
DEFINITION. The commands the block takes from outside: one constructor per row of the opcode table, in the table's order.
-/

namespace Sys2Proof

open Sys2Proof.Machine (NocPacket HbmPosition)

/-- A command (an operation of a register, a bus or a protocol, an event on a pin, or a step of the device's own engines). -/
inductive Instr where
  /-- `POWER_ON_RESET`: PORST_N deasserted with every rail in tolerance; the level of ROLE_LEAD (R499, R622) -/
  | powerOnReset (roleLead : Bool)
  /-- `PORST_N_ASSERT`: PORST_N low for `ns` nanoseconds (R624) -/
  | porstAssert (ns : Nat)
  /-- `SUPPLY_UNDERVOLTAGE`: VDD_CORE, VDD_SRAM or VDD_IO below 90 % (R624) -/
  | supplyUndervoltage
  /-- `REFCLK_LOSS`: REFCLK stopped or off by 1,000 ppm for 10 µs (R631) -/
  | refclkLoss
  /-- `THERMAL_TRIP`: a junction of the die reached 110 °C (R628) -/
  | thermalTrip (die : Fin 4)
  /-- `VOLTAGE_LOOP_PASS`: one pass with its readings: TEMP in 1/16 °C, VDD_CORE in mV, plane current in A, lowest gait rate, package power in W, the step estimate in W, and
whether its PMBus transactions succeeded within their retries (R626, R627) -/
  | voltageLoopPass (die : Fin 4) (temp : BitVec 16) (vmeas : BitVec 16) (iout : BitVec 16) (rate : BitVec 12) (power : BitVec 12) (est : BitVec 8) (pmbOk : Bool)
  /-- `PMBUS_RETRY_TIMER`: a faulted regulator is tried again (R627) -/
  | pmbusRetryTimer (die : Fin 4) (ok : Bool)
  /-- `VOLTAGE_RECAL`: READ_VOUT in mV, or none where the transaction failed (R627) -/
  | voltageRecal (die : Fin 4) (vout : Option (BitVec 16))
  /-- `I2C_READ_WORD`: SMBus Read Word (R634) -/
  | i2cReadWord (command : BitVec 8)
  /-- `BYPASS`: IEEE 1149.1 BYPASS (R633) -/
  | tapBypass
  /-- `IDCODE`: IEEE 1149.1 IDCODE (R389, R633) -/
  | tapIdcode
  /-- `SAMPLE_PRELOAD`: SAMPLE/PRELOAD with the pins' values and the preloaded values (R633) -/
  | tapSample (pins : List (BitVec 10 × Bool)) (drive : List (BitVec 10 × Bool))
  /-- `EXTEST`: EXTEST (R633) -/
  | tapExtest (drive : List (BitVec 10 × Bool))
  /-- `CLAMP`: CLAMP (R633) -/
  | tapClamp
  /-- `HIGHZ`: HIGHZ (R633) -/
  | tapHighz
  /-- `HP0_BOOT_TIMEOUT`: HP0 not up 500 ms after the boot ROM started (R526) -/
  | hp0BootTimeout
  /-- `BOOT_GO`: a write of BOOT_GO in the boot window (R527, R529) -/
  | bootGo (value : Word)
  /-- `BOOT_CHECK_DONE`: the ROM's checks end (R529) -/
  | bootCheckDone
  /-- `HBM_TRAINING_DONE`: start-up training ends; bit s: stack s failed (R464) -/
  | hbmTrainingDone (failed : BitVec 8)
  /-- `GRM_DRV_FEATURES_WRITE`: a write of GRM_DRV_FEATURES (R534) -/
  | grmDrvFeaturesWrite (value : Word)
  /-- `ATTEST`: GRM_REQ with OP ATTEST (R550) -/
  | attest (seq : BitVec 16) (len : BitVec 32)
  /-- `CERT_CHAIN`: GRM_REQ with OP CERT_CHAIN (R549) -/
  | certChain (seq : BitVec 16) (len : BitVec 32)
  /-- `KEY_OFFER`: GRM_REQ with OP KEY_OFFER (R548) -/
  | keyOffer (seq : BitVec 16) (len : BitVec 32)
  /-- `KEY_INSTALL`: GRM_REQ with OP KEY_INSTALL (R548) -/
  | keyInstall (seq : BitVec 16) (len : BitVec 32)
  /-- `HANDOVER`: GRM_REQ with OP HANDOVER (R538) -/
  | handover (seq : BitVec 16) (len : BitVec 32)
  /-- `FUSE`: GRM_REQ with OP FUSE (R547) -/
  | fuse (seq : BitVec 16) (len : BitVec 32)
  /-- `GRM_REQUEST_DONE`: the firmware answers the request in the mailbox (R535) -/
  | grmRequestDone
  /-- `HANDOVER_IMAGE_CHECKED`: checks 1 to 8 of R529 on the handover image end (R540) -/
  | handoverImageChecked
  /-- `HANDOVER_CHECKPOINT_DONE`: the checkpoint is written (R539, R540) -/
  | handoverCheckpointDone (header : List Word) (state : List Byte)
  /-- `HANDOVER_FIRMWARE_START`: the image is copied, its digest recomputed and the firmware started (R540) -/
  | handoverFirmwareStart
  /-- `HANDOVER_READY`: the new firmware reports ready (R540) -/
  | handoverReady (cold : Bool)
  /-- `HANDOVER_DEADLINE_MISS`: the ready deadline passes (R541) -/
  | handoverDeadlineMiss
  /-- `CORE_WATCHDOG_EXPIRY`: a core's 100 ms watchdog expires (R542) -/
  | coreWatchdogExpiry (core : Fin 4)
  /-- `HEARTBEAT_TIMEOUT`: GRM_HEARTBEAT has not advanced for 20 ms (R543) -/
  | heartbeatTimeout
  /-- `GROOM_SRAM_UNCORR`: an uncorrectable groom SRAM error (R542) -/
  | groomSramUncorr
  /-- `FIRMWARE_DECLARE_FAILED`: the firmware declares itself failed (R543) -/
  | firmwareDeclareFailed
  /-- `EVENT_RECORD_WRITE`: the oldest event record held is written (R599, R600) -/
  | eventRecordWrite
  /-- `ETH_FRAME_RECEIVE`: a frame arrives (R293) -/
  | ethFrameReceive (port : Fin 4) (frame : EthFrame)
  /-- `PFC_XON_SEND`: receive-buffer occupancy in KiB (R294) -/
  | pfcXonSend (port : Fin 4) (kib : BitVec 11)
  /-- `PFC_FRAME_RECEIVE`: a PFC frame (R294) -/
  | pfcFrameReceive (port : Fin 4) (enable : BitVec 8) (quanta : List (BitVec 16))
  /-- `PFC_PAUSE_EXPIRY`: the requested pause has run out (R294) -/
  | pfcPauseExpiry (port : Fin 4) (prio : Fin 8)
  /-- `CNP_RECEIVE`: a CNP names the queue pair (R295) -/
  | cnpReceive (qp : Fin 8192)
  /-- `CNP_RATE_RECOVERY`: 55 µs without a CNP (R295) -/
  | cnpRateRecovery (qp : Fin 8192)
  /-- `HOST_LINK_CHANGE`: the line of a host port changes: LINK_UP, signal, PCS and FEC lock, lanes locked (R328) -/
  | hostLinkChange (port : Fin 4) (line : HostLine) (lanes : BitVec 4) (anDone : Bool)
  /-- `ROCE_SEND`: a SEND (R307) -/
  | roceSend (qp : Fin 8192) (psn : BitVec 24) (data : List Byte)
  /-- `RDMA_WRITE`: an RDMA WRITE (R301) -/
  | rdmaWrite (qp : Fin 8192) (psn : BitVec 24) (rkey : BitVec 32) (off : BitVec 64) (data : List Byte)
  /-- `RDMA_READ`: an RDMA READ (R301) -/
  | rdmaRead (qp : Fin 8192) (psn : BitVec 24) (rkey : BitVec 32) (off : BitVec 64) (len : BitVec 32)
  /-- `RDMA_COMPARE_SWAP`: a Compare & Swap (R322) -/
  | rdmaCompareSwap (qp : Fin 8192) (psn : BitVec 24) (rkey : BitVec 32) (off : BitVec 64) (compare : Word) (swap : Word)
  /-- `RDMA_FETCH_ADD`: a Fetch & Add (R322) -/
  | rdmaFetchAdd (qp : Fin 8192) (psn : BitVec 24) (rkey : BitVec 32) (off : BitVec 64) (addend : Word)
  /-- `ROCE_UNSUPPORTED_REQUEST`: a request that R297 excludes -/
  | roceUnsupportedRequest (qp : Fin 8192) (psn : BitVec 24)
  /-- `ROCE_RESPONSE_RECEIVE`: an answer to a request of the device (R296) -/
  | roceResponseReceive (qp : Fin 8192) (psn : BitVec 24) (rsp : RoceRsp)
  /-- `ROCE_ACK_TIMEOUT`: the local ACK timeout expires (R298) -/
  | roceAckTimeout (qp : Fin 8192)
  /-- `REGISTER_WRITE`: an aligned 8-byte write to a register (R8, R11) -/
  | registerWrite (addr : BitVec 57) (value : Word)
  /-- `DB_PI_WRITE`: a write of DB_PI (R305) -/
  | dbPiWrite (port : Fin 4) (queue : Fin 65536) (value : Word)
  /-- `DB_CI_WRITE`: a write of DB_CI (R305) -/
  | dbCiWrite (port : Fin 4) (queue : Fin 65536) (value : Word)
  /-- `STREAM_RESUME`: a write of DB_STREAM with OP RESUME (R271) -/
  | streamResume (port : Fin 4) (queue : Fin 65536) (value : Word)
  /-- `STREAM_ABORT`: a write of DB_STREAM with OP ABORT (R271) -/
  | streamAbort (port : Fin 4) (queue : Fin 65536) (value : Word)
  /-- `QUEUE_ENABLE`: HST_QCTL ENABLE (R303) -/
  | queueEnable (queue : Fin 65536) (start : BitVec 32)
  /-- `QUEUE_DISABLE`: HST_QCTL DISABLE (R303) -/
  | queueDisable (queue : Fin 65536)
  /-- `QP_ARM`: HST_QP_CMD ARM (R298) -/
  | qpArm (qp : Fin 8192)
  /-- `QP_RESET`: HST_QP_CMD RESET (R298) -/
  | qpReset (qp : Fin 8192)
  /-- `MR_FLUSH`: HST_QP_CMD MR_FLUSH (R300) -/
  | mrFlush (index : Fin 8192)
  /-- `XLATE_INVAL`: a write of HST_XLATE_INVAL (R268) -/
  | xlateInval (value : Word)
  /-- `MATRIX`: the MATRIX descriptor at ADMIT is checked (R173) -/
  | matrix (queue : Fin 65536)
  /-- `VECTOR`: the VECTOR descriptor at ADMIT is checked (R232) -/
  | vector (queue : Fin 65536)
  /-- `MOVE_COPY`: the MOVE descriptor of kind COPY at ADMIT is checked (R276) -/
  | moveCopy (queue : Fin 65536)
  /-- `MOVE_MULTICAST`: the MOVE descriptor of kind MULTICAST at ADMIT is checked (R276) -/
  | moveMulticast (queue : Fin 65536)
  /-- `GATHER`: the INDEXED MOVE with OP GATHER at ADMIT is checked (R276) -/
  | gather (queue : Fin 65536)
  /-- `SCATTER`: the INDEXED MOVE with OP SCATTER at ADMIT is checked (R276) -/
  | scatter (queue : Fin 65536)
  /-- `SCATTER_ADD`: the INDEXED MOVE with OP SCATTER_ADD at ADMIT is checked (R276) -/
  | scatterAdd (queue : Fin 65536)
  /-- `SCATTER_MIN`: the INDEXED MOVE with OP SCATTER_MIN at ADMIT is checked (R276) -/
  | scatterMin (queue : Fin 65536)
  /-- `SCATTER_MAX`: the INDEXED MOVE with OP SCATTER_MAX at ADMIT is checked (R276) -/
  | scatterMax (queue : Fin 65536)
  /-- `DRAIN`: the DRAIN descriptor at ADMIT is checked (R152, R314) -/
  | drain (queue : Fin 65536)
  /-- `TANDEM`: the TANDEM descriptor at ADMIT is checked (R288) -/
  | tandem (queue : Fin 65536)
  /-- `TETHER_WAIT`: the TETHER WAIT at ADMIT is checked (R313) -/
  | tetherWait (queue : Fin 65536)
  /-- `TETHER_SIGNAL`: the TETHER SIGNAL at ADMIT is checked (R313) -/
  | tetherSignal (queue : Fin 65536)
  /-- `TETHER_ADD`: the TETHER ADD at ADMIT is checked (R313) -/
  | tetherAdd (queue : Fin 65536)
  /-- `CTX_SAVE`: the CTX_SAVE at ADMIT is checked (R315) -/
  | ctxSave (queue : Fin 65536)
  /-- `CTX_RESTORE`: the CTX_RESTORE at ADMIT is checked (R315) -/
  | ctxRestore (queue : Fin 65536)
  /-- `FENCE`: the FENCE at ADMIT is checked (R324) -/
  | fence (queue : Fin 65536)
  /-- `RESYNC`: the RESYNC at ADMIT is checked (R316) -/
  | resync (queue : Fin 65536)
  /-- `STEP`: the STEP at ADMIT is checked (R317) -/
  | stepCmd (queue : Fin 65536)
  /-- `LEASE_GRANT`: the waiting command of the queue is granted (R147) -/
  | leaseGrant (queue : Fin 65536)
  /-- `LEASE_WAIT_TIMEOUT`: its lease wait limit has passed (R149) -/
  | leaseWaitTimeout (queue : Fin 65536)
  /-- `TETHER_WAIT_TIMEOUT`: a TETHER WAIT's TIMEOUT has passed (R313) -/
  | tetherWaitTimeout (queue : Fin 65536) (seq : BitVec 32)
  /-- `DRAIN_RELEASE`: QUIET has risen on every stall the command reads (R154) -/
  | drainRelease (queue : Fin 65536) (seq : BitVec 32)
  /-- `TANDEM_STAGE_BEGIN`: a stage begins (R290) -/
  | tandemStageBegin (queue : Fin 65536) (seq : BitVec 32) (stage : Fin 8)
  /-- `TANDEM_STAGE_COMPLETE`: a stage finishes (R290) -/
  | tandemStageComplete (queue : Fin 65536) (seq : BitVec 32) (stage : Fin 8)
  /-- `COMMAND_COMPLETE`: a command completes or its failure is reported (R326) -/
  | commandComplete (queue : Fin 65536) (seq : BitVec 32)
  /-- `CHAIN_HANDSHAKE_TIMEOUT`: a team handshake did not complete within 100 µs (R120) -/
  | chainHandshakeTimeout (stall : Fin 3072)
  /-- `STATIONARY_PARITY_ERROR`: a parity error in a stationary set (R94) -/
  | stationaryParityError (stall : Fin 3072) (row : Fin 9)
  /-- `ACS_UNCORRECTABLE`: an error in the accumulator store: uncorrectable in a segment, or corrected (R161) -/
  | acsUncorrectable (stall : Fin 3072) (err : EccError (Fin 64))
  /-- `VEC_UNCORRECTABLE`: an error in a vector register of the bank or in a program store page: uncorrectable, or
  corrected (R235) -/
  | vecUncorrectable (stall : Fin 3072) (bank : Bool) (err : EccError (Option (Fin 32)))
  /-- `GAIT_METER_SAMPLE`: the meter's reading of the last 1 µs (R113) -/
  | gaitMeterSample (stall : Fin 3072) (rate : BitVec 12)
  /-- `XLATE_FAULT_HALT`: the stream of the context halts (R269) -/
  | xlateFaultHalt (ctx : Fin 131072)
  /-- `STREAM_WATCHDOG_EXPIRY`: a MOVE made no progress for WATCHDOG ms (R284) -/
  | streamWatchdogExpiry (ctx : Fin 131072)
  /-- `MCAST_LAG_EXPIRY`: a receiver lacked room for `lag` ns (R279) -/
  | mcastLagExpiry (ctx : Fin 131072) (receiver : Fin 4096) (lag : BitVec 64)
  /-- `SLI`: the stall issues SLI (R223) -/
  | vsli (stall : Fin 3072)
  /-- `SLIH`: the stall issues SLIH (R223) -/
  | vslih (stall : Fin 3072)
  /-- `SADD`: the stall issues SADD (R223) -/
  | vsadd (stall : Fin 3072)
  /-- `SSUB`: the stall issues SSUB (R223) -/
  | vssub (stall : Fin 3072)
  /-- `SMUL`: the stall issues SMUL (R223) -/
  | vsmul (stall : Fin 3072)
  /-- `SAND`: the stall issues SAND (R223) -/
  | vsand (stall : Fin 3072)
  /-- `SOR`: the stall issues SOR (R223) -/
  | vsor (stall : Fin 3072)
  /-- `SXOR`: the stall issues SXOR (R223) -/
  | vsxor (stall : Fin 3072)
  /-- `SSHL`: the stall issues SSHL (R223) -/
  | vsshl (stall : Fin 3072)
  /-- `SSHR`: the stall issues SSHR (R223) -/
  | vsshr (stall : Fin 3072)
  /-- `SSRA`: the stall issues SSRA (R223) -/
  | vssra (stall : Fin 3072)
  /-- `SADDI`: the stall issues SADDI (R223) -/
  | vsaddi (stall : Fin 3072)
  /-- `SLD`: the stall issues SLD (R223) -/
  | vsld (stall : Fin 3072)
  /-- `SST`: the stall issues SST (R223) -/
  | vsst (stall : Fin 3072)
  /-- `BEQ`: the stall issues BEQ (R223) -/
  | vbeq (stall : Fin 3072)
  /-- `BNE`: the stall issues BNE (R223) -/
  | vbne (stall : Fin 3072)
  /-- `BLT`: the stall issues BLT (R223) -/
  | vblt (stall : Fin 3072)
  /-- `BLTU`: the stall issues BLTU (R223) -/
  | vbltu (stall : Fin 3072)
  /-- `JMP`: the stall issues JMP (R223) -/
  | vjmp (stall : Fin 3072)
  /-- `HALT`: the stall issues HALT (R236) -/
  | vhalt (stall : Fin 3072)
  /-- `VLD`: the stall issues VLD (R223) -/
  | vvld (stall : Fin 3072)
  /-- `VST`: the stall issues VST (R223) -/
  | vvst (stall : Fin 3072)
  /-- `VLDX`: the stall issues VLDX (R229) -/
  | vvldx (stall : Fin 3072)
  /-- `VSTX`: the stall issues VSTX (R229) -/
  | vvstx (stall : Fin 3072)
  /-- `VADD`: the stall issues VADD (R225) -/
  | vvadd (stall : Fin 3072)
  /-- `VSUB`: the stall issues VSUB (R225) -/
  | vvsub (stall : Fin 3072)
  /-- `VMUL`: the stall issues VMUL (R225) -/
  | vvmul (stall : Fin 3072)
  /-- `VMADD`: the stall issues VMADD (R223) -/
  | vvmadd (stall : Fin 3072)
  /-- `VMIN`: the stall issues VMIN (R223) -/
  | vvmin (stall : Fin 3072)
  /-- `VMAX`: the stall issues VMAX (R223) -/
  | vvmax (stall : Fin 3072)
  /-- `VABS`: the stall issues VABS (R223) -/
  | vvabs (stall : Fin 3072)
  /-- `VNEG`: the stall issues VNEG (R223) -/
  | vvneg (stall : Fin 3072)
  /-- `VDIV`: the stall issues VDIV (R225) -/
  | vvdiv (stall : Fin 3072)
  /-- `VSQRT`: the stall issues VSQRT (R225) -/
  | vvsqrt (stall : Fin 3072)
  /-- `CMUL`: the stall issues CMUL (R225) -/
  | vcmul (stall : Fin 3072)
  /-- `VCMP`: the stall issues VCMP (R221) -/
  | vvcmp (stall : Fin 3072)
  /-- `VSEL`: the stall issues VSEL (R223) -/
  | vvsel (stall : Fin 3072)
  /-- `VAND`: the stall issues VAND (R223) -/
  | vvand (stall : Fin 3072)
  /-- `VOR`: the stall issues VOR (R223) -/
  | vvor (stall : Fin 3072)
  /-- `VXOR`: the stall issues VXOR (R223) -/
  | vvxor (stall : Fin 3072)
  /-- `VSHL`: the stall issues VSHL (R223) -/
  | vvshl (stall : Fin 3072)
  /-- `VSHR`: the stall issues VSHR (R223) -/
  | vvshr (stall : Fin 3072)
  /-- `VPOPC`: the stall issues VPOPC (R223) -/
  | vvpopc (stall : Fin 3072)
  /-- `VIOTA`: the stall issues VIOTA (R223) -/
  | vviota (stall : Fin 3072)
  /-- `VBCAST`: the stall issues VBCAST (R223) -/
  | vvbcast (stall : Fin 3072)
  /-- `VCVT`: the stall issues VCVT (R226) -/
  | vvcvt (stall : Fin 3072)
  /-- `VCVTMX`: the stall issues VCVTMX (R227) -/
  | vvcvtmx (stall : Fin 3072)
  /-- `VREDADD`: the stall issues VREDADD (R228) -/
  | vvredadd (stall : Fin 3072)
  /-- `VREDMIN`: the stall issues VREDMIN (R228) -/
  | vvredmin (stall : Fin 3072)
  /-- `VREDMAX`: the stall issues VREDMAX (R228) -/
  | vvredmax (stall : Fin 3072)
  /-- `VCOMPRESS`: the stall issues VCOMPRESS (R229) -/
  | vvcompress (stall : Fin 3072)
  /-- `HWAIT`: the stall issues HWAIT (R243) -/
  | vhwait (stall : Fin 3072)
  /-- `HPOST`: the stall issues HPOST (R243) -/
  | vhpost (stall : Fin 3072)
  /-- `DISPATCH`: the stall issues DISPATCH (R242) -/
  | vdispatch (stall : Fin 3072)
  /-- `BANK_SWITCH`: the sequencer switches banks (R238) -/
  | bankSwitch (stall : Fin 3072)
  /-- `DISCARD_REQUESTS_RETIRED`: the corral's outstanding requests have retired (R594) -/
  | discardRequestsRetired (corral : BitVec 8)
  /-- `NOC_PACKET_HOP`: a router executes the packet's next turn code (R425) -/
  | nocPacketHop (packet : NocPacket)
  /-- `NOC_FLIT_STUCK`: a flit of the packet could not leave its router for 100 ms (R433) -/
  | nocFlitStuck (packet : NocPacket)
  /-- `INITIATOR_TIMEOUT`: a request's deadline passes (R439) -/
  | initiatorTimeout (die : Fin 4) (tag : BitVec 16)
  /-- `LATE_RESPONSE`: a response that matches no request (R440) -/
  | lateResponse (die : Fin 4) (tag : BitVec 16) (gen : BitVec 8)
  /-- `TAG_HOLD_EXPIRY`: four timeouts have passed (R440) -/
  | tagHoldExpiry (die : Fin 4) (tag : BitVec 16)
  /-- `TREE_CONTRIB_TIMEOUT`: the wait for a device partition exceeds REMOTE_US (R142) -/
  | treeContribTimeout (queue : Fin 65536) (seq : BitVec 32)
  /-- `HBM_POSITION_SERVE`: a schedule position comes up; the units that arrived before it (R455) -/
  | hbmPositionServe (stack : Fin 8) (ctrl : Fin 16) (pos : HbmPosition)
  /-- `SELF_REFRESH_ENTRY`: a pseudo-channel has been idle for IDLE_US (R458) -/
  | selfRefreshEntry (stack : Fin 8) (pc : Fin 32)
  /-- `BANK_REFRESH`: a bank's refresh interval elapses (R457) -/
  | bankRefresh (stack : Fin 8) (pc : Fin 32) (bank : Fin 64)
  /-- `HBM_SCRUB_READ`: a controller scrubs one unit (R461) -/
  | hbmScrubRead (stack : Fin 8) (ctrl : Fin 16)
  /-- `SCRUB_DEFER_WAKE`: MAX_DEFER_S has passed since the last walk (R462) -/
  | scrubDeferWake (stack : Fin 8) (pc : Fin 32)
  /-- `HBM_TEMP_HOT`: the stack rises above 85 °C (R457) -/
  | hbmTempHot (stack : Fin 8) (temp : BitVec 8)
  /-- `HBM_FENCE`: HBM_MAINT FENCE (R465) -/
  | hbmFence (stack : Fin 8)
  /-- `HBM_UNFENCE`: HBM_MAINT UNFENCE (R465) -/
  | hbmUnfence (stack : Fin 8)
  /-- `HBM_RETRAIN`: HBM_MAINT RETRAIN (R465) -/
  | hbmRetrain (stack : Fin 8)
  /-- `HBM_FENCE_COMPLETE`: the units accepted before the fence have completed (R465) -/
  | hbmFenceComplete (stack : Fin 8)
  /-- `HBM_RETRAIN_COMPLETE`: retraining ends (R465) -/
  | hbmRetrainComplete (stack : Fin 8) (ok : Bool)
  /-- `CHANNEL_WORD_DELIVER`: a word pushed by the paddock reaches its receiver (R350) -/
  | channelWordDeliver (paddock : Fin 9216) (word : Word)
  /-- `GAIT_STOP`: the edge has been held for 1 µs (R345) -/
  | gaitStop (paddock : Fin 9216)
  /-- `RING_BATCH_FLUSH`: a batch of pushed words leaves (R352) -/
  | ringBatchFlush (paddock : Fin 9216)
  /-- `PADDOCK_RAM_ACCESS`: a write of `data`, or a read of `len` bytes, at a slot offset (R340) -/
  | paddockRamAccess (paddock : Fin 9216) (off : BitVec 13) (data : Option (List Byte)) (len : BitVec 13)
  /-- `PROBE_ARM`: PDK_PROBE_CTL ARM (R360) -/
  | probeArm (paddock : Fin 9216)
  /-- `PROBE_STOP`: PDK_PROBE_CTL STOP (R360) -/
  | probeStop (paddock : Fin 9216)
  /-- `REPLAY_ARM`: PDK_REPLAY_CTL ARM (R360) -/
  | replayArm (paddock : Fin 9216)
  /-- `REPLAY_STOP`: PDK_REPLAY_CTL STOP (R360) -/
  | replayStop (paddock : Fin 9216)
  /-- `PROBE_START_TICK`: an ARMED port's START tick is reached (R360) -/
  | probeStartTick (paddock : Fin 9216)
  /-- `CAPTURE_BLOCK_WRITE`: a closed capture block is written (R357) -/
  | captureBlockWrite (paddock : Fin 9216)
  /-- `STIMULUS_BLOCK_ARRIVAL`: the next stimulus block arrives (R359) -/
  | stimulusBlockArrival (paddock : Fin 9216)
  /-- `CFG_RELEASE`: CFG_RELEASE RELEASE (R405) -/
  | cfgRelease (region : BitVec 8)
  /-- `CFG_HOLD`: CFG_RELEASE HOLD (R405) -/
  | cfgHold (region : BitVec 8)
  /-- `RELEASE_WAIT_A_EXPIRY`: release wait A has passed (R365) -/
  | releaseWaitAExpiry (region : BitVec 8)
  /-- `RELEASE_WAIT_B_EXPIRY`: release wait B has passed (R365) -/
  | releaseWaitBExpiry (region : BitVec 8)
  /-- `USER_RESET_DEASSERT`: the edge that ends tick RESET_TICKS − 1 (R365) -/
  | userResetDeassert (paddock : Fin 9216)
  /-- `CFG_LOAD`: a write of CFG_LOAD (R398) -/
  | cfgLoad (value : Word)
  /-- `CFG_HEADER_ACCEPT`: header and frame list have been read and are checked (R400, R401) -/
  | cfgHeaderAccept
  /-- `CFG_COMMIT`: END is reached (R404) -/
  | cfgCommit
  /-- `CFG_STREAM_TIMEOUT`: no byte for CFG_TRUNC_MS (R403) -/
  | cfgStreamTimeout
  /-- `CFG_LOAD_REPORT`: a hitch device's result reaches the lead (R407) -/
  | cfgLoadReport (dev : BitVec 16) (epoch : BitVec 32) (code : BitVec 16) (state : BitVec 2)
  /-- `CONSIST_PROBE`: a write of CFG_CONSIST_CTL (R410) -/
  | consistProbe (value : Word)
  /-- `CONSIST_PERIOD_EXPIRY`: CFG_CONSIST_PERIOD has elapsed (R410) -/
  | consistPeriodExpiry
  /-- `CONSIST_PROBE_ANSWER`: a child's combined answer (R411) -/
  | consistProbeAnswer (child : BitVec 16) (matched : BitVec 32) (mismatch : BitVec 32) (loading : BitVec 32) (missing : BitVec 32) (firstMismatch : Option (BitVec 16)) (firstMissing : Option (BitVec 16))
  /-- `CONSIST_ANSWER_TIMEOUT`: a child has not answered in time (R410) -/
  | consistAnswerTimeout (child : BitVec 16)
  /-- `REIN_TRAINING_COMPLETE`: training ends (R493) -/
  | reinTrainingComplete (port : Fin 16) (ok : Bool) (freqError : Bool) (inverted : BitVec 4)
  /-- `ALIGN_MARKER_RECEIVE`: a marker's fields on the four lanes; whether the interval was without error, FEC is locked and BER is high (R482, R483, R493, R496) -/
  | alignMarkerReceive (port : Fin 16) (fields : List (BitVec 32)) (good : Bool) (fecLock : Bool) (ber : Bool)
  /-- `REIN_INIT_IDENT`: the peer's identity (R495) -/
  | reinInitIdent (port : Fin 16) (dev : BitVec 16) (peerPort : BitVec 4) (cfg : Word) (numbered : Bool)
  /-- `REIN_LINK_DOWN`: loss of signal, lock or markers (R494) -/
  | reinLinkDown (port : Fin 16) (cause : BitVec 3)
  /-- `REIN_FLIT_RECEIVE`: a flit, or a codeword pair with its five flits, arrives (R485, R488) -/
  | reinFlitReceive (port : Fin 16) (rx : RxUnit)
  /-- `REIN_RETRY_TIMEOUT`: no ACK advance within TIMEOUT_NS (R488) -/
  | reinRetryTimeout (port : Fin 16)
  /-- `REIN_FAILED_RETRY`: a FAILED port is retried (R493) -/
  | reinFailedRetry (port : Fin 16)
  /-- `RNL_PORT_CFG_WRITE`: a write of RNL_PORT_CFG (R494) -/
  | rnlPortCfgWrite (port : Fin 16) (value : Word)
  /-- `EYE_SCAN_START`: a write of RNL_EYE_CTL with START (R520) -/
  | eyeScanStart (port : Fin 16) (value : Word)
  /-- `EYE_SCAN_DONE`: the scan has counted its bits (R520) -/
  | eyeScanDone (port : Fin 16) (errors : BitVec 48)
  /-- `READ`: a READ packet (R491) -/
  | reinRead (port : Fin 16) (packet : ReinPkt)
  /-- `READ_DATA`: a READ_DATA packet (R491) -/
  | reinReadData (port : Fin 16) (packet : ReinPkt)
  /-- `WRITE`: a WRITE packet (R491) -/
  | reinWrite (port : Fin 16) (packet : ReinPkt)
  /-- `WRITE_ACK`: a WRITE_ACK packet (R491) -/
  | reinWriteAck (port : Fin 16) (packet : ReinPkt)
  /-- `REMOTE_TETHER_SIGNAL`: a TETHER_OP with CODE SIGNAL (R491) -/
  | remoteTetherSignal (port : Fin 16) (packet : ReinPkt)
  /-- `REMOTE_TETHER_ADD`: a TETHER_OP with CODE ADD (R491) -/
  | remoteTetherAdd (port : Fin 16) (packet : ReinPkt)
  /-- `REMOTE_TETHER_FETCH_ADD`: a TETHER_OP with CODE FETCH_ADD (R491) -/
  | remoteTetherFetchAdd (port : Fin 16) (packet : ReinPkt)
  /-- `REMOTE_TETHER_COMPARE_SWAP`: a TETHER_OP with CODE COMPARE_SWAP (R491) -/
  | remoteTetherCompareSwap (port : Fin 16) (packet : ReinPkt)
  /-- `TETHER_RSP`: a TETHER_RSP packet (R491) -/
  | tetherRsp (port : Fin 16) (packet : ReinPkt)
  /-- `ERROR`: an ERROR packet (R491) -/
  | reinError (port : Fin 16) (packet : ReinPkt)
  /-- `TREE`: a TREE packet (R513) -/
  | reinTree (port : Fin 16) (packet : ReinPkt)
  /-- `TIME`: a TIME packet with this side's stamps in 1/64 ns (R507) -/
  | reinTime (port : Fin 16) (packet : ReinPkt) (arrival : BitVec 64) (departure : BitVec 64)
  /-- `ENUM`: an ENUM packet (R500) -/
  | reinEnum (port : Fin 16) (packet : ReinPkt)
  /-- `RELAY`: a RELAY packet and the frame it carries (R501) -/
  | reinRelay (port : Fin 16) (packet : ReinPkt) (frame : EthFrame)
  /-- `ENUMERATION_START`: the lead starts enumeration; DX, DY and DZ as the hops it counts give them, [8:6], [5:3], [2:0] (R500) -/
  | enumerationStart (dims : BitVec 9)
  /-- `PRESENCE_MASK_UPDATE`: a presence mask over MGMT (R608) -/
  | presenceMaskUpdate (mask : Word)
  /-- `MGMT_POLL`: the positions that answered the lead's poll (R610) -/
  | mgmtPoll (answered : Word)
  /-- `LEAD_POLL_LOSS`: no poll for 40 ms (R611) -/
  | leadPollLoss
  /-- `ADMIT_PROBE`: the lead's probe of an unadmitted position and its answer (R612) -/
  | admitProbe (pos : BitVec 6) (answer : BitVec 2)
  /-- `LANE_RETRAIN`: BER_HIGH calls for a lane retraining (R607) -/
  | laneRetrain (port : Fin 16)
  /-- `LANE_RETRAIN_DRAINED`: the port's retry buffer is empty (R607) -/
  | laneRetrainDrained (port : Fin 16)
  /-- `TRACE_SAMPLE`: the stamps of the traced stalls, ascending, and the stalls whose sample finds no block with space (R555, R558) -/
  | traceSample (stamps : List (BitVec 64)) (lost : List (Fin 3072))
  /-- `DBG_TRACE_CFG_WRITE`: a write of DBG_TRACE_CFG (R558) -/
  | dbgTraceCfgWrite (value : Word)
  /-- `OCCUPANCY_TICK`: a microsecond of timebase (R564) -/
  | occupancyTick
  /-- `STABLE_CARD_DONE`: the firmware finishes the card (R569) -/
  | stableCardDone (queue : Fin 65536) (seq : BitVec 32)
  /-- `GAIT_EDGE`: an edge; the bits I/O cells present for the next tick (R344) -/
  | gaitEdge (paddock : Fin 9216) (pins : BitVec 64)
  /-- `BOOT_PHY_ALTERNATE`: 200 ms without a link in boot mode (R525) -/
  | bootPhyAlternate
  /-- `HEARTBEAT_ADVANCE`: 1 ms while firmware runs (R543) -/
  | heartbeatAdvance
  /-- `TAP_RESET`: TRST_N or Test-Logic-Reset (R633) -/
  | tapReset
  /-- `HBM_HOT_CLEAR`: the stack falls to 85 °C or below (R457) -/
  | hbmHotClear (stack : Fin 8) (temp : BitVec 8)
  /-- `NEIGHBOUR_DOWN_REPORT`: a neighbour's report that its ports toward the position are DOWN (R610) -/
  | neighbourDownReport (pos : BitVec 6) (neighbour : BitVec 6)
  /-- `CFG_REPORT_TIMEOUT`: a report has waited too long (R407) -/
  | cfgReportTimeout (dev : BitVec 16)
  /-- `CARD_ANSWER_TIMEOUT`: a wheeler's card has not arrived (R572) -/
  | cardAnswerTimeout (dev : BitVec 16)
  deriving DecidableEq, Repr

end Sys2Proof
end

