-- ==== Sys2Proof/Config.lean ====
section
/-!
DEFINITION. What an implementation or manufacture fixes and what the spec leaves open: the standard cryptographic functions the
spec names by reference (SHAKE256, Ed448, X448, AES-256-GCM), and free values. Each is an opaque constant: nothing proves a value
of it.
-/

namespace Sys2Proof.Config

/-- SHAKE256 with 256-bit output (R388, R390, R409, R529, R546, R548), byte 0 of the output in bits [7:0]. -/
opaque shake256 : List Byte → BitVec 256

/-- Ed448 verification (RFC 8032): public key, context, message, signature (R390, R528). -/
opaque ed448Verify : List Byte → List Byte → List Byte → List Byte → Bool

/-- Ed448 signing with the device's fused secret: secret, context, message; 114 bytes (R548, R550). -/
opaque ed448Sign : Nat → List Byte → List Byte → BitVec 912

/-- The Ed448 public key of the fused secret: 57 bytes (R549, R554). -/
opaque ed448Public : Nat → BitVec 456

/-- The secret of the n-th ephemeral X448 key pair the SEC engine generates (R548): a free value. -/
opaque ephemeral : Nat → BitVec 448

/-- The X448 public key of a secret (R548). -/
opaque x448Public : BitVec 448 → BitVec 448

/-- The X448 shared secret of a secret and a public key (R548). -/
opaque x448Shared : BitVec 448 → BitVec 448 → BitVec 448

/-- AES-256-GCM decryption (NIST SP 800-38D): key, nonce, additional data, ciphertext, tag; none where the tag fails (R391,
R548). -/
opaque gcmOpen : Nat → List Byte → List Byte → List Byte → List Byte → Option (List Byte)

/-- AES-256-GCM's plaintext without the tag's verdict, which the device decrypts as it reads (R391). -/
opaque gcmPlain : Nat → List Byte → List Byte → List Byte → List Byte

/-- The state a firmware leaves in its checkpoint or answers that the spec leaves to it (R539): a free value. -/
opaque firmwareByte : Nat → Byte

/-- The n-th byte of memory that becomes undefined when a stack enters or leaves FAILED (R637): a free value, by draw and
address. -/
opaque undefinedByte : Nat → Nat → Byte

/-- The ECC words of a stack whose contents become undefined that read as uncorrectable (R464, R637), by draw: a free value. -/
opaque undefinedWords : Nat → List Nat

/-- Whether a PORST_N pulse between 100 ns and 1 µs resets the device (R624): a free value, by draw. -/
opaque shortPulseResets : Nat → Bool

/-- A value the spec leaves open where no operand decides it: a free value, by draw. -/
opaque freeWord : Nat → Word

/-- The first-invalid index a DISPATCH with NaN scores reports (R78, R214), by its block and its scores: a free value. -/
opaque dispatchFirst : List Word → List Byte → Word

/-- Which of the entries that the caches may hold a walk uses, 0 for the one in memory (R268), by draw, time and entry address: a free
value. -/
opaque cachedEntry : Nat → Nat → Nat → Nat

/-- Receive credits of a network or DAT virtual channel on a bridge lane beyond those of one packet (R423), by its class. -/
opaque laneCredits : Nat → Nat

/-- The hitches whose RNL_STRING.PARENT names a hitch (R511): set on their leads, and a free value here. -/
opaque stringChildren : Nat → List Nat

/-- How the bytes of an Ethernet frame without FCS read (R293, R296, R501): the headers of IEEE 802.3, 802.1Q, IP, UDP and RoCE v2, which
the spec names by reference. -/
opaque frameOf : List Byte → EthFrame

end Sys2Proof.Config
end

