-- ==== Sys2Proof/Machine/Errors.lean ====
section
/-!
DEFINITION. The error codes of R320, under the names the spec gives them.
-/

namespace Sys2Proof.Machine

def OK : Nat := 0x0000
def OK_NOOP : Nat := 0x0001
def OK_RESUMED : Nat := 0x0002
def OK_INACTIVE : Nat := 0x0003
def E_FIELD_RESERVED : Nat := 0x1001
def E_FIELD_RANGE : Nat := 0x1002
def E_CORRAL_ACCESS : Nat := 0x1003
def E_OPERAND_ALIGN : Nat := 0x1004
def E_ACC_FORMAT : Nat := 0x1005
def E_MODE_FORMAT : Nat := 0x1006
def E_SHAPE_DENIED : Nat := 0x1007
def E_GANG_LEN : Nat := 0x1008
def E_SHAPE_FIT : Nat := 0x1009
def E_GANG_UNAVAILABLE : Nat := 0x100A
def E_TAG_RANGE : Nat := 0x100B
def E_ACC_CHUNK : Nat := 0x100C
def E_ACC_RESIDENT : Nat := 0x100D
def E_ACC_LEASE_WAIT : Nat := 0x100E
def E_DRAIN_PRODUCER : Nat := 0x100F
def E_DRAIN_STALE : Nat := 0x1010
def E_DRAIN_ORDER : Nat := 0x1011
def E_SPARSE_FORM : Nat := 0x1012
def E_VEC_ILLEGAL : Nat := 0x1013
def E_VEC_PROGRAM : Nat := 0x1014
def E_VEC_LIMIT : Nat := 0x1015
def E_STALL_UNAVAILABLE : Nat := 0x1016
def E_STREAM_CONTEXTS : Nat := 0x1017
def E_TANDEM_BIND : Nat := 0x1018
def E_TETHER_TIMEOUT : Nat := 0x1019
def E_WALK_STATE : Nat := 0x101A
def E_HALT_INVALID : Nat := 0x2001
def E_ADDR_UNMAPPED : Nat := 0x3001
def E_MEM_OUT_OF_CORRAL : Nat := 0x3002
def E_XLATE_FAULT : Nat := 0x3003
def E_CTX_IMAGE : Nat := 0x3004
def E_SPARSE_DATA : Nat := 0x3005
def E_GATHER_INDEX : Nat := 0x3006
def E_VEC_WINDOW : Nat := 0x3007
def E_VEC_PC : Nat := 0x3008
def E_STREAM_MISMATCH : Nat := 0x3009
def E_HBM_UNCORR : Nat := 0x300A
def E_HOST_ACCESS : Nat := 0x300B
def E_NET_TIMEOUT : Nat := 0x4001
def E_REDUCE_MISMATCH : Nat := 0x4002
def E_VEC_DISPATCH : Nat := 0x4003
def E_REMOTE_CORRAL : Nat := 0x4004
def E_MCAST_LAG : Nat := 0x4005
def E_STREAM_STALL : Nat := 0x4006
def E_LINK_DOWN : Nat := 0x5001
def E_LINK_UNREACHABLE : Nat := 0x5002
def E_LINK_RETRY : Nat := 0x5003
def E_DEVICE_REMOVED : Nat := 0x5004
def E_CFG_EPOCH : Nat := 0x6001
def E_CFG_OWNERSHIP : Nat := 0x6002
def E_CFG_REGION : Nat := 0x6003
def E_CFG_QUARANTINE : Nat := 0x6004
def E_CFG_ROLE : Nat := 0x6005
def E_CFG_IDCODE : Nat := 0x6006
def E_CFG_DIGEST : Nat := 0x6007
def E_CFG_SIGNATURE : Nat := 0x6008
def E_CFG_TRUNCATED : Nat := 0x6009
def E_DISCARDED : Nat := 0x7001
def E_STL_PARITY : Nat := 0x7002
def E_STL_CHAIN : Nat := 0x7003
def E_ACS_ECC : Nat := 0x7004
def E_VEC_ECC : Nat := 0x7005
def E_GROOM_FAULT : Nat := 0x7006

/-- The four codes that report success (R320). -/
def isOkCode (c : Nat) : Bool := decide (c ≤ 3)

end Sys2Proof.Machine
end

