-- ==== Sys2Proof/Machine/Numerics.lean ====
section
/-!
DEFINITION. Number formats and numerics (chapter 02): the sixteen formats bit for bit, exact values as dyadic numbers, the
single rounding of R60 and R65, conversions (R66 to R70), NaN cause codes (R71 to R74) and MX scaling (R54, R55).
-/

namespace Sys2Proof.Machine

/-- The sixteen format codes of R47, in code order. -/
inductive Fmt where
  | fp64 | fp32 | tf32 | bf16 | fp16 | e4m3 | e5m2 | e3m2 | e2m3 | e2m1 | e8m0 | int32 | int16 | int8 | int4 | b1
  deriving DecidableEq, Repr

/-- The format of a 4-bit code (R47). -/
def fmtOfCode (c : Nat) : Fmt :=
  match c % 16 with
  | 0 => .fp64 | 1 => .fp32 | 2 => .tf32 | 3 => .bf16 | 4 => .fp16 | 5 => .e4m3 | 6 => .e5m2 | 7 => .e3m2
  | 8 => .e2m3 | 9 => .e2m1 | 10 => .e8m0 | 11 => .int32 | 12 => .int16 | 13 => .int8 | 14 => .int4 | _ => .b1

/-- The 4-bit code of a format (R47). -/
def fmtCode (f : Fmt) : Nat :=
  match f with
  | .fp64 => 0 | .fp32 => 1 | .tf32 => 2 | .bf16 => 3 | .fp16 => 4 | .e4m3 => 5 | .e5m2 => 6 | .e3m2 => 7
  | .e2m3 => 8 | .e2m1 => 9 | .e8m0 => 10 | .int32 => 11 | .int16 => 12 | .int8 => 13 | .int4 => 14 | .b1 => 15

/-- Bits one element takes in memory (R52: TF32 lies in a 32-bit container). -/
def fmtBits (f : Fmt) : Nat :=
  match f with
  | .fp64 => 64 | .fp32 | .tf32 | .int32 => 32 | .bf16 | .fp16 | .int16 => 16
  | .e4m3 | .e5m2 | .e8m0 | .int8 => 8 | .e3m2 | .e2m3 => 6 | .e2m1 | .int4 => 4 | .b1 => 1

/-- The integer formats 0xB to 0xE. -/
def fmtIsInt (f : Fmt) : Bool :=
  match f with | .int32 | .int16 | .int8 | .int4 => true | _ => false

/-- A format byte (R45). -/
structure FmtByte where
  fmt : Fmt
  sgn : Bool
  mx : Bool
  deriving DecidableEq, Repr

/-- Read a format byte; none where it is a reserved encoding (R45, R46). -/
def fmtByteOf (b : Nat) : Option FmtByte :=
  let f := fmtOfCode b
  let sg := bitAt b 4
  let mx := bitAt b 5
  if bitsOf b 7 6 ≠ 0 then none
  else if sg && !fmtIsInt f then none
  else if mx && !((5 ≤ fmtCode f && fmtCode f ≤ 9) || (fmtCode f == 13 && sg)) then none
  else some { fmt := f, sgn := sg, mx := mx }

/-- The fields of a floating-point format (R48): exponent and fraction widths, bias, the place of the fraction's low bit in
the container, and whether the format has infinities. -/
structure FpShape where
  expBits : Nat
  fracBits : Nat
  bias : Nat
  fracLo : Nat
  inf : Bool
  deriving DecidableEq, Repr

/-- The shape of a floating-point format (R48); integer formats have none. -/
def fpShape (f : Fmt) : Option FpShape :=
  match f with
  | .fp64 => some ⟨11, 52, 1023, 0, true⟩
  | .fp32 => some ⟨8, 23, 127, 0, true⟩
  | .tf32 => some ⟨8, 10, 127, 13, true⟩
  | .bf16 => some ⟨8, 7, 127, 0, true⟩
  | .fp16 => some ⟨5, 10, 15, 0, true⟩
  | .e4m3 => some ⟨4, 3, 7, 0, false⟩
  | .e5m2 => some ⟨5, 2, 15, 0, true⟩
  | .e3m2 => some ⟨3, 2, 3, 0, false⟩
  | .e2m3 => some ⟨2, 3, 1, 0, false⟩
  | .e2m1 => some ⟨2, 1, 1, 0, false⟩
  | _ => none

/-- A value: a NaN with its cause code (R72), an infinity, or the finite value (−1)^neg × m × 2^e. -/
inductive Num where
  | nan (cause : Nat)
  | inf (neg : Bool)
  | fin (neg : Bool) (m : Nat) (e : Int)
  deriving DecidableEq, Repr

/-- The exact value of a pattern, NaN payloads kept out: every NaN takes cause `c`. -/
def numOfFp (sh : FpShape) (c : Nat) (bits : Nat) : Num :=
  let s := bitAt bits (sh.fracLo + sh.fracBits + sh.expBits)
  let ex := bitsOf bits (sh.fracLo + sh.fracBits + sh.expBits - 1) (sh.fracLo + sh.fracBits)
  let fr := bitsOf bits (sh.fracLo + sh.fracBits - 1) sh.fracLo
  let ones := 2 ^ sh.expBits - 1
  if sh.inf && ex == ones then (if fr == 0 then .inf s else .nan c)
  else if !sh.inf && sh.expBits == 4 && ex == ones && fr == 7 then .nan c
  else if ex == 0 then .fin s fr (1 - (sh.bias : Int) - sh.fracBits)
  else .fin s (2 ^ sh.fracBits + fr) ((ex : Int) - sh.bias - sh.fracBits)

/-- An integer as an exact value. -/
def numOfInt (v : Int) : Num := .fin (decide (v < 0)) v.natAbs 0

/-- An operand's value (R47 to R51, R73): a NaN operand carries cause 0x03, an E8M0 NaN cause 0x06. -/
def numOperand (f : Fmt) (sgn : Bool) (bits : Nat) : Num :=
  match fpShape f with
  | some sh => numOfFp sh 3 bits
  | none =>
    match f with
    | .e8m0 => if bits % 256 == 255 then .nan 6 else .fin false 1 ((bits % 256 : Nat) - (127 : Int))
    | .b1 => .fin false (bits % 2) 0
    | _ => if sgn then numOfInt (signedOf (fmtBits f) bits) else .fin false (bits % 2 ^ fmtBits f) 0

/-- The canonical NaN of a format with a cause code (R71); formats without a NaN give their R67 substitute. -/
def nanBits (f : Fmt) (c : Nat) : Nat :=
  match f with
  | .fp64 => 0x7FF8000000000000 + c % 256
  | .fp32 => 0x7FC00000 + c % 256
  | .tf32 => 0x7FC00000 + c % 256 * 2 ^ 13
  | .bf16 => 0x7FC0 + c % 64
  | .fp16 => 0x7E00 + c % 256
  | .e5m2 => 0x7E
  | .e4m3 => 0x7F
  | .e8m0 => 0xFF
  | .e3m2 => 0x1F
  | .e2m3 => 0x1F
  | .e2m1 => 0x7
  | _ => 0

/-- A cause code that R72 lists. -/
def causeKnown (c : Nat) : Bool := decide (1 ≤ c ∧ c ≤ 8)

/-- The cause codes that are invalid operations (R72). -/
def causeInvalid (c : Nat) : Bool := c == 1 || c == 2 || c == 4 || c == 5 || c == 7 || c == 8

/-- The value of an accumulator or trough entry (R73): a canonical NaN keeps its cause, any other NaN is cause 0x03. -/
def numEntry (f : Fmt) (sgn : Bool) (bits : Nat) : Num :=
  match numOperand f sgn bits with
  | .nan _ =>
    let c := match f with | .bf16 => bits % 64 | _ => bits % 256
    if causeKnown c && bits == nanBits f c then .nan c else .nan 3
  | v => v

/-- The bit length of a number: 0 for 0. -/
def bitLen (m : Nat) : Nat := if m = 0 then 0 else Nat.log2 m + 1

/-- The rounding codes of R65; SR carries the element's 32-bit random value (R69). -/
inductive Rounding where
  | rne | rtz | raz
  | sr (r : Nat)
  deriving DecidableEq, Repr

/-- `m × 2^e` rounded to a multiple of `2^q`: the integer multiple (R65, R69). -/
def roundAt (rd : Rounding) (m : Nat) (e q : Int) : Nat :=
  if q ≤ e then m * 2 ^ (e - q).toNat
  else
    let s := (q - e).toNat
    let k := m / 2 ^ s
    let rem := m % 2 ^ s
    let up : Bool :=
      match rd with
      | .rne => decide (2 * rem > 2 ^ s) || (2 * rem == 2 ^ s && k % 2 == 1)
      | .rtz => false
      | .raz => rem != 0
      | .sr r => decide (rem * 2 ^ 32 / 2 ^ s + r ≥ 2 ^ 32)
    if up then k + 1 else k

/-- Compare two non-negative dyadics: is `a × 2^x < b × 2^y`? -/
def dyLt (a : Nat) (x : Int) (b : Nat) (y : Int) : Bool :=
  let q := min x y
  decide (a * 2 ^ (x - q).toNat < b * 2 ^ (y - q).toNat)

/-- The largest finite magnitude of a floating-point format (R48). -/
def fpMax (sh : FpShape) : Nat × Int :=
  if sh.inf then (2 ^ (sh.fracBits + 1) - 1, (2 ^ sh.expBits - 2 : Nat) - (sh.bias : Int) - sh.fracBits)
  else if sh.expBits == 4 then (14, 5)
  else (2 ^ (sh.fracBits + 1) - 1, (2 ^ sh.expBits - 1 : Nat) - (sh.bias : Int) - sh.fracBits)

/-- The pattern of a representable finite magnitude with a sign: `m × 2^e` must have at most the format's precision. -/
def fpPack (sh : FpShape) (neg : Bool) (m : Nat) (e : Int) : Nat :=
  let sbit := b2n neg * 2 ^ (sh.fracLo + sh.fracBits + sh.expBits)
  if m = 0 then sbit
  else
    let lo : Int := 1 - (sh.bias : Int) - sh.fracBits
    let q := max (e + bitLen m - (sh.fracBits + 1)) lo
    let k := roundAt .rtz m e q
    let body := if k < 2 ^ sh.fracBits then k else ((q - lo).toNat + 1) * 2 ^ sh.fracBits + (k - 2 ^ sh.fracBits)
    sbit + body * 2 ^ sh.fracLo

/-- The result of narrowing: the pattern, and whether the case counts an overflow or an invalid conversion. -/
structure Narrowed where
  bits : Nat
  ovf : Bool
  inv : Bool
  deriving DecidableEq, Repr

/-- A finite value narrowed to a floating-point format: rounded once, then R66. -/
def narrowFp (f : Fmt) (sh : FpShape) (rd : Rounding) (neg : Bool) (m : Nat) (e : Int) : Narrowed :=
  let lo : Int := 1 - (sh.bias : Int) - sh.fracBits
  let q := max (e + bitLen m - (sh.fracBits + 1)) lo
  let k := roundAt rd m e q
  let mx := fpMax sh
  if dyLt mx.1 mx.2 k q then
    let big := fpPack sh neg mx.1 mx.2
    let infp := b2n neg * 2 ^ (sh.fracLo + sh.fracBits + sh.expBits)
      + (2 ^ sh.expBits - 1) * 2 ^ (sh.fracLo + sh.fracBits)
    { bits := if sh.inf && rd != .rtz then infp else (let _ := f; big), ovf := true, inv := false }
  else { bits := fpPack sh neg k q, ovf := false, inv := false }

/-- Saturate an integer to a range and say whether that changed it (R66, R68). -/
def satInt (n : Nat) (sgn : Bool) (v : Int) : Narrowed :=
  let lo : Int := if sgn then -(2 ^ (n - 1) : Nat) else 0
  let hi : Int := if sgn then (2 ^ (n - 1) : Nat) - 1 else (2 ^ n : Nat) - 1
  if v < lo then { bits := wrapInt n lo, ovf := true, inv := false }
  else if v > hi then { bits := wrapInt n hi, ovf := true, inv := false }
  else { bits := wrapInt n v, ovf := false, inv := false }

/-- The infinity pattern of a format with infinities. -/
def infBits (sh : FpShape) (neg : Bool) : Nat :=
  b2n neg * 2 ^ (sh.fracLo + sh.fracBits + sh.expBits) + (2 ^ sh.expBits - 1) * 2 ^ (sh.fracLo + sh.fracBits)

/-- Conversion of a value to a format (R65 to R68). -/
def convert (f : Fmt) (sgn : Bool) (rd : Rounding) (v : Num) : Narrowed :=
  match fpShape f with
  | some sh =>
    match v with
    | .nan c =>
      if sh.inf || f = .e4m3 then { bits := nanBits f c, ovf := false, inv := false }
      else { bits := nanBits f c, ovf := false, inv := true }
    | .inf neg =>
      if sh.inf then { bits := infBits sh neg, ovf := false, inv := false }
      else { bits := fpPack sh neg (fpMax sh).1 (fpMax sh).2, ovf := true, inv := false }
    | .fin neg m e => narrowFp f sh rd neg m e
  | none =>
    match f with
    | .e8m0 =>
      match v with
      | .fin _ m e =>
        if m = 0 then { bits := 0, ovf := false, inv := false }
        else { bits := (min 254 (max 0 (e + Nat.log2 m + 127))).toNat, ovf := false, inv := false }
      | _ => { bits := 255, ovf := false, inv := false }
    | _ =>
      match v with
      | .nan _ => { bits := 0, ovf := false, inv := true }
      | .inf neg =>
        let r := satInt (fmtBits f) sgn (if neg then -(2 ^ 200 : Nat) else (2 ^ 200 : Nat))
        { r with ovf := true }
      | .fin neg m e =>
        let k : Int := roundAt rd m e 0
        satInt (fmtBits f) sgn (if neg then -k else k)

/-- The exact sum of two finite values; an exact zero is −0 only when both are negative. -/
def exactAdd (na : Bool) (ma : Nat) (ea : Int) (nb : Bool) (mb : Nat) (eb : Int) : Num :=
  let q := min ea eb
  let a : Int := ma * 2 ^ (ea - q).toNat
  let b : Int := mb * 2 ^ (eb - q).toNat
  let s := (if na then -a else a) + (if nb then -b else b)
  if s = 0 then .fin (na && nb) 0 q else .fin (decide (s < 0)) s.natAbs q

/-- Negation (NaN unchanged). -/
def numNeg : Num → Num
  | .nan c => .nan c
  | .inf n => .inf (!n)
  | .fin n m e => .fin (!n) m e

/-- Magnitude (NaN unchanged). -/
def numAbs : Num → Num
  | .nan c => .nan c
  | .inf _ => .inf false
  | .fin _ m e => .fin false m e

/-- Exact addition with the NaN rules of R72 and R73; `c` is the cause of opposite infinities. -/
def numAdd (c : Nat) (a b : Num) : Num :=
  match a, b with
  | .nan x, .nan y => .nan (min x y)
  | .nan x, _ => .nan x
  | _, .nan y => .nan y
  | .inf x, .inf y => if x = y then .inf x else .nan c
  | .inf x, .fin _ _ _ => .inf x
  | .fin _ _ _, .inf y => .inf y
  | .fin na ma ea, .fin nb mb eb => exactAdd na ma ea nb mb eb

/-- Exact multiplication; zero times infinity is cause 0x01 (R72). -/
def numMul (a b : Num) : Num :=
  match a, b with
  | .nan x, .nan y => .nan (min x y)
  | .nan x, _ => .nan x
  | _, .nan y => .nan y
  | .inf x, .inf y => .inf (x != y)
  | .inf x, .fin n m _ => if m = 0 then .nan 1 else .inf (x != n)
  | .fin n m _, .inf y => if m = 0 then .nan 1 else .inf (n != y)
  | .fin na ma ea, .fin nb mb eb => .fin (na != nb) (ma * mb) (ea + eb)

/-- Numeric order of non-NaN values with −0 below +0 (R61). -/
def numLtTotal (a b : Num) : Bool :=
  match a, b with
  | .inf na, .inf nb => na && !nb
  | .inf na, .fin _ _ _ => na
  | .fin _ _ _, .inf nb => !nb
  | .fin na ma ea, .fin nb mb eb =>
    match na, nb with
    | true, false => true
    | false, true => false
    | false, false => dyLt ma ea mb eb
    | true, true => dyLt mb eb ma ea
  | _, _ => false

/-- Numeric order as comparisons see it: the two zeros are equal, and nothing compares with a NaN (R61). -/
def numLt (a b : Num) : Bool :=
  match a, b with
  | .fin _ 0 _, .fin _ 0 _ => false
  | _, _ => numLtTotal a b

/-- A NaN? -/
def numIsNan : Num → Bool
  | .nan _ => true
  | _ => false

/-- Numeric equality: false with a NaN, zeros equal (R61). -/
def numEq (a b : Num) : Bool := !numIsNan a && !numIsNan b && !numLt a b && !numLt b a

/-- A finite value? -/
def numIsFin : Num → Bool
  | .fin _ _ _ => true
  | _ => false

/-- The integer value of an exact integer (0 for anything else). -/
def numInt : Num → Int
  | .fin n m e =>
    let k : Int := roundAt .rtz m e 0
    if n then -k else k
  | _ => 0

/-- One rounded arithmetic result: its pattern, the cause of an invalid operation that made it (R72), whether finite
operands gave an infinity (R77), and whether it was flushed (R62). -/
structure ArithRes where
  bits : Nat
  inv : Option Nat
  ovf : Bool
  flush : Bool
  deriving DecidableEq, Repr

/-- Round an exact result to a floating-point format with RNE (R60, R65). `newNan` says whether the NaN was made by this
operation. `flushes` asks for the FP32 flush of R62. -/
def roundFp (f : Fmt) (flushes newNan finOps : Bool) (v : Num) : ArithRes :=
  match fpShape f with
  | none => { bits := 0, inv := none, ovf := false, flush := false }
  | some sh =>
    match v with
    | .nan c => { bits := nanBits f c, inv := if newNan && causeInvalid c then some c else none, ovf := false, flush := false }
    | .inf n => { bits := infBits sh n, inv := none, ovf := false, flush := false }
    | .fin n m e =>
      let r := narrowFp f sh .rne n m e
      let sub := r.bits % 2 ^ (sh.fracLo + sh.fracBits + sh.expBits) < 2 ^ (sh.fracLo + sh.fracBits)
        && r.bits % 2 ^ (sh.fracLo + sh.fracBits + sh.expBits) != 0
      if flushes && sub then
        { bits := b2n n * 2 ^ (sh.fracLo + sh.fracBits + sh.expBits), inv := none, ovf := false, flush := true }
      else { bits := r.bits, inv := none, ovf := r.ovf && finOps, flush := false }

/-- The 32-bit random value of element `e` of a convert (R69). -/
def srRandom (seed e : Nat) : Nat :=
  let m := 2 ^ 64
  let z0 := (seed + (e + 1) * 0x9E3779B97F4A7C15) % m
  let z1 := (Nat.xor z0 (z0 / 2 ^ 30)) * 0xBF58476D1CE4E5B9 % m
  let z2 := (Nat.xor z1 (z1 / 2 ^ 27)) * 0x94D049BB133111EB % m
  let z3 := Nat.xor z2 (z2 / 2 ^ 31)
  z3 / 2 ^ 32

/-- The rounding of a 2-bit code for element `e` under a seed (R65, R69, R70). -/
def roundingOf (code seed e : Nat) : Rounding :=
  match code % 4 with
  | 0 => .rne
  | 1 => .rtz
  | 2 => .raz
  | _ => .sr (srRandom seed e)

/-- The identity of a column reduction (R59): mode 0 MULADD, 1 ADDMIN, 2 ADDMAX, 3 SUBABS, 4 SUBSQ, 5 XORPOP, 6 CMPCNT. -/
def reductionIdentity (mode : Nat) (acc : Fmt) (sgn : Bool) : Nat :=
  match acc with
  | .fp64 =>
    if mode = 1 then 0x7FF0000000000000 else if mode = 2 then 0xFFF0000000000000
    else if mode = 0 ∨ mode = 3 ∨ mode = 4 then 0x8000000000000000 else 0
  | .fp32 =>
    if mode = 1 then 0x7F800000 else if mode = 2 then 0xFF800000
    else if mode = 0 ∨ mode = 3 ∨ mode = 4 then 0x80000000 else 0
  | _ =>
    if mode = 1 then (if sgn then 0x7FFFFFFF else 0xFFFFFFFF)
    else if mode = 2 then (if sgn then 0x80000000 else 0)
    else 0

/-- The value of an MX element (R53, R54): an MXINT8 element is int8 × 2^−6. -/
def mxElement (f : Fmt) (bits : Nat) : Num :=
  match f with
  | .int8 =>
    match numOperand .int8 true bits with
    | .fin n m e => .fin n m (e - 6)
    | v => v
  | _ => numOperand f false bits

/-- A value scaled by an E8M0 field (R54): a scale of 0xFF makes a NaN of cause 0x06. DESIGN CHOICE (log 117): beside a NaN element the smaller of
the two codes stands, as R73 has it for two NaNs, where R54 names 0x06 for every term of such a block. -/
def mxScale (scale : Nat) (v : Num) : Num :=
  if scale % 256 = 255 then
    match v with
    | .nan c => .nan (min c 6)
    | _ => .nan 6
  else
    match v with
    | .fin n m e => .fin n m (e + (scale % 256 : Nat) - 127)
    | v => v

/-- emax of an MX element format (R55). -/
def mxEmax (f : Fmt) : Int :=
  match f with | .e4m3 => 8 | .e5m2 => 15 | .e3m2 => 4 | .e2m3 => 2 | .e2m1 => 2 | _ => 0

/-- A converted MX block: its scale, its element patterns and its overflow count (R55). -/
structure MxBlock where
  scale : Nat
  elems : List Nat
  ovf : Nat
  deriving DecidableEq, Repr

/-- ⌊log₂ |v|⌋ of a non-zero finite value, or none. -/
def numLog2 : Num → Option Int
  | .fin _ m e => if m = 0 then none else some (e + Nat.log2 m)
  | _ => none

/-- One element of R55 step 4: `v × 2^−X` rounded and saturated to the largest finite magnitude. DESIGN CHOICE (log 116): for MXINT8, for which
the spec gives no such figure, 127 × 2^−6 for both signs, so that a value that rounds to −128 × 2^−6 saturates and counts. -/
def mxElemOf (f : Fmt) (rd : Rounding) (x : Int) (v : Num) : Narrowed :=
  match v with
  | .fin n m e =>
    match fpShape f with
    | some sh =>
      let lo : Int := 1 - (sh.bias : Int) - sh.fracBits
      let e' := e - x
      let q := max (e' + bitLen m - (sh.fracBits + 1)) lo
      let k := roundAt rd m e' q
      let mx := fpMax sh
      if dyLt mx.1 mx.2 k q then { bits := fpPack sh n mx.1 mx.2, ovf := true, inv := false }
      else { bits := fpPack sh n k q, ovf := false, inv := false }
    | none =>
      let k : Int := roundAt rd m (e - x + 6) 0
      let r := if k > 127 then { bits := wrapInt 8 (if n then -127 else 127), ovf := true, inv := false }
        else ({ bits := wrapInt 8 (if n then -k else k), ovf := false, inv := false } : Narrowed)
      r
  | _ => { bits := 0, ovf := false, inv := false }

/-- Conversion of a block of values to an MX format (R55). The roundings are those of the elements in order. -/
def mxConvert (f : Fmt) (vs : List (Rounding × Num)) : MxBlock :=
  if vs.any (fun p => numIsNan p.2) then { scale := 255, elems := vs.map (fun _ => 0), ovf := 0 }
  else if vs.any (fun p => !numIsFin p.2) then { scale := 255, elems := vs.map (fun _ => 0), ovf := 1 }
  else
    match (vs.filterMap (fun p => numLog2 p.2)).foldl (fun (a : Option Int) x => some (match a with | none => x | some y => max x y)) none with
    | none => { scale := 127, elems := vs.map (fun p => (convert f true .rne p.2).bits), ovf := 0 }
    | some top =>
      let x := min 127 (max (-127) (top - mxEmax f))
      let rs := vs.map (fun p => mxElemOf f p.1 x p.2)
      { scale := (x + 127).toNat, elems := rs.map (·.bits), ovf := (rs.filter (·.ovf)).length }

/-- Division of finite values: enough quotient bits and a sticky bit for one correct rounding. -/
def exactQuot (na : Bool) (ma : Nat) (ea : Int) (nb : Bool) (mb : Nat) (eb : Int) : Num :=
  let s := 140 + bitLen mb
  let q := ma * 2 ^ s / mb
  let r := ma * 2 ^ s % mb
  .fin (na != nb) (2 * q + b2n (r != 0)) (ea - eb - s - 1)

/-- Integer square root, one result bit per round of fuel. -/
def isqrtLoop : Nat → Nat → Nat → Nat
  | 0, _, r => r
  | k + 1, v, r =>
    let c := r + 2 ^ k
    isqrtLoop k v (if c * c ≤ v then c else r)

/-- ⌊√v⌋. -/
def isqrt (v : Nat) : Nat := isqrtLoop (bitLen v / 2 + 1) v 0

/-- The square root of a non-negative finite value with a sticky bit for one correct rounding. -/
def exactSqrt (m : Nat) (e : Int) : Num :=
  if m = 0 then .fin false 0 0
  else
    let e2 : Int := e - 280
    let e3 := if e2 % 2 = 0 then e2 else e2 - 1
    let v := m * 2 ^ (e - e3).toNat
    let r := isqrt v
    .fin false (2 * r + b2n (r * r != v)) (e3 / 2 - 1)

end Sys2Proof.Machine
end

