-- ==== Sys2Proof/Machine/StAcs.lean ====
section
/-!
DEFINITION. The accumulator stores of all stalls (R123 to R127) as plain data.
-/

namespace Sys2Proof.Machine

/-- Metadata of a segment (R127). -/
structure SegSt where
  valid : Bool
  wide : Bool
  fmt : Nat
  sgn : Bool
  phase : Nat
  prodQueue : Nat
  prodSeq : Nat
  deriving DecidableEq, Repr

/-- A segment after power-on reset: not VALID. -/
def SegSt.idle : SegSt :=
  { valid := false, wide := false, fmt := 0, sgn := false, phase := 0, prodQueue := 0, prodSeq := 0 }

/-- One position: 32 value bits, the invalid-origin and overflow flags, and the 16-bit tag (R57, R123). -/
structure PosSt where
  bits : Nat
  inv : Bool
  ovf : Bool
  tag : Nat
  deriving DecidableEq, Repr

/-- A position after power-on reset: value 0, both flags clear, tag 0xFFFF (R127, R637). -/
def PosSt.idle : PosSt := { bits := 0, inv := false, ovf := false, tag := 0xFFFF }

/-- The accumulator stores: segments keyed stall × 64 + segment, positions keyed stall × 16,384 + position. -/
structure AcsSt where
  segs : SMap SegSt
  pos : SMap PosSt
  deriving DecidableEq, Repr

/-- Every store after power-on reset. -/
def AcsSt.reset : AcsSt := { segs := [], pos := [] }

end Sys2Proof.Machine
end

