-- ==== Sys2Proof/Machine/Accum.lean ====
section
/-!
DEFINITION. Operations over the accumulator store (chapter 04): entries of both widths (R123), initialisation (R130), the
column reduction on entries with flags and tags (R59 to R61, R104, R141), trough entries and spills (R136 to R139), and save
images with their CRC-32 (R157 to R160).
-/

namespace Sys2Proof.Machine

/-- The metadata of a segment. -/
def acsSeg (a : AcsSt) (stall seg : Nat) : SegSt := smGet (fun _ => SegSt.idle) a.segs (stall * 64 + seg)

/-- Replace the metadata of a segment. -/
def acsSetSeg (a : AcsSt) (stall seg : Nat) (v : SegSt) : AcsSt :=
  { a with segs := smSet (fun _ => SegSt.idle) a.segs (stall * 64 + seg) v }

/-- A position of a stall's store. -/
def acsPos (a : AcsSt) (stall p : Nat) : PosSt := smGet (fun _ => PosSt.idle) a.pos (stall * 16384 + p)

/-- Replace a position. -/
def acsSetPos (a : AcsSt) (stall p : Nat) (v : PosSt) : AcsSt :=
  { a with pos := smSet (fun _ => PosSt.idle) a.pos (stall * 16384 + p) v }

/-- A segment becomes not VALID (R127, R150). -/
def acsInvalidate (a : AcsSt) (stall seg : Nat) : AcsSt :=
  acsSetSeg a stall seg { acsSeg a stall seg with valid := false }

/-- An entry with its flags and tag, at full width (R57). -/
structure Entry where
  bits : Nat
  inv : Bool
  ovf : Bool
  tag : Nat
  deriving DecidableEq, Repr

/-- The entry at position `p`: one position, or the pair `p`, `p + 1` for an FP64 entry (R123). -/
def acsEntry (a : AcsSt) (stall p : Nat) (wide : Bool) : Entry :=
  let x := acsPos a stall p
  if wide then { bits := x.bits + (acsPos a stall (p + 1)).bits * 2 ^ 32, inv := x.inv, ovf := x.ovf, tag := x.tag }
  else { bits := x.bits, inv := x.inv, ovf := x.ovf, tag := x.tag }

/-- Write an entry (R123). The high half of an FP64 entry keeps its own tag and holds no flags. -/
def acsSetEntry (a : AcsSt) (stall p : Nat) (wide : Bool) (e : Entry) : AcsSt :=
  let lo : PosSt := { bits := e.bits % 2 ^ 32, inv := e.inv, ovf := e.ovf, tag := e.tag }
  if wide then
    let b := acsSetPos a stall p lo
    acsSetPos b stall (p + 1) { acsPos b stall (p + 1) with bits := e.bits / 2 ^ 32 % 2 ^ 32, inv := false, ovf := false }
  else acsSetPos a stall p lo

/-- Do `f` for 0, 1, …, n − 1 in order. -/
def iterate {α : Type} (f : Nat → α → α) : Nat → α → α
  | 0, x => x
  | n + 1, x => f n (iterate f n x)

/-- Initialise `n` positions from `p0` to the identity, flags clear, the tag 0xFFFF when `tags` (R130). The identity of an
FP64 entry is laid over its two positions. -/
def acsInit (a : AcsSt) (stall p0 n : Nat) (wide tags : Bool) (ident : Nat) : AcsSt :=
  iterate (fun i b =>
    let p := p0 + i
    let half := if wide then (if p % 2 = 0 then ident % 2 ^ 32 else ident / 2 ^ 32) else ident % 2 ^ 32
    let old := acsPos b stall p
    acsSetPos b stall p { bits := half, inv := false, ovf := false, tag := if tags then 0xFFFF else old.tag }) n a

/-- The result of combining two entries: the entry, and the counts the operation adds (R77): the cause of an invalid
operation, one overflow, one flush. -/
structure Combined where
  e : Entry
  cause : Option Nat
  ovf : Bool
  flush : Bool
  deriving DecidableEq, Repr

/-- The array modes of R98 by code: 0 MULADD, 1 ADDMIN, 2 ADDMAX, 3 SUBABS, 4 SUBSQ, 5 XORPOP, 6 CMPCNT. -/
def modeIsMin (m : Nat) : Bool := m == 1

/-- ADDMAX. -/
def modeIsMax (m : Nat) : Bool := m == 2

/-- An addition of two entries in a floating-point format: one rounding, NaN causes kept, opposite infinities give cause
0x02, flags ORed (R60, R73, R76). -/
def addFp (f : Fmt) (flushes : Bool) (x y : Entry) : Combined :=
  let a := numEntry f false x.bits
  let b := numEntry f false y.bits
  let s := numAdd 2 a b
  let r := roundFp f flushes (!numIsNan a && !numIsNan b) (numIsFin a && numIsFin b) s
  { e := { bits := r.bits, inv := x.inv || y.inv || r.inv.isSome, ovf := x.ovf || y.ovf || r.ovf, tag := 0xFFFF },
    cause := r.inv, ovf := r.ovf, flush := r.flush }

/-- An addition modulo 2^n that records a wrap in the given signedness (R58, R137). -/
def addInt (n : Nat) (sgn : Bool) (x y : Entry) : Combined :=
  let a : Int := if sgn then signedOf n x.bits else (x.bits % 2 ^ n : Nat)
  let b : Int := if sgn then signedOf n y.bits else (y.bits % 2 ^ n : Nat)
  let s := a + b
  let lo : Int := if sgn then -(2 ^ (n - 1) : Nat) else 0
  let hi : Int := if sgn then (2 ^ (n - 1) : Nat) else (2 ^ n : Nat)
  let wrapped := decide (s < lo) || decide (hi ≤ s)
  { e := { bits := wrapInt n s, inv := x.inv || y.inv, ovf := x.ovf || y.ovf || wrapped, tag := 0xFFFF },
    cause := none, ovf := wrapped, flush := false }

/-- Minimum (or maximum) of two entries: exact; a NaN wins with the smaller cause; between equal values the lower tag wins
(R61, R73, R104). `x` is the incumbent. -/
def minMax (f : Fmt) (sgn isMax : Bool) (x y : Entry) : Combined :=
  let a := numEntry f sgn x.bits
  let b := numEntry f sgn y.bits
  let flags (e : Entry) : Entry := { e with inv := x.inv || y.inv, ovf := x.ovf || y.ovf }
  let res : Entry :=
    match a, b with
    | .nan c, .nan d => { x with bits := nanBits f (min c d), tag := min x.tag y.tag }
    | .nan c, _ => { x with bits := nanBits f c, tag := min x.tag y.tag }
    | _, .nan d => { y with bits := nanBits f d, tag := min x.tag y.tag }
    | _, _ =>
      let yWins := if isMax then numLtTotal a b else numLtTotal b a
      let xWins := if isMax then numLtTotal b a else numLtTotal a b
      if yWins then y else if xWins then x else if y.tag < x.tag then y else x
  { e := flags res, cause := none, ovf := false, flush := false }

/-- The column reduction of a mode on two entries of the accumulator format (R60, R61, R132). -/
def reduceAcc (mode : Nat) (acc : Fmt) (sgn flushes : Bool) (x y : Entry) : Combined :=
  if modeIsMin mode then minMax acc sgn false x y
  else if modeIsMax mode then minMax acc sgn true x y
  else match acc with
    | .int32 => addInt 32 sgn x y
    | .fp64 => addFp .fp64 false x y
    | _ => addFp .fp32 flushes x y

/-- The trough format of an accumulator: FP64 for FP32, INT64 for INT32 (R136). -/
def troughIsInt (acc : Fmt) : Bool := acc == .int32

/-- `widen` of R132: FP32 to FP64 and INT32 to INT64, exactly; flags and tag travel along. -/
def widenEntry (acc : Fmt) (sgn : Bool) (e : Entry) : Entry :=
  match acc with
  | .int32 => { e with bits := wrapInt 64 (if sgn then signedOf 32 e.bits else (e.bits % 2 ^ 32 : Nat)) }
  | .fp64 => e
  | _ =>
    let r := convert .fp64 false .rne (numEntry .fp32 false e.bits)
    { e with bits := r.bits }

/-- INT64 minimum or maximum with tags, for troughs of ADDMIN and ADDMAX over INT32 (R137). -/
def minMaxInt64 (isMax : Bool) (x y : Entry) : Combined :=
  let a : Int := signedOf 64 x.bits
  let b : Int := signedOf 64 y.bits
  let yWins := if isMax then decide (a < b) else decide (b < a)
  let xWins := if isMax then decide (b < a) else decide (a < b)
  let r := if yWins then y else if xWins then x else if y.tag < x.tag then y else x
  { e := { r with inv := x.inv || y.inv, ovf := x.ovf || y.ovf }, cause := none, ovf := false, flush := false }

/-- `reduce_wide` of R132: the same reduction in the trough format, never flushed (R64, R137). -/
def reduceWide (mode : Nat) (acc : Fmt) (x y : Entry) : Combined :=
  match acc with
  | .int32 =>
    if modeIsMin mode then minMaxInt64 false x y
    else if modeIsMax mode then minMaxInt64 true x y
    else addInt 64 true x y
  | _ =>
    if modeIsMin mode then minMax .fp64 false false x y
    else if modeIsMax mode then minMax .fp64 false true x y
    else addFp .fp64 false x y

/-- The identity of a mode in the accumulator format, as a fresh entry (R59). -/
def identityEntry (mode : Nat) (acc : Fmt) (sgn : Bool) : Entry :=
  { bits := reductionIdentity mode acc sgn, inv := false, ovf := false, tag := 0xFFFF }

/-- The identity in the trough format (R132, R178). -/
def identityWide (mode : Nat) (acc : Fmt) (sgn : Bool) : Entry := widenEntry acc sgn (identityEntry mode acc sgn)

/-- The 16 bytes of a trough entry (R136). -/
def troughBytes (e : Entry) : List Byte :=
  leBytes 8 e.bits ++ leBytes 8 (b2n e.ovf * 2 ^ 33 + b2n e.inv * 2 ^ 32 + e.tag % 2 ^ 16)

/-- A trough entry read back (R136). -/
def troughOf (bs : List Byte) : Entry :=
  let w1 := leNat ((bs.drop 8).take 8)
  { bits := leNat (bs.take 8), ovf := bitAt w1 33, inv := bitAt w1 32, tag := w1 % 2 ^ 16 }

/-- The result a trough value gives when it is written with OUT_WIDE = 0 (R139): pattern, overflow, flush. -/
def troughNarrow (acc : Fmt) (sgn flushes : Bool) (e : Entry) : Combined :=
  match acc with
  | .int32 =>
    let r := satInt 32 sgn (signedOf 64 e.bits)
    { e := { e with bits := r.bits }, cause := none, ovf := r.ovf, flush := false }
  | _ =>
    let v := numEntry .fp64 false e.bits
    let r := roundFp .fp32 flushes false (numIsFin v) v
    { e := { e with bits := r.bits }, cause := none, ovf := r.ovf, flush := r.flush }

/-- One level of the fixed tree (R141): neighbours combined, an odd last value passed up unchanged. -/
def treeLevel {α : Type} (f : α → α → α) : List α → List α
  | x :: y :: t => f x y :: treeLevel f t
  | l => l

/-- The fixed tree of R141, with fuel for its levels. -/
def fixedTreeLoop {α : Type} (f : α → α → α) : Nat → List α → List α
  | 0, l => l
  | n + 1, l => fixedTreeLoop f n (treeLevel f l)

/-- The fixed tree of R141: none for no value. -/
def fixedTree {α : Type} (f : α → α → α) (l : List α) : Option α := (fixedTreeLoop f (bitLen l.length + 1) l).head?

/-- One bit step of the reflected IEEE 802.3 CRC-32. -/
def crcBits : Nat → Nat → Nat
  | 0, c => c
  | n + 1, c => crcBits n (if c % 2 = 1 then Nat.xor (c / 2) 0xEDB88320 else c / 2)

/-- The running CRC-32 over bytes. -/
def crcRun : List Byte → Nat → Nat
  | [], c => c
  | b :: t, c => crcRun t (crcBits 8 (Nat.xor c b.toNat))

/-- CRC-32 with the IEEE 802.3 polynomial (R157). -/
def crc32 (bs : List Byte) : Nat := Nat.xor (crcRun bs 0xFFFFFFFF) 0xFFFFFFFF

/-- Replace the bytes from offset `o` on by `v`. -/
def patchBytes (bs : List Byte) (o : Nat) (v : List Byte) : List Byte := bs.take o ++ v ++ bs.drop (o + v.length)

/-- The image header of a save (R157). -/
def imageHeader (corral records time : Nat) : List Byte :=
  let raw := leBytes 8 (1 * 2 ^ 56 + corral % 256 * 2 ^ 32 + records % 2 ^ 32) ++ leBytes 8 time ++ leBytes 8 0
    ++ List.replicate 40 0
  patchBytes raw 16 (leBytes 4 (crc32 raw))

/-- The numbers 0 … n − 1. -/
def upTo (n : Nat) : List Nat := List.range n

/-- The entry area of a segment as one number (R159). -/
def entryArea (a : AcsSt) (stall seg : Nat) (wide : Bool) : Nat :=
  if wide then
    (upTo 128).foldl (fun acc e =>
      let x := acsEntry a stall (seg * 256 + 2 * e) true
      acc + (x.bits + b2n x.inv * 2 ^ 64 + b2n x.ovf * 2 ^ 65) * 2 ^ (66 * e)) 0
  else
    (upTo 256).foldl (fun acc e =>
      let x := acsEntry a stall (seg * 256 + e) false
      acc + (x.bits + b2n x.inv * 2 ^ 32 + b2n x.ovf * 2 ^ 33) * 2 ^ (34 * e)) 0

/-- The 1,664-byte record of a segment (R158, R159). -/
def segRecord (a : AcsSt) (stall seg : Nat) : List Byte :=
  let m := acsSeg a stall seg
  let w0 := 1 * 2 ^ 56 + seg * 2 ^ 48 + stall
    + (if m.valid then b2n m.wide * 2 ^ 54 + m.fmt * 2 ^ 44 + b2n m.sgn * 2 ^ 43 + 2 ^ 42 else 0)
  let w1 := m.prodQueue * 2 ^ 32 + m.prodSeq
  let w2 := if m.valid then m.phase else 0
  let body :=
    if m.valid then
      leBytes 1088 (entryArea a stall seg m.wide)
        ++ ((upTo 256).map (fun t => leBytes 2 (acsPos a stall (seg * 256 + t)).tag)).flatten
    else List.replicate 1600 0
  let raw := leBytes 8 w0 ++ leBytes 8 w1 ++ leBytes 8 w2 ++ leBytes 8 0 ++ List.replicate 32 0 ++ body
  patchBytes raw 24 (leBytes 4 (crc32 raw))

/-- The word at byte offset `o` of a byte list. -/
def wordAt (bs : List Byte) (o : Nat) : Nat := leNat ((bs.drop o).take 8)

/-- Is the image header good, for this many records (R160)? -/
def imageHeaderGood (bs : List Byte) (records : Nat) : Bool :=
  let w0 := wordAt bs 0
  let w2 := wordAt bs 16
  bitsOf w0 63 56 == 1 && bitsOf w0 55 40 == 0 && bitsOf w0 31 0 == records && bitsOf w2 63 32 == 0
    && (bs.drop 24).all (fun b => b == 0)
    && bitsOf w2 31 0 == crc32 (patchBytes bs 16 (leBytes 4 0))

/-- Is a segment record good (R160)? -/
def segRecordGood (bs : List Byte) : Bool :=
  let w0 := wordAt bs 0
  let w1 := wordAt bs 8
  let w2 := wordAt bs 16
  let w3 := wordAt bs 24
  let valid := bitAt w0 42
  let width := bitsOf w0 55 54
  let fmt := bitsOf w0 47 44
  let area := (bs.drop 64).take 1088
  bs.length == 1664 && bitsOf w0 63 56 == 1 && bitsOf w0 41 12 == 0 && bitsOf w1 63 48 == 0 && bitsOf w2 63 16 == 0
    && bitsOf w3 63 32 == 0 && ((bs.drop 32).take 32).all (fun b => b == 0)
    && bitsOf w3 31 0 == crc32 (patchBytes bs 24 (leBytes 4 0))
    && (if valid then
          ((fmt == 0 && width == 1) || ((fmt == 1 || fmt == 11) && width == 0)) && (!bitAt w0 43 || fmt == 11)
            && (width == 0 || leNat (area.drop 1056) == 0)
        else
          width == 0 && fmt == 0 && !bitAt w0 43 && bitsOf w2 15 0 == 0 && (bs.drop 64).all (fun b => b == 0))

/-- Set a segment from a good record, the restoring command as its producer (R160). -/
def segRestore (a : AcsSt) (stall seg : Nat) (bs : List Byte) (queue seq : Nat) : AcsSt :=
  let w0 := wordAt bs 0
  let wide := bitsOf w0 55 54 == 1
  let area := leNat ((bs.drop 64).take 1088)
  let tagOf (t : Nat) : Nat := leNat ((bs.drop (1152 + 2 * t)).take 2)
  let b := iterate (fun t b =>
    let v : PosSt :=
      if wide then
        let e := area / 2 ^ (66 * (t / 2)) % 2 ^ 66
        if t % 2 = 0 then { bits := e % 2 ^ 32, inv := bitAt e 64, ovf := bitAt e 65, tag := tagOf t }
        else { bits := e / 2 ^ 32 % 2 ^ 32, inv := false, ovf := false, tag := tagOf t }
      else
        let e := area / 2 ^ (34 * t) % 2 ^ 34
        { bits := e % 2 ^ 32, inv := bitAt e 32, ovf := bitAt e 33, tag := tagOf t }
    acsSetPos b stall (seg * 256 + t) v) 256 a
  acsSetSeg b stall seg
    { valid := bitAt w0 42, wide := wide, fmt := bitsOf w0 47 44, sgn := bitAt w0 43, phase := bitsOf (wordAt bs 16) 15 0,
      prodQueue := queue, prodSeq := seq }

end Sys2Proof.Machine
end

