-- ==== Sys2Proof/Machine/Cells.lean ====
section
/-!
DEFINITION. The MAC cell and the column chain (chapter 03): lanes and columns (R85), the cell operations of the array modes
(R98 to R102), index tags (R103), and the strictly sequential chain of a gang (R87, R96).
-/

namespace Sys2Proof.Machine

/-- Output columns of one stall for a stationary format (R85); an FP32 command with an FP64 accumulator runs with 1 lane. -/
def lanesOf (f : Fmt) (wideAcc : Bool) : Nat :=
  match f with
  | .fp64 => 1
  | .fp32 => if wideAcc then 1 else 2
  | .tf32 | .bf16 | .fp16 | .int16 => 4
  | .e4m3 | .e5m2 | .e3m2 | .e2m3 | .int8 => 8
  | .e2m1 | .int4 => 16
  | _ => 1

/-- One operand of a cell: its value (scaled where MX) and, for B1, its 64-bit word (R102). -/
structure CellOperand where
  num : Num
  word : Nat
  deriving DecidableEq, Repr

/-- The number of one bits in the low `n` bits. -/
def popcount : Nat → Nat → Nat
  | 0, _ => 0
  | n + 1, w => w % 2 + popcount n (w / 2)

/-- The predicate of a CMPCNT code (R101) on two values; false with a NaN operand (R61). -/
def predNum (code : Nat) (a w : Num) : Bool :=
  if numIsNan a || numIsNan w then false
  else match code with
    | 0 => numLt a w
    | 1 => !numLt w a
    | 2 => numEq a w
    | 3 => !numEq a w
    | 4 => !numLt a w
    | _ => numLt w a

/-- The number of the 64 bit pairs of two words for which a predicate holds, with 0 < 1 (R101). -/
def predBits (code : Nat) : Nat → Nat → Nat → Nat
  | 0, _, _ => 0
  | n + 1, a, w =>
    let h : Bool :=
      match code with
      | 0 => decide (a % 2 < w % 2)
      | 1 => decide (a % 2 ≤ w % 2)
      | 2 => a % 2 == w % 2
      | 3 => a % 2 != w % 2
      | 4 => decide (w % 2 ≤ a % 2)
      | _ => decide (w % 2 < a % 2)
    b2n h + predBits code n (a / 2) (w / 2)

/-- How a command computes (R98 to R103): mode code, accumulator format and signedness, whether FP32 results flush (R62),
whether B1 words are the operands, the predicate of CMPCNT and whether tags are carried. -/
structure ArrayOp where
  mode : Nat
  acc : Fmt
  sgn : Bool
  flushes : Bool
  b1 : Bool
  pred : Nat
  tags : Bool
  deriving DecidableEq, Repr

/-- The exact value of the cell operation on two values (R60, R98). -/
def cellExact (mode : Nat) (a w : Num) : Num :=
  match mode with
  | 0 => numMul a w
  | 1 => numAdd 5 a w
  | 2 => numAdd 5 a w
  | 3 => numAbs (numAdd 4 a (numNeg w))
  | _ =>
    let d := numAdd 4 a (numNeg w)
    numMul d d

/-- The cell result for one term with its tag, rounded once to the accumulator format, and what it counts (R60, R76, R77). -/
def cellOp (op : ArrayOp) (tag : Nat) (a w : CellOperand) : Combined :=
  let t := if op.tags then tag % 65536 else 0xFFFF
  if op.mode = 5 then
    { e := { bits := popcount 64 (Nat.xor a.word w.word), inv := false, ovf := false, tag := t }, cause := none, ovf := false,
      flush := false }
  else if op.mode = 6 then
    let n := if op.b1 then predBits op.pred 64 a.word w.word else b2n (predNum op.pred a.num w.num)
    let bits := match op.acc with
      | .int32 => n
      | f => (convert f false .rne (.fin false n 0)).bits
    { e := { bits := bits, inv := false, ovf := false, tag := t }, cause := none, ovf := false, flush := false }
  else
    let v := cellExact op.mode a.num w.num
    match op.acc with
    | .int32 =>
      { e := { bits := wrapInt 32 (numInt v), inv := false, ovf := false, tag := t }, cause := none, ovf := false, flush := false }
    | f =>
      let r := roundFp f (op.flushes && f == .fp32) (!numIsNan a.num && !numIsNan w.num) (numIsFin a.num && numIsFin w.num) v
      { e := { bits := r.bits, inv := r.inv.isSome, ovf := r.ovf, tag := t }, cause := r.inv, ovf := r.ovf, flush := r.flush }

/-- What one arithmetic operation adds to the counts of R77. -/
structure OpCount where
  invalid : Nat
  zinf : Nat
  overflow : Nat
  flush : Nat
  deriving DecidableEq, Repr

/-- Nothing counted. -/
def OpCount.zero : OpCount := { invalid := 0, zinf := 0, overflow := 0, flush := 0 }

/-- Add the counts of one combined operation (R77). -/
def OpCount.plus (c : OpCount) (r : Combined) : OpCount :=
  { invalid := c.invalid + b2n r.cause.isSome, zinf := c.zinf + b2n (r.cause == some 1), overflow := c.overflow + b2n r.ovf,
    flush := c.flush + b2n r.flush }

/-- One chain (R87, R96): the terms of a K-block in row order; absent terms pass the partial sum through (R79, R131). -/
def chainRun (op : ArrayOp) : List (Option (Nat × CellOperand × CellOperand)) → Entry × OpCount → Entry × OpCount
  | [], s => s
  | none :: t, s => chainRun op t s
  | some (k, a, w) :: t, s =>
    let c := cellOp op k a w
    let r := reduceAcc op.mode op.acc op.sgn op.flushes s.1 c.e
    chainRun op t (r.e, (s.2.plus c).plus r)

/-- The chain result of a K-block from the identity (R59, R88). -/
def chainResult (op : ArrayOp) (terms : List (Option (Nat × CellOperand × CellOperand))) : Entry × OpCount :=
  chainRun op terms (identityEntry op.mode op.acc op.sgn, OpCount.zero)

end Sys2Proof.Machine
end

