-- ==== Sys2Proof/Machine/Shapes.lean ====
section
/-!
DEFINITION. MATRIX descriptors, the shape catalogue, the fold and the layout of operands in memory (chapter 05), with the
admission checks of R173 that look at the descriptor alone.
-/

namespace Sys2Proof.Machine

/-- The word `n` of a descriptor or stage record as a number; absent words read 0. -/
def dw (d : List Word) (n : Nat) : Nat := (d.getD n 0).toNat

/-- The accumulator control block (R128), words 14 and 15 of a MATRIX descriptor. -/
structure AccCtl where
  partCount : Nat
  partIndex : Nat
  rgroup : Nat
  spill : Nat
  seg : Nat
  init : Nat
  disp : Nat
  troughHbm : Bool
  outWide : Bool
  trough : Nat
  deriving DecidableEq, Repr

/-- Read an accumulator control block (R128). -/
def accCtlOf (w0 w1 : Nat) : AccCtl :=
  { partCount := bitsOf w0 63 52, partIndex := bitsOf w0 51 40, rgroup := bitsOf w0 39 32, spill := bitsOf w0 31 16,
    seg := bitsOf w0 15 10, init := bitsOf w0 9 8, disp := bitsOf w0 7 6, troughHbm := bitAt w0 5, outWide := bitAt w0 4,
    trough := w1 }

/-- A MATRIX descriptor (R171). -/
structure MatDesc where
  shape : Nat
  mode : Nat
  pred : Nat
  indexTag : Bool
  haltInvalid : Bool
  preserve : Bool
  aFmt : Nat
  wFmt : Nat
  accFmt : Nat
  gangBase : Nat
  gangLen : Nat
  kgroup : Bool
  m : Nat
  n : Nat
  k : Nat
  aBase : Nat
  wBase : Nat
  cBase : Nat
  aStride : Nat
  cStride : Nat
  aScale : Nat
  wScale : Nat
  wSparse : Nat
  aEnc : Nat
  wBitmap : Bool
  predEn : Bool
  predAddr : Nat
  wAux : Nat
  aAux : Nat
  ctl : AccCtl
  deriving DecidableEq, Repr

/-- Read the fields of a MATRIX descriptor or stage record (R171). -/
def matDescOf (d : List Word) : MatDesc :=
  let w2 := dw d 2
  let w11 := dw d 11
  { shape := bitsOf w2 63 58, mode := bitsOf w2 57 54, pred := bitsOf w2 53 51, indexTag := bitAt w2 50,
    haltInvalid := bitAt w2 49, preserve := bitAt w2 48, aFmt := bitsOf w2 47 40, wFmt := bitsOf w2 39 32,
    accFmt := bitsOf w2 31 24, gangBase := bitsOf w2 23 12, gangLen := bitsOf w2 11 7, kgroup := bitAt w2 6,
    m := bitsOf (dw d 3) 63 32, n := bitsOf (dw d 3) 31 16, k := dw d 4, aBase := bitsOf (dw d 5) 56 0,
    wBase := bitsOf (dw d 6) 56 0, cBase := bitsOf (dw d 7) 56 0, aStride := bitsOf (dw d 8) 63 32,
    cStride := bitsOf (dw d 8) 31 0, aScale := bitsOf (dw d 9) 56 0, wScale := bitsOf (dw d 10) 56 0,
    wSparse := bitsOf w11 63 62, aEnc := bitsOf w11 61 60, wBitmap := bitAt w11 59, predEn := bitAt w11 58,
    predAddr := bitsOf w11 56 0, wAux := bitsOf (dw d 12) 56 0, aAux := bitsOf (dw d 13) 56 0,
    ctl := accCtlOf (dw d 14) (dw d 15) }

/-- Ms, Ns and Ks of a shape code (R174). -/
def shapeMs (s : Nat) : Nat := match s % 4 with | 0 => 64 | 1 => 256 | 2 => 1024 | _ => 4096

/-- Ns of a shape code (R174). -/
def shapeNs (s : Nat) : Nat := match s / 4 % 4 with | 0 => 64 | 1 => 256 | 2 => 1024 | _ => 4096

/-- Ks of a shape code (R174). -/
def shapeKs (s : Nat) : Nat := match s / 16 % 4 with | 0 => 64 | 1 => 512 | _ => 4096

/-- KP, the number of shape partitions, from the catalogue's order codes (R175). -/
def shapeKP (s : Nat) : Nat :=
  match s / 16 % 4, s / 4 % 4 with
  | 0, _ => 1
  | 1, 0 => 2
  | 1, _ => 1
  | _, 0 => 8
  | _, 1 => 4
  | _, 2 => 2
  | _, _ => 1

/-- ⌈a / b⌉. -/
def cdiv (a b : Nat) : Nat := (a + b - 1) / b

/-- The formats a MATRIX command computes with, decoded from its format bytes. -/
structure MatFmts where
  a : FmtByte
  w : FmtByte
  acc : Fmt
  accSgn : Bool
  deriving DecidableEq, Repr

/-- Decode the three format bytes; none where one is a reserved encoding (R45, R46, R171). -/
def matFmtsOf (d : MatDesc) : Option MatFmts :=
  match fmtByteOf d.aFmt, fmtByteOf d.wFmt, fmtByteOf d.accFmt with
  | some a, some w, some c =>
    some { a := a, w := w, acc := c.fmt, accSgn := c.sgn }
  | _, _, _ => none

/-- The wider of two element formats, by container bits (R100). -/
def widerFmt (a w : Fmt) : Fmt := if fmtBits w < fmtBits a then a else w

/-- The stationary lane format of a command: the wider element format when MX is present (R85, R100). -/
def laneFmt (f : MatFmts) : Fmt := if f.a.mx || f.w.mx then widerFmt f.a.fmt f.w.fmt else f.w.fmt

/-- Is the accumulator of 64-bit entries? -/
def accWide (f : MatFmts) : Bool := f.acc == .fp64

/-- C, the output columns per stall (R175). -/
def colsPerStall (f : MatFmts) : Nat := 8 * lanesOf (laneFmt f) (accWide f)

/-- w: 2 for an FP64 accumulator and 1 otherwise (R125). -/
def accW (f : MatFmts) : Nat := if accWide f then 2 else 1

/-- NW, the number of N-slices (R175). -/
def nSlices (d : MatDesc) (f : MatFmts) : Nat := cdiv d.n (colsPerStall f)

/-- G, the gangs a command uses (R175). -/
def gangsUsed (d : MatDesc) (f : MatFmts) : Nat := shapeKP d.shape * nSlices d f

/-- Mt, the rows of one M-chunk (R175). -/
def chunkRows (d : MatDesc) (f : MatFmts) : Nat := min (shapeMs d.shape) (8192 / (colsPerStall f * accW f))

/-- The number of M-chunks (R175). -/
def chunkCount (d : MatDesc) (f : MatFmts) : Nat := cdiv d.m (chunkRows d f)

/-- The footprint in positions (R125, R175). -/
def footprint (d : MatDesc) (f : MatFmts) : Nat := min d.m (chunkRows d f) * colsPerStall f * accW f

/-- The segments of the footprint (R125). -/
def footSegs (d : MatDesc) (f : MatFmts) : Nat := cdiv (footprint d f) 256

/-- P, the K positions of one shape partition (R178). -/
def partitionK (d : MatDesc) : Nat := shapeKs d.shape / shapeKP d.shape * cdiv d.k (shapeKs d.shape)

/-- The group row size gb of KGROUP layout (R183). -/
def groupRow (f : Fmt) : Nat :=
  match f with
  | .fp64 | .b1 => 512
  | .fp32 | .tf32 => 256
  | .bf16 | .fp16 | .int16 => 128
  | .e4m3 | .e5m2 | .int8 | .e8m0 => 64
  | .e3m2 | .e2m3 => 48
  | _ => 32

/-- Bits one K position takes in the streaming operand: a 64-bit word for B1 (R102). -/
def kBits (f : Fmt) : Nat := match f with | .b1 => 64 | _ => fmtBits f

/-- Packed bytes of `n` elements (R52); FP6 rows fill whole 3-byte groups. -/
def packedBytes (f : Fmt) (n : Nat) : Nat :=
  match f with
  | .e3m2 | .e2m3 => cdiv n 4 * 3
  | _ => cdiv (n * kBits f) 8

/-- The bit offset of element (m, k) of the streaming operand from A_BASE, in bytes and the bit within (R52, R183). -/
def aOffset (d : MatDesc) (f : Fmt) (m k : Nat) : Nat × Nat :=
  if d.kgroup then
    let b := k % 64 * kBits f
    (k / 64 * d.aStride + m * groupRow f + b / 8, b % 8)
  else
    let b := k * kBits f
    (m * d.aStride + b / 8, b % 8)

/-- Bytes of a stationary tile (R184). -/
def tileBytes (f : Fmt) : Nat := match f with | .tf32 => 1024 | _ => 512

/-- The offset of stationary element w(k, n) of N-slice j from W_BASE when it is stored dense (R184). -/
def wOffset (d : MatDesc) (f : MatFmts) (j k c : Nat) : Nat × Nat :=
  let t := tileBytes f.w.fmt
  let b := c * kBits f.w.fmt
  ((j * cdiv d.k 8 + k / 8) * t + k % 8 * (t / 8) + b / 8, b % 8)

/-- The address of the MX scale of a(m, k) (R186). -/
def aScaleAddr (d : MatDesc) (m k : Nat) : Nat := d.aScale + m * cdiv d.k 32 + k / 32

/-- The address of the MX scale of w(k, n) in slice j, column c (R186). -/
def wScaleAddr (d : MatDesc) (f : MatFmts) (j k c : Nat) : Nat :=
  d.wScale + (j * cdiv d.k 32 + k / 32) * colsPerStall f + c

/-- rb, the bytes of one result element (R139, R185). -/
def resultBytes (d : MatDesc) (f : MatFmts) : Nat :=
  if accWide f then 8 else if d.ctl.spill ≠ 0 && d.ctl.outWide then 8 else 4

/-- Is a mode legal with one non-mixed operand format (R99)? `mx` says the operand is MX. -/
def modeFormat (mode : Nat) (f : Fmt) (mx sgn : Bool) : Bool :=
  match f with
  | .fp64 => !mx && decide (mode ≤ 4)
  | .fp32 => !mx && (decide (mode ≤ 4) || mode == 6)
  | .tf32 => !mx && decide (mode ≤ 4)
  | .bf16 | .fp16 => !mx && (decide (mode ≤ 4) || mode == 6)
  | .e4m3 | .e5m2 => if mx then mode == 0 else mode == 0 || mode == 3 || mode == 4
  | .e3m2 | .e2m3 | .e2m1 => mode == 0
  | .int16 => !mx && (decide (mode ≤ 3) || mode == 6)
  | .int8 => if mx then mode == 0 && sgn else decide (mode ≤ 4) || mode == 6
  | .int4 => !mx && (decide (mode ≤ 4) || mode == 6)
  | .b1 => !mx && (mode == 5 || mode == 6)
  | _ => false

/-- The element formats that may stand beside an MX operand (R100). -/
def mxPartner (b : FmtByte) : Bool :=
  (5 ≤ fmtCode b.fmt && fmtCode b.fmt ≤ 9) || (b.fmt == .int8 && b.mx && b.sgn)

/-- Mode and operand formats agree (R99, R100): check 4 of R173. -/
def modeFormatsOk (mode : Nat) (f : MatFmts) : Bool :=
  if f.a.mx || f.w.mx then mode == 0 && mxPartner f.a && mxPartner f.w
  else f.a.fmt = f.w.fmt && modeFormat mode f.a.fmt false f.a.sgn

/-- The accumulator format follows from the operand formats (R56, R171): part of check 5. -/
def accFormatOk (f : MatFmts) : Bool :=
  if f.a.mx || f.w.mx then f.acc == .fp32
  else match f.a.fmt with
    | .fp64 => f.acc == .fp64
    | .fp32 => f.acc == .fp32 || f.acc == .fp64
    | .tf32 | .bf16 | .fp16 | .e4m3 | .e5m2 | .e3m2 | .e2m3 | .e2m1 => f.acc == .fp32
    | _ => f.acc == .int32 && f.accSgn == (f.a.sgn || f.w.sgn)

/-- The array operation of a command (R98, R62, R63). -/
def arrayOpOf (d : MatDesc) (f : MatFmts) : ArrayOp :=
  { mode := d.mode, acc := f.acc, sgn := f.accSgn, flushes := f.acc == .fp32 && !d.preserve, b1 := f.a.fmt == .b1, pred := d.pred,
    tags := d.indexTag }

/-- A rejection at admission: code, check number and offending byte (R321, R640). -/
structure Reject where
  code : Nat
  check : Nat
  byte : Nat
  deriving DecidableEq, Repr

/-- The DETAIL word of a rejection (R321). -/
def Reject.detail (r : Reject) : Nat := r.check % 256 * 2 ^ 24 + r.byte % 256

/-- The first rejection of a list of checks in order. -/
def firstReject : List (Bool × Reject) → Option Reject
  | [] => none
  | (bad, r) :: t => if bad then some r else firstReject t

/-- What admission needs to know of the corral of a MATRIX command (R173, R176). -/
structure CorralView where
  len : Nat            -- L
  shapes : Nat         -- the 48-bit shape mask
  gangs : Nat          -- the number of gangs it owns
  available : Nat → Bool   -- is a corral gang available (R97)?

/-- Is a base address aligned for its element container (R187)? -/
def aAlign (f : Fmt) : Nat :=
  match f with
  | .fp64 | .b1 => 8
  | .fp32 | .tf32 | .int32 => 4
  | .bf16 | .fp16 | .int16 => 2
  | _ => 1

/-- Check 1 of R173: reserved bits, encodings and all-ones lengths, in byte order of the descriptor. -/
def matCheck1 (d : List Word) : List (Bool × Reject) :=
  let x := matDescOf d
  let res (b : Nat) : Reject := ⟨E_FIELD_RESERVED, 1, b⟩
  let rng (b : Nat) : Reject := ⟨E_FIELD_RANGE, 1, b⟩
  let w15 := dw d 15
  [ (bitsOf (dw d 2) 5 0 != 0, res 16),
    (x.gangLen == 0 || decide (25 ≤ x.gangLen), res 16),
    ((fmtByteOf x.accFmt).isNone, res 19),
    ((fmtByteOf x.wFmt).isNone, res 20),
    ((fmtByteOf x.aFmt).isNone, res 21),
    (x.pred != 0 && x.mode != 6, res 22),
    (x.mode == 6 && decide (6 ≤ x.pred), res 22),
    (x.indexTag && !(x.mode == 1 || x.mode == 2), res 22),
    (decide (7 ≤ x.mode), res 22),
    (decide (0x30 ≤ x.shape), res 23),
    (bitsOf (dw d 3) 15 0 != 0, res 24),
    (x.n == 0xFFFF, rng 26),
    (x.m == 0xFFFFFFFF, rng 28),
    (x.k == 2 ^ 64 - 1, rng 32),
    (bitsOf (dw d 5) 63 57 != 0, res 47),
    (bitsOf (dw d 6) 63 57 != 0, res 55),
    (bitsOf (dw d 7) 63 57 != 0, res 63),
    (x.ctl.disp != 0 && x.cStride == 0xFFFFFFFF, rng 64),
    (x.aStride == 0xFFFFFFFF, rng 68),
    (bitsOf (dw d 9) 63 57 != 0, res 79),
    (bitsOf (dw d 10) 63 57 != 0, res 87),
    (bitAt (dw d 11) 57, res 95),
    (x.wSparse == 3, res 95),
    (bitsOf (dw d 12) 63 57 != 0, res 103),
    (bitsOf (dw d 13) 63 57 != 0, res 111),
    (bitsOf (dw d 14) 3 0 != 0, res 112),
    (decide (2 ≤ x.ctl.disp), res 112),
    (decide (2 ≤ x.ctl.init), res 113),
    (x.ctl.spill == 0xFFFF, rng 114),
    (x.ctl.partCount == 0, res 118),
    (x.ctl.partCount == 0xFFF, rng 118),
    (x.ctl.spill != 0 && !x.ctl.troughHbm && w15 / 2 ^ 18 != 0, res 122),
    (x.ctl.spill != 0 && x.ctl.troughHbm && w15 / 2 ^ 57 != 0, res 127) ]

/-- Checks 2 to 13 of R173 that the descriptor and the corral's structure decide. `sparse` gives the sparsity checks of
chapter 06 that belong to a check number. -/
def matChecks (d : List Word) (v : CorralView) : List (Bool × Reject) :=
  let x := matDescOf d
  match matFmtsOf x with
  | none => []
  | some f =>
    let write := x.ctl.disp == 1
    let rb := resultBytes x f
    let gb := groupRow f.a.fmt
    let tags := if x.ctl.partCount ≤ 1 then x.k else x.ctl.partCount * x.k
    [ (!bitAt v.shapes x.shape, ⟨E_SHAPE_DENIED, 2, 23⟩),
      (x.gangLen != v.len, ⟨E_GANG_LEN, 3, 16⟩),
      (!modeFormatsOk x.mode f, ⟨E_MODE_FORMAT, 4, 20⟩),
      (!accFormatOk f, ⟨E_ACC_FORMAT, 5, 19⟩),
      (x.ctl.spill != 0 && accWide f, ⟨E_ACC_FORMAT, 5, 114⟩),
      (decide (shapeNs x.shape < x.n), ⟨E_FIELD_RANGE, 6, 26⟩),
      (decide (shapeMs x.shape < x.m), ⟨E_FIELD_RANGE, 6, 28⟩),
      (write && decide (x.cStride < x.n * rb), ⟨E_FIELD_RANGE, 7, 64⟩),
      (x.aEnc == 0 && decide (x.aStride < if x.kgroup then x.m * gb else packedBytes f.a.fmt x.k), ⟨E_FIELD_RANGE, 7, 68⟩),
      (x.aBase % aAlign f.a.fmt != 0, ⟨E_OPERAND_ALIGN, 8, 40⟩),
      (x.wBase % 64 != 0, ⟨E_OPERAND_ALIGN, 8, 48⟩),
      (write && x.cBase % rb != 0, ⟨E_OPERAND_ALIGN, 8, 56⟩),
      (write && x.cStride % rb != 0, ⟨E_OPERAND_ALIGN, 8, 64⟩),
      (x.kgroup && x.aStride % gb != 0, ⟨E_OPERAND_ALIGN, 8, 68⟩),
      (!x.kgroup && x.aEnc == 0 && (f.a.fmt == .e3m2 || f.a.fmt == .e2m3) && x.aStride % 3 != 0, ⟨E_FIELD_RANGE, 7, 68⟩),
      (x.indexTag && decide (65535 < tags), ⟨E_TAG_RANGE, 9, 22⟩),
      (decide (v.gangs < x.gangBase + gangsUsed x f), ⟨E_SHAPE_FIT, 10, 17⟩),
      ((upTo (gangsUsed x f)).any (fun g => !v.available (x.gangBase + g)), ⟨E_GANG_UNAVAILABLE, 11, 17⟩),
      (decide (1 < chunkCount x f) && (x.ctl.init == 1 || x.ctl.disp == 0), ⟨E_ACC_CHUNK, 12, if x.ctl.disp = 0 then 112 else 113⟩),
      (decide (64 < x.ctl.seg + footSegs x f), ⟨E_FIELD_RANGE, 13, 113⟩),
      (decide (x.ctl.partCount ≤ x.ctl.partIndex), ⟨E_FIELD_RANGE, 13, 117⟩),
      (x.ctl.spill != 0 && (x.ctl.trough % 16 != 0
        || (!x.ctl.troughHbm && decide (262144 < x.ctl.trough + 16 * footprint x f))), ⟨E_FIELD_RANGE, 13, 120⟩) ]

/-- A zero extent: the command is a no-op after its checks (R172). -/
def matIsNoop (x : MatDesc) : Bool := x.m == 0 || x.n == 0 || x.k == 0

end Sys2Proof.Machine
end

