-- ==== Sys2Proof/Machine/RegTable.lean ====
section
/-!
DEFINITION. The register table: every register the spec maps, with its block, offset, stride and count, and its fields with
their access codes (R11) and reset values, transcribed from the field maps of the chapters (R115 to R122, R164 to R170, R245
to R255, R328 to R335, R368 to R379, R413 to R417, R442 to R448, R467 to R476, R515 to R522, R552 to R554, R574, R636) and the
window bases of R43.
-/

namespace Sys2Proof.Machine

/-- Access codes (R11). -/
inductive Access where
  | ro | rw | w1c | w1s | wo | wonce
  deriving DecidableEq, Repr

/-- One field `[hi:lo]` of a register: its access code and its value after power-on reset. -/
structure RegField where
  hi : Nat
  lo : Nat
  acc : Access
  rst : Nat
  deriving DecidableEq, Repr

/-- The register blocks of R43. -/
inductive Blk where
  | stl | acs | vec | pdk | cfg | noc | hbm | rnl | hst | grm | dbg | pwr | sec
  deriving DecidableEq, Repr

/-- Every register of the spec; an indexed family (STL_WAIT_ROWn, HST_CNT_*, ...) is one name with an index. -/
inductive Reg where
  | STL_ID | STL_STATUS | STL_GAIT_METER | STL_GAIT_LIMIT | STL_EVENT | STL_EVENT_EN | STL_REPAIR | STL_BEAT_COUNT
  | STL_RELAY_COUNT | STL_RELAY_WAIT | STL_WAIT_ROW | STL_WAIT_COL | STL_ROUTE | STL_SEQ_STATUS | STL_SEQ_BANK
  | STL_PSTORE_VERIFIED | STL_SEQ_INSTR | STL_SEQ_SWITCHES | STL_SEQ_IDLE | STL_SEQ_B0_S | STL_SEQ_B1_S | ACS_STATUS
  | ACS_LEASED | ACS_RESIDENT | ACS_WIDE | ACS_EVENT | ACS_EVENT_EN | ACS_LEASE_LIMIT | ACS_CONFLICT_COUNT
  | ACS_SPILL_COUNT | ACS_DRAIN_COUNT | ACS_ECC_COUNT | ACS_SEG_STATE | ACS_SEG_PROD | VEC_STATUS | VEC_EVENT
  | VEC_EVENT_EN | VEC_LANE_OPS | VEC_CONVERTS | VEC_ECC_COUNT | VEC_VIEW_SEL | VEC_VIEW | PDK_ID | PDK_STATUS
  | PDK_GAIT | PDK_EVENT | PDK_EVENT_EN | PDK_TICK | PDK_EDGE_COUNT | PDK_STRETCH_NS | PDK_STOP_NS | PDK_CH_IN_WORDS
  | PDK_CH_OUT_WORDS | PDK_CH_DROP_WORDS | PDK_PROBE_SAMPLES | PDK_PROBE_LOST | PDK_PROBE_CTL | PDK_PROBE_BASE
  | PDK_PROBE_LEN | PDK_PROBE_START | PDK_PROBE_WPTR | PDK_PROBE_SEL | PDK_REPLAY_CTL | PDK_REPLAY_BASE
  | PDK_REPLAY_LEN | PDK_REPLAY_START | PDK_REPLAY_RPTR | CFG_IDCODE | CFG_STATUS | CFG_EVENT | CFG_EVENT_EN
  | CFG_LOAD_ADDR | CFG_LOAD_LEN | CFG_LOAD | CFG_REPORT_ADDR | CFG_EPOCH | CFG_PROGRESS | CFG_RELEASE | CFG_TRUNC_MS
  | CFG_QUARANTINE | CFG_CONFIG_DIGEST | CFG_REGION_SEL | CFG_REGION_DIGEST | CFG_REGION_STATUS | CFG_REFUSED_COUNT
  | CFG_CONSIST_CTL | CFG_CONSIST_RANGE | CFG_CONSIST_EPOCH | CFG_CONSIST_EXPECT | CFG_CONSIST_PERIOD
  | CFG_CONSIST_RESULT0 | CFG_CONSIST_RESULT1 | CFG_CONSIST_RESULT2 | CFG_CONSIST_STATUS | CFG_MCAST_STATUS
  | NOC_STATUS | NOC_TIMEOUT | NOC_EVENT | NOC_EVENT_EN | NOC_ROUTE_FAULT | NOC_CNT | NOC_FLOW_A | NOC_FLOW_ROUTE
  | NOC_FLOW_SLOTS | HBM_STATUS | HBM_EVENT | HBM_EVENT_EN | HBM_ERR_LOG | HBM_SR_STATE | HBM_SCRUB_STATUS
  | HBM_MAINT | HBM_MAINT_STATUS | HBM_CNT | HBM_SR_IDLE | HBM_HASH | HBM_SPLIT | HBM_SCRUB_CFG | RNL_PORT_STATUS
  | RNL_PORT_CFG | RNL_PEER | RNL_EVENT | RNL_EVENT_EN | RNL_RETRY | RNL_DELAY | RNL_EYE_CTL | RNL_EYE_RESULT
  | RNL_CNT | RNL_IDENT | RNL_STRING | RNL_TIME_STATUS | RNL_RGROUP_BASE | RNL_RELAY_CFG | RNL_GROUTE
  | HST_PORT_STATUS | HST_PORT_CFG | HST_MAC | HST_IPV4 | HST_IPV6_HI | HST_IPV6_LO | HST_PFC | HST_CC | HST_EVENT
  | HST_EVENT_EN | HST_CNT | HST_XLATE_ROOT | HST_XLATE_ROOT_PRIV | HST_XLATE_INVAL | HST_QTABLE_BASE
  | HST_QP_TABLE_BASE | HST_MR_TABLE_BASE | HST_QCTL | HST_QP_CMD | HST_CTL_STATUS | GRM_STATUS | GRM_FW_VERSION
  | GRM_FW_SVN | GRM_ROM_INFO | GRM_FW_DIGEST | GRM_FW_FEATURES | GRM_DRV_FEATURES | GRM_FEATURES_ACTIVE | GRM_REQ
  | GRM_REQ_STATUS | GRM_EVENT | GRM_EVENT_EN | GRM_HEARTBEAT | GRM_FAULT_COUNT | GRM_BOOT_STATUS | GRM_MBOX
  | SEC_STATUS | SEC_SVN | SEC_SERIAL | SEC_ID_PUB | SEC_OWNER_HASH | SEC_FUSE_DIGEST | DBG_BAD_REG_ACCESS
  | DBG_EVENT | DBG_EVENT_EN | DBG_TRACE_CFG | DBG_TRACE_STATUS | DBG_TRACE_BASE | DBG_TRACE_LEN | DBG_TRACE_WPTR
  | DBG_TRACE_LOST | DBG_TRACE_STALL | DBG_LATCH_SEL | DBG_LATCH_RING | DBG_LATCH_INDEX | DBG_OCC | PWR_STATUS
  | PWR_LOOP | PWR_LIMIT | PWR_THERM | PWR_EVENT | PWR_EVENT_EN | PWR_DIE | PWR_VRM | PWR_ENERGY
  deriving DecidableEq, Repr

/-- What the table says of one register: block, offset of index 0, byte stride and count of its indices. -/
structure RegInfo where
  blk : Blk
  off : Nat
  stride : Nat
  count : Nat
  fields : List RegField
  deriving DecidableEq, Repr

/-- The field maps of the STL_ registers. -/
def regFields_stl : Reg → List RegField
  -- R115: SPARE_STALL GANG_POS GANG_LEN HELD CORRAL COLUMN ROW DIE INDEX
  | .STL_ID =>
    [⟨43, 43, .ro, 0⟩, ⟨42, 38, .ro, 0⟩, ⟨37, 33, .ro, 0⟩, ⟨32, 32, .ro, 1⟩, ⟨31, 24, .ro, 0⟩, ⟨23, 19, .ro, 0⟩,
     ⟨18, 14, .ro, 0⟩, ⟨13, 12, .ro, 0⟩, ⟨11, 0, .ro, 0⟩]
  -- R116: QVALID QUEUE SPARE_ROW STANDBY COLQ QUIET STATE
  | .STL_STATUS =>
    [⟨48, 48, .ro, 0⟩, ⟨47, 32, .ro, 0⟩, ⟨14, 14, .ro, 0⟩, ⟨13, 12, .ro, 0⟩, ⟨11, 4, .ro, 0xFF⟩, ⟨3, 3, .ro, 1⟩,
     ⟨2, 0, .ro, 7⟩]
  -- R118: SAMPLE RATE
  | .STL_GAIT_METER => [⟨47, 32, .ro, 0⟩, ⟨11, 0, .ro, 0⟩]
  -- R119: SAMPLES LOW
  | .STL_GAIT_LIMIT => [⟨23, 16, .rw, 0x0A⟩, ⟨11, 0, .rw, 0x47E⟩]
  -- R120: CHAIN REPAIR PARITY SLOW
  | .STL_EVENT => [⟨3, 3, .w1c, 0⟩, ⟨2, 2, .w1c, 0⟩, ⟨1, 1, .w1c, 0⟩, ⟨0, 0, .w1c, 0⟩]
  -- R120: CHAIN REPAIR PARITY SLOW
  | .STL_EVENT_EN => [⟨3, 3, .rw, 1⟩, ⟨2, 2, .rw, 1⟩, ⟨1, 1, .rw, 1⟩, ⟨0, 0, .rw, 1⟩]
  -- R121: SOURCE ROW EN
  | .STL_REPAIR => [⟨7, 7, .ro, 0⟩, ⟨6, 4, .ro, 0⟩, ⟨0, 0, .ro, 0⟩]
  -- R122: GEN COUNT
  | .STL_BEAT_COUNT => [⟨63, 48, .ro, 0⟩, ⟨47, 0, .ro, 0⟩]
  -- R122: GEN COUNT
  | .STL_RELAY_COUNT => [⟨63, 48, .ro, 0⟩, ⟨47, 0, .ro, 0⟩]
  -- R122: GEN COUNT
  | .STL_RELAY_WAIT => [⟨63, 48, .ro, 0⟩, ⟨47, 0, .ro, 0⟩]
  -- R122: GEN COUNT
  | .STL_WAIT_ROW => [⟨63, 48, .ro, 0⟩, ⟨47, 0, .ro, 0⟩]
  -- R122: GEN COUNT
  | .STL_WAIT_COL => [⟨63, 48, .ro, 0⟩, ⟨47, 0, .ro, 0⟩]
  -- R447: CODES
  | .STL_ROUTE => [⟨63, 0, .ro, 0⟩]
  -- R245: QVALID QUEUE PC ISSUING BANK
  | .STL_SEQ_STATUS => [⟨48, 48, .ro, 0⟩, ⟨47, 32, .ro, 0⟩, ⟨16, 6, .ro, 0⟩, ⟨1, 1, .ro, 0⟩, ⟨0, 0, .ro, 0⟩]
  -- R246: QVALID QUEUE RANK PC STATE
  | .STL_SEQ_BANK => [⟨48, 48, .ro, 0⟩, ⟨47, 32, .ro, 0⟩, ⟨31, 20, .ro, 0⟩, ⟨16, 6, .ro, 0⟩, ⟨2, 0, .ro, 0⟩]
  -- R247: PAGE
  | .STL_PSTORE_VERIFIED => [⟨31, 0, .ro, 0⟩]
  -- R248: GEN COUNT
  | .STL_SEQ_INSTR => [⟨63, 48, .ro, 0⟩, ⟨47, 0, .ro, 0⟩]
  -- R248: GEN COUNT
  | .STL_SEQ_SWITCHES => [⟨63, 48, .ro, 0⟩, ⟨47, 0, .ro, 0⟩]
  -- R248: GEN COUNT
  | .STL_SEQ_IDLE => [⟨63, 48, .ro, 0⟩, ⟨47, 0, .ro, 0⟩]
  -- R249: VALUE
  | .STL_SEQ_B0_S => [⟨63, 0, .ro, 0⟩]
  -- R249: VALUE
  | .STL_SEQ_B1_S => [⟨63, 0, .ro, 0⟩]
  | _ => []

/-- The field maps of the ACS_ registers. -/
def regFields_acs : Reg → List RegField
  -- R164: WAITERS SPILLING DRAINING GATED LEASED
  | .ACS_STATUS => [⟨31, 16, .ro, 0⟩, ⟨15, 15, .ro, 0⟩, ⟨14, 14, .ro, 0⟩, ⟨13, 13, .ro, 0⟩, ⟨6, 0, .ro, 0⟩]
  -- R165: SEG
  | .ACS_LEASED => [⟨63, 0, .ro, 0⟩]
  -- R165: SEG
  | .ACS_RESIDENT => [⟨63, 0, .ro, 0⟩]
  -- R165: SEG
  | .ACS_WIDE => [⟨63, 0, .ro, 0⟩]
  -- R166: LEASE_TIMEOUT UNCORR CORR
  | .ACS_EVENT => [⟨2, 2, .w1c, 0⟩, ⟨1, 1, .w1c, 0⟩, ⟨0, 0, .w1c, 0⟩]
  -- R166: LEASE_TIMEOUT UNCORR CORR
  | .ACS_EVENT_EN => [⟨2, 2, .rw, 1⟩, ⟨1, 1, .rw, 1⟩, ⟨0, 0, .rw, 0⟩]
  -- R167: LIMIT
  | .ACS_LEASE_LIMIT => [⟨31, 0, .rw, 0xF4240⟩]
  -- R168: GEN COUNT
  | .ACS_CONFLICT_COUNT => [⟨63, 48, .ro, 0⟩, ⟨47, 0, .ro, 0⟩]
  -- R168: GEN COUNT
  | .ACS_SPILL_COUNT => [⟨63, 48, .ro, 0⟩, ⟨47, 0, .ro, 0⟩]
  -- R168: GEN COUNT
  | .ACS_DRAIN_COUNT => [⟨63, 48, .ro, 0⟩, ⟨47, 0, .ro, 0⟩]
  -- R168: GEN COUNT
  | .ACS_ECC_COUNT => [⟨63, 48, .ro, 0⟩, ⟨47, 0, .ro, 0⟩]
  -- R169: HOLDER SPILL_PHASE LEASED VALID WIDE SIGNED FMT
  | .ACS_SEG_STATE =>
    [⟨63, 48, .ro, 0⟩, ⟨47, 32, .ro, 0⟩, ⟨23, 23, .ro, 0⟩, ⟨22, 22, .ro, 0⟩, ⟨21, 21, .ro, 0⟩, ⟨20, 20, .ro, 0⟩,
     ⟨19, 16, .ro, 0⟩]
  -- R170: QUEUE SEQ
  | .ACS_SEG_PROD => [⟨47, 32, .ro, 0⟩, ⟨31, 0, .ro, 0⟩]
  | _ => []

/-- The field maps of the VEC_ registers. -/
def regFields_vec : Reg → List RegField
  -- R251: OCCUPANCY DISPATCH BUSY
  | .VEC_STATUS => [⟨39, 32, .ro, 0⟩, ⟨2, 2, .ro, 0⟩, ⟨1, 1, .ro, 0⟩]
  -- R252: ILLEGAL LIMIT PC WINDOW UNCORR CORR
  | .VEC_EVENT =>
    [⟨5, 5, .w1c, 0⟩, ⟨4, 4, .w1c, 0⟩, ⟨3, 3, .w1c, 0⟩, ⟨2, 2, .w1c, 0⟩, ⟨1, 1, .w1c, 0⟩, ⟨0, 0, .w1c, 0⟩]
  -- R252: ILLEGAL LIMIT PC WINDOW UNCORR CORR
  | .VEC_EVENT_EN => [⟨5, 5, .rw, 1⟩, ⟨4, 4, .rw, 1⟩, ⟨3, 3, .rw, 1⟩, ⟨2, 2, .rw, 1⟩, ⟨1, 1, .rw, 1⟩, ⟨0, 0, .rw, 0⟩]
  -- R253: GEN COUNT
  | .VEC_LANE_OPS => [⟨63, 48, .ro, 0⟩, ⟨47, 0, .ro, 0⟩]
  -- R253: GEN COUNT
  | .VEC_CONVERTS => [⟨63, 48, .ro, 0⟩, ⟨47, 0, .ro, 0⟩]
  -- R253: GEN COUNT
  | .VEC_ECC_COUNT => [⟨63, 48, .ro, 0⟩, ⟨47, 0, .ro, 0⟩]
  -- R254: BANK KIND REG
  | .VEC_VIEW_SEL => [⟨6, 6, .rw, 0⟩, ⟨5, 5, .rw, 0⟩, ⟨4, 0, .rw, 0⟩]
  -- R255: BITS
  | .VEC_VIEW => [⟨63, 0, .ro, 0⟩]
  | _ => []

/-- The field maps of the PDK_ registers. -/
def regFields_pdk : Reg → List RegField
  -- R368: GAIT_GROUP GROUPED HELD CORRAL REGION DIE COLUMN POSITION INDEX
  | .PDK_ID =>
    [⟨53, 46, .ro, 0⟩, ⟨45, 45, .ro, 0⟩, ⟨44, 44, .ro, 1⟩, ⟨43, 36, .ro, 0⟩, ⟨35, 28, .ro, 0⟩, ⟨27, 26, .ro, 0⟩,
     ⟨25, 20, .ro, 0⟩, ⟨19, 14, .ro, 0⟩, ⟨13, 0, .ro, 0⟩]
  -- R369: IN_FIFO CAPTURE REPLAY GAIT QUARANTINE STAGE
  | .PDK_STATUS =>
    [⟨22, 20, .ro, 0⟩, ⟨17, 16, .ro, 0⟩, ⟨15, 14, .ro, 0⟩, ⟨10, 8, .ro, 0⟩, ⟨2, 2, .ro, 0⟩, ⟨1, 0, .ro, 0⟩]
  -- R370: PERIOD_PS DEPTH HOPS
  | .PDK_GAIT => [⟨47, 32, .ro, 0⟩, ⟨12, 8, .ro, 0⟩, ⟨4, 0, .ro, 0⟩]
  -- R371: PROBE_FAULT CAPTURE_LOST CAPTURE_DONE REPLAY_DONE CH_DROP
  | .PDK_EVENT => [⟨4, 4, .w1c, 0⟩, ⟨3, 3, .w1c, 0⟩, ⟨2, 2, .w1c, 0⟩, ⟨1, 1, .w1c, 0⟩, ⟨0, 0, .w1c, 0⟩]
  -- R371: PROBE_FAULT CAPTURE_LOST CAPTURE_DONE REPLAY_DONE CH_DROP
  | .PDK_EVENT_EN => [⟨4, 4, .rw, 0⟩, ⟨3, 3, .rw, 0⟩, ⟨2, 2, .rw, 0⟩, ⟨1, 1, .rw, 0⟩, ⟨0, 0, .rw, 0⟩]
  -- R372: TICK
  | .PDK_TICK => [⟨47, 0, .ro, 0⟩]
  -- R373: GEN COUNT
  | .PDK_EDGE_COUNT => [⟨63, 48, .ro, 0⟩, ⟨47, 0, .ro, 0⟩]
  -- R373: GEN COUNT
  | .PDK_STRETCH_NS => [⟨63, 48, .ro, 0⟩, ⟨47, 0, .ro, 0⟩]
  -- R373: GEN COUNT
  | .PDK_STOP_NS => [⟨63, 48, .ro, 0⟩, ⟨47, 0, .ro, 0⟩]
  -- R373: GEN COUNT
  | .PDK_CH_IN_WORDS => [⟨63, 48, .ro, 0⟩, ⟨47, 0, .ro, 0⟩]
  -- R373: GEN COUNT
  | .PDK_CH_OUT_WORDS => [⟨63, 48, .ro, 0⟩, ⟨47, 0, .ro, 0⟩]
  -- R373: GEN COUNT
  | .PDK_CH_DROP_WORDS => [⟨63, 48, .ro, 0⟩, ⟨47, 0, .ro, 0⟩]
  -- R373: GEN COUNT
  | .PDK_PROBE_SAMPLES => [⟨63, 48, .ro, 0⟩, ⟨47, 0, .ro, 0⟩]
  -- R373: GEN COUNT
  | .PDK_PROBE_LOST => [⟨63, 48, .ro, 0⟩, ⟨47, 0, .ro, 0⟩]
  -- R374: ERROR WRAP LOSSY OP
  | .PDK_PROBE_CTL => [⟨31, 16, .ro, 0⟩, ⟨4, 4, .rw, 0⟩, ⟨3, 3, .rw, 0⟩, ⟨1, 0, .wo, 0⟩]
  -- R375: ADDR
  | .PDK_PROBE_BASE => [⟨56, 9, .rw, 0⟩]
  -- R376: BLOCKS
  | .PDK_PROBE_LEN => [⟨31, 0, .rw, 1⟩]
  -- R377: TICK
  | .PDK_PROBE_START => [⟨47, 0, .rw, 0⟩]
  -- R378: WRAPS NEXT
  | .PDK_PROBE_WPTR => [⟨63, 32, .ro, 0⟩, ⟨31, 0, .ro, 0⟩]
  -- R379: SRC7 SRC6 SRC5 SRC4 SRC3 SRC2 SRC1 SRC0
  | .PDK_PROBE_SEL =>
    [⟨63, 56, .rw, 0xC0⟩, ⟨55, 48, .rw, 0xC0⟩, ⟨47, 40, .rw, 0xC0⟩, ⟨39, 32, .rw, 0xC0⟩, ⟨31, 24, .rw, 0xC0⟩,
     ⟨23, 16, .rw, 0xC0⟩, ⟨15, 8, .rw, 0xC0⟩, ⟨7, 0, .rw, 0xC0⟩]
  -- R374: ERROR WRAP OP
  | .PDK_REPLAY_CTL => [⟨31, 16, .ro, 0⟩, ⟨4, 4, .rw, 0⟩, ⟨1, 0, .wo, 0⟩]
  -- R375: ADDR
  | .PDK_REPLAY_BASE => [⟨56, 9, .rw, 0⟩]
  -- R376: BLOCKS
  | .PDK_REPLAY_LEN => [⟨31, 0, .rw, 1⟩]
  -- R377: TICK
  | .PDK_REPLAY_START => [⟨47, 0, .rw, 0⟩]
  -- R378: WRAPS NEXT
  | .PDK_REPLAY_RPTR => [⟨63, 32, .ro, 0⟩, ⟨31, 0, .ro, 0⟩]
  | _ => []

/-- The field maps of the CFG_ registers. -/
def regFields_cfg : Reg → List RegField
  -- R413: FAMILY IDCODE
  | .CFG_IDCODE => [⟨63, 48, .ro, 0x71⟩, ⟨31, 0, .ro, 0x1307296B⟩]
  -- R413: ERROR STATE SOURCE PARTIAL FALLBACK MCAST
  | .CFG_STATUS =>
    [⟨63, 48, .ro, 0⟩, ⟨31, 29, .ro, 0⟩, ⟨28, 27, .ro, 0⟩, ⟨26, 26, .ro, 0⟩, ⟨25, 25, .w1c, 0⟩, ⟨24, 24, .ro, 0⟩]
  -- R414: SELF_MISMATCH MISMATCH REFUSED QUARANTINE FALLBACK LOAD_FAIL LOAD_DONE
  | .CFG_EVENT =>
    [⟨6, 6, .w1c, 0⟩, ⟨5, 5, .w1c, 0⟩, ⟨4, 4, .w1c, 0⟩, ⟨3, 3, .w1c, 0⟩, ⟨2, 2, .w1c, 0⟩, ⟨1, 1, .w1c, 0⟩,
     ⟨0, 0, .w1c, 0⟩]
  -- R414: SELF_MISMATCH MISMATCH REFUSED QUARANTINE FALLBACK LOAD_FAIL LOAD_DONE
  | .CFG_EVENT_EN =>
    [⟨6, 6, .rw, 1⟩, ⟨5, 5, .rw, 1⟩, ⟨4, 4, .rw, 1⟩, ⟨3, 3, .rw, 1⟩, ⟨2, 2, .rw, 1⟩, ⟨1, 1, .rw, 1⟩, ⟨0, 0, .rw, 0⟩]
  -- R415: ADDR
  | .CFG_LOAD_ADDR => [⟨56, 0, .rw, 0⟩]
  -- R415: LEN
  | .CFG_LOAD_LEN => [⟨63, 0, .rw, 0⟩]
  -- R415: OP SOURCE TARGET
  | .CFG_LOAD => [⟨63, 60, .wo, 0⟩, ⟨59, 58, .wo, 0⟩, ⟨57, 56, .wo, 0⟩]
  -- R415: ADDR
  | .CFG_REPORT_ADDR => [⟨56, 0, .rw, 0⟩]
  -- R416: VALID EPOCH
  | .CFG_EPOCH => [⟨32, 32, .ro, 0⟩, ⟨31, 0, .ro, 0⟩]
  -- R415: BYTES
  | .CFG_PROGRESS => [⟨63, 0, .ro, 0⟩]
  -- R415: OP REGION
  | .CFG_RELEASE => [⟨63, 62, .wo, 0⟩, ⟨7, 0, .wo, 0⟩]
  -- R415: MS
  | .CFG_TRUNC_MS => [⟨31, 0, .rw, 0x64⟩]
  -- R416: REGIONS
  | .CFG_QUARANTINE => [⟨63, 0, .ro, 0⟩]
  -- R416: DIGEST
  | .CFG_CONFIG_DIGEST => [⟨63, 0, .ro, 0⟩]
  -- R416: REGION
  | .CFG_REGION_SEL => [⟨7, 0, .rw, 0⟩]
  -- R416: DIGEST
  | .CFG_REGION_DIGEST => [⟨63, 0, .ro, 0⟩]
  -- R416: EPOCH QUARANTINE LOADING STAGE
  | .CFG_REGION_STATUS => [⟨63, 32, .ro, 0⟩, ⟨3, 3, .ro, 0⟩, ⟨2, 2, .ro, 0⟩, ⟨1, 0, .ro, 0⟩]
  -- R416: GEN COUNT
  | .CFG_REFUSED_COUNT => [⟨63, 48, .ro, 0⟩, ⟨47, 0, .ro, 0⟩]
  -- R417: OP SCOPE USE_OWN
  | .CFG_CONSIST_CTL => [⟨63, 62, .wo, 0⟩, ⟨61, 60, .wo, 0⟩, ⟨59, 59, .wo, 0⟩]
  -- R417: LAST FIRST
  | .CFG_CONSIST_RANGE => [⟨31, 16, .rw, 0xFFFF⟩, ⟨15, 0, .rw, 0⟩]
  -- R417: EPOCH
  | .CFG_CONSIST_EPOCH => [⟨31, 0, .rw, 0⟩]
  -- R417: DIGEST
  | .CFG_CONSIST_EXPECT => [⟨63, 0, .rw, 0⟩]
  -- R417: MS
  | .CFG_CONSIST_PERIOD => [⟨31, 0, .rw, 0⟩]
  -- R417: MISMATCH MATCH
  | .CFG_CONSIST_RESULT0 => [⟨63, 32, .ro, 0⟩, ⟨31, 0, .ro, 0⟩]
  -- R417: MISSING LOADING
  | .CFG_CONSIST_RESULT1 => [⟨63, 32, .ro, 0⟩, ⟨31, 0, .ro, 0⟩]
  -- R417: ANY_MISSING ANY_MISMATCH FIRST_MISSING FIRST_MISMATCH
  | .CFG_CONSIST_RESULT2 => [⟨33, 33, .ro, 0⟩, ⟨32, 32, .ro, 0⟩, ⟨31, 16, .ro, 0⟩, ⟨15, 0, .ro, 0⟩]
  -- R417: SEQ ERROR BUSY
  | .CFG_CONSIST_STATUS => [⟨63, 48, .ro, 0⟩, ⟨31, 16, .ro, 0⟩, ⟨0, 0, .ro, 0⟩]
  -- R417: DEVICES OK FAILED REFUSED NO_RESPONSE BUSY
  | .CFG_MCAST_STATUS =>
    [⟨63, 56, .ro, 0⟩, ⟨55, 48, .ro, 0⟩, ⟨47, 40, .ro, 0⟩, ⟨39, 32, .ro, 0⟩, ⟨31, 24, .ro, 0⟩, ⟨0, 0, .ro, 0⟩]
  | _ => []

/-- The field maps of the NOC_ registers. -/
def regFields_noc : Reg → List RegField
  -- R442: HELD_TAGS OUTSTANDING
  | .NOC_STATUS => [⟨48, 32, .ro, 0⟩, ⟨16, 0, .ro, 0⟩]
  -- R443: REMOTE_US LOCAL_US
  | .NOC_TIMEOUT => [⟨51, 32, .rw, 0xC350⟩, ⟨19, 0, .rw, 0x32⟩]
  -- R444: STUCK LATE_RSP SLOT_MISS TIMEOUT ROUTE
  | .NOC_EVENT => [⟨4, 4, .w1c, 0⟩, ⟨3, 3, .w1c, 0⟩, ⟨2, 2, .w1c, 0⟩, ⟨1, 1, .w1c, 0⟩, ⟨0, 0, .w1c, 0⟩]
  -- R444: STUCK LATE_RSP SLOT_MISS TIMEOUT ROUTE
  | .NOC_EVENT_EN => [⟨4, 4, .rw, 1⟩, ⟨3, 3, .rw, 0⟩, ⟨2, 2, .rw, 0⟩, ⟨1, 1, .rw, 1⟩, ⟨0, 0, .rw, 1⟩]
  -- R445: ROUTER POS NET CAUSE SRC_ROUTER SRC_KIND SRC_INDEX
  | .NOC_ROUTE_FAULT =>
    [⟨63, 54, .ro, 0⟩, ⟨53, 50, .ro, 0⟩, ⟨49, 48, .ro, 0⟩, ⟨47, 46, .ro, 0⟩, ⟨45, 36, .ro, 0⟩, ⟨35, 33, .ro, 0⟩,
     ⟨32, 27, .ro, 0⟩]
  -- R448: GEN COUNT
  | .NOC_CNT => [⟨63, 48, .ro, 0⟩, ⟨47, 0, .ro, 0⟩]
  -- R446: EN CORRAL QUEUE DST_ROUTER SRC_ROUTER
  | .NOC_FLOW_A => [⟨63, 63, .ro, 0⟩, ⟨55, 48, .ro, 0⟩, ⟨47, 32, .ro, 0⟩, ⟨25, 16, .ro, 0⟩, ⟨9, 0, .ro, 0⟩]
  -- R446: CODES
  | .NOC_FLOW_ROUTE => [⟨63, 0, .ro, 0⟩]
  -- R446: SLOTS_M1 FIRST_SLOT
  | .NOC_FLOW_SLOTS => [⟨11, 6, .ro, 0⟩, ⟨5, 0, .ro, 0⟩]
  | _ => []

/-- The field maps of the HBM_ registers. -/
def regFields_hbm : Reg → List RegField
  -- R467: TEMP HOT STATE
  | .HBM_STATUS => [⟨23, 16, .ro, 0⟩, ⟨8, 8, .ro, 0⟩, ⟨2, 0, .ro, 0⟩]
  -- R468: FAILED STATE HOT UNCORR CORR
  | .HBM_EVENT => [⟨4, 4, .w1c, 0⟩, ⟨3, 3, .w1c, 0⟩, ⟨2, 2, .w1c, 0⟩, ⟨1, 1, .w1c, 0⟩, ⟨0, 0, .w1c, 0⟩]
  -- R468: FAILED STATE HOT UNCORR CORR
  | .HBM_EVENT_EN => [⟨4, 4, .rw, 1⟩, ⟨3, 3, .rw, 1⟩, ⟨2, 2, .rw, 1⟩, ⟨1, 1, .rw, 1⟩, ⟨0, 0, .rw, 0⟩]
  -- R469: SOURCE ADDR VALID
  | .HBM_ERR_LOG => [⟨63, 61, .ro, 0⟩, ⟨38, 5, .ro, 0⟩, ⟨0, 0, .ro, 0⟩]
  -- R470: SR
  | .HBM_SR_STATE => [⟨31, 0, .ro, 0⟩]
  -- R470: PASSES PAUSED
  | .HBM_SCRUB_STATUS => [⟨63, 32, .ro, 0⟩, ⟨31, 0, .ro, 0⟩]
  -- R471: OP
  | .HBM_MAINT => [⟨63, 60, .wo, 0⟩]
  -- R471: ISSUED DONE ERROR
  | .HBM_MAINT_STATUS => [⟨63, 48, .ro, 0⟩, ⟨47, 32, .ro, 0⟩, ⟨31, 16, .ro, 0⟩]
  -- R472: GEN COUNT
  | .HBM_CNT => [⟨63, 48, .ro, 0⟩, ⟨47, 0, .ro, 0⟩]
  -- R473: IDLE_US
  | .HBM_SR_IDLE => [⟨19, 0, .ro, 0x3E8⟩]
  -- R474: MASK
  | .HBM_HASH => [⟨38, 9, .ro, 0⟩]
  -- R475: STRICT READ WRITE REMOTE
  | .HBM_SPLIT => [⟨32, 32, .ro, 0⟩, ⟨20, 16, .ro, 0x0A⟩, ⟨12, 8, .ro, 6⟩, ⟨4, 0, .ro, 4⟩]
  -- R476: MAX_DEFER_S EN INTERVAL_US
  | .HBM_SCRUB_CFG => [⟨63, 32, .rw, 0x15180⟩, ⟨31, 31, .rw, 1⟩, ⟨19, 0, .rw, 0xA⟩]
  | _ => []

/-- The field maps of the RNL_ registers. -/
def regFields_rnl : Reg → List RegField
  -- R515: LANE_LOCK LANE_INV CAUSE STATE
  | .RNL_PORT_STATUS => [⟨19, 16, .ro, 0⟩, ⟨15, 12, .ro, 0⟩, ⟨6, 4, .ro, 0⟩, ⟨3, 0, .ro, 0⟩]
  -- R516: EN ROLE DIM DIR MEMBER GPORT PEER_HITCH PEER_POS PEER_GPORT
  | .RNL_PORT_CFG =>
    [⟨63, 63, .rw, 1⟩, ⟨62, 61, .rw, 0⟩, ⟨60, 59, .rw, 0⟩, ⟨58, 58, .rw, 0⟩, ⟨57, 57, .rw, 0⟩, ⟨56, 55, .rw, 0⟩,
     ⟨54, 45, .rw, 0⟩, ⟨44, 39, .rw, 0⟩, ⟨38, 37, .rw, 0⟩]
  -- R517: VALID PORT DEV
  | .RNL_PEER => [⟨31, 31, .ro, 0⟩, ⟨23, 20, .ro, 0⟩, ⟨15, 0, .ro, 0⟩]
  -- R518: TIME_LOST ROLE BER_HIGH DISCARD MISWIRE ALIGN FAILED STATE
  | .RNL_EVENT =>
    [⟨7, 7, .w1c, 0⟩, ⟨6, 6, .w1c, 0⟩, ⟨5, 5, .w1c, 0⟩, ⟨4, 4, .w1c, 0⟩, ⟨3, 3, .w1c, 0⟩, ⟨2, 2, .w1c, 0⟩,
     ⟨1, 1, .w1c, 0⟩, ⟨0, 0, .w1c, 0⟩]
  -- R518: TIME_LOST ROLE BER_HIGH DISCARD MISWIRE ALIGN FAILED STATE
  | .RNL_EVENT_EN =>
    [⟨7, 7, .rw, 1⟩, ⟨6, 6, .rw, 1⟩, ⟨5, 5, .rw, 1⟩, ⟨4, 4, .rw, 0⟩, ⟨3, 3, .rw, 1⟩, ⟨2, 2, .rw, 1⟩,
     ⟨1, 1, .rw, 1⟩, ⟨0, 0, .rw, 1⟩]
  -- R519: LIMIT TIMEOUT_NS
  | .RNL_RETRY => [⟨39, 32, .rw, 8⟩, ⟨31, 0, .rw, 0x2710⟩]
  -- R519: TRIM DELAY
  | .RNL_DELAY => [⟨63, 48, .rw, 0⟩, ⟨31, 0, .ro, 0⟩]
  -- R520: START LANE EYE VOFF HOFF BITS_LOG2
  | .RNL_EYE_CTL =>
    [⟨63, 63, .wo, 0⟩, ⟨39, 38, .rw, 0⟩, ⟨37, 36, .rw, 0⟩, ⟨35, 28, .rw, 0⟩, ⟨27, 20, .rw, 0⟩, ⟨19, 14, .rw, 0x1E⟩]
  -- R520: DONE ERRORS
  | .RNL_EYE_RESULT => [⟨63, 63, .ro, 0⟩, ⟨47, 0, .ro, 0⟩]
  -- R521: GEN COUNT
  | .RNL_CNT => [⟨63, 48, .ro, 0⟩, ⟨47, 0, .ro, 0⟩]
  -- R522: HITCH POSITION DX DY DZ ROLE LEAD
  | .RNL_IDENT =>
    [⟨63, 54, .rw, 0⟩, ⟨53, 48, .ro, 0⟩, ⟨47, 45, .ro, 0⟩, ⟨44, 42, .ro, 0⟩, ⟨41, 39, .ro, 0⟩, ⟨38, 37, .rw, 0⟩,
     ⟨36, 36, .ro, 0⟩]
  -- R522: ROOT PARENT
  | .RNL_STRING => [⟨63, 54, .rw, 0⟩, ⟨53, 44, .rw, 0⟩]
  -- R522: LOCKED OFFSET
  | .RNL_TIME_STATUS => [⟨63, 63, .ro, 0⟩, ⟨31, 0, .ro, 0⟩]
  -- R522: ADDR
  | .RNL_RGROUP_BASE => [⟨56, 4, .rw, 0⟩]
  -- R522: EN PREFIX
  | .RNL_RELAY_CFG => [⟨63, 63, .rw, 0⟩, ⟨25, 0, .rw, 0⟩]
  -- R522: four entries of VALID, gateway position and global port; bits [6:0] of each entry are reserved
  | .RNL_GROUTE =>
    [⟨63, 63, .rw, 0⟩, ⟨62, 57, .rw, 0⟩, ⟨56, 55, .rw, 0⟩, ⟨47, 47, .rw, 0⟩, ⟨46, 41, .rw, 0⟩, ⟨40, 39, .rw, 0⟩,
     ⟨31, 31, .rw, 0⟩, ⟨30, 25, .rw, 0⟩, ⟨24, 23, .rw, 0⟩, ⟨15, 15, .rw, 0⟩, ⟨14, 9, .rw, 0⟩, ⟨8, 7, .rw, 0⟩]
  | _ => []

/-- The field maps of the HST_ registers. -/
def regFields_hst : Reg → List RegField
  -- R328: LANE_LOCK BOOT AN_DONE PHY FEC_LOCK PCS_LOCK SIGNAL LINK_UP
  | .HST_PORT_STATUS =>
    [⟨11, 8, .ro, 0⟩, ⟨7, 7, .ro, 0⟩, ⟨6, 6, .ro, 0⟩, ⟨5, 4, .ro, 0⟩, ⟨3, 3, .ro, 0⟩, ⟨2, 2, .ro, 0⟩,
     ⟨1, 1, .ro, 0⟩, ⟨0, 0, .ro, 0⟩]
  -- R329: VLAN_EN VLAN_ID DSCP PCP PHY EN
  | .HST_PORT_CFG =>
    [⟨44, 44, .rw, 0⟩, ⟨43, 32, .rw, 0⟩, ⟨31, 26, .rw, 0x1A⟩, ⟨23, 21, .rw, 3⟩, ⟨5, 4, .rw, 0⟩, ⟨0, 0, .rw, 0⟩]
  -- R330: MAC
  | .HST_MAC => [⟨47, 0, .rw, 0⟩]
  -- R330: EN ADDR
  | .HST_IPV4 => [⟨32, 32, .rw, 0⟩, ⟨31, 0, .rw, 0⟩]
  -- R330: ADDR_HI
  | .HST_IPV6_HI => [⟨63, 0, .rw, 0⟩]
  -- R330: ADDR_LO
  | .HST_IPV6_LO => [⟨63, 0, .rw, 0⟩]
  -- R331: XON_KIB XOFF_KIB TX_EN RX_EN
  | .HST_PFC => [⟨63, 48, .rw, 0x200⟩, ⟨47, 32, .rw, 0x280⟩, ⟨15, 8, .rw, 8⟩, ⟨7, 0, .rw, 8⟩]
  -- R332: RATE_STEP CNP_INTERVAL REACT NOTIFY
  | .HST_CC => [⟨47, 32, .rw, 0x1388⟩, ⟨31, 16, .rw, 0x32⟩, ⟨1, 1, .rw, 1⟩, ⟨0, 0, .rw, 1⟩]
  -- R333: BAD_DOORBELL QUEUE_STOPPED QP_ERROR FEC_UNCORR LINK_CHANGE
  | .HST_EVENT => [⟨4, 4, .w1c, 0⟩, ⟨3, 3, .w1c, 0⟩, ⟨2, 2, .w1c, 0⟩, ⟨1, 1, .w1c, 0⟩, ⟨0, 0, .w1c, 0⟩]
  -- R333: BAD_DOORBELL QUEUE_STOPPED QP_ERROR FEC_UNCORR LINK_CHANGE
  | .HST_EVENT_EN => [⟨4, 4, .rw, 1⟩, ⟨3, 3, .rw, 1⟩, ⟨2, 2, .rw, 1⟩, ⟨1, 1, .rw, 1⟩, ⟨0, 0, .rw, 1⟩]
  -- R335: GEN COUNT
  | .HST_CNT => [⟨63, 48, .ro, 0⟩, ⟨47, 0, .ro, 0⟩]
  -- R334: ROOT VALID
  | .HST_XLATE_ROOT => [⟨56, 12, .rw, 0⟩, ⟨0, 0, .rw, 0⟩]
  -- R334: ROOT VALID
  | .HST_XLATE_ROOT_PRIV => [⟨56, 12, .rw, 0⟩, ⟨0, 0, .rw, 0⟩]
  -- R334: SCOPE CONTEXT VA
  | .HST_XLATE_INVAL => [⟨63, 62, .wo, 0⟩, ⟨61, 53, .wo, 0⟩, ⟨40, 0, .wo, 0⟩]
  -- R334: ADDR
  | .HST_QTABLE_BASE => [⟨56, 12, .rw, 0⟩]
  -- R334: ADDR
  | .HST_QP_TABLE_BASE => [⟨56, 12, .rw, 0⟩]
  -- R334: ADDR
  | .HST_MR_TABLE_BASE => [⟨56, 12, .rw, 0⟩]
  -- R334: OP QUEUE START
  | .HST_QCTL => [⟨63, 60, .wo, 0⟩, ⟨47, 32, .wo, 0⟩, ⟨31, 0, .wo, 0⟩]
  -- R334: OP INDEX
  | .HST_QP_CMD => [⟨63, 60, .wo, 0⟩, ⟨12, 0, .wo, 0⟩]
  -- R334: ISSUED DONE
  | .HST_CTL_STATUS => [⟨63, 32, .ro, 0⟩, ⟨31, 0, .ro, 0⟩]
  | _ => []

/-- The field maps of the GRM_ registers. -/
def regFields_grm : Reg → List RegField
  -- R552: CORES PHASE
  | .GRM_STATUS => [⟨15, 12, .ro, 0⟩, ⟨3, 0, .ro, 0⟩]
  -- R552: MAJOR MINOR PATCH BUILD
  | .GRM_FW_VERSION => [⟨63, 48, .ro, 0⟩, ⟨47, 32, .ro, 0⟩, ⟨31, 16, .ro, 0⟩, ⟨15, 0, .ro, 0⟩]
  -- R552: SVN
  | .GRM_FW_SVN => [⟨7, 0, .ro, 0⟩]
  -- R552: MAJOR MINOR
  | .GRM_ROM_INFO => [⟨63, 48, .ro, 1⟩, ⟨47, 32, .ro, 0⟩]
  -- R552: DIGEST
  | .GRM_FW_DIGEST => [⟨63, 0, .ro, 0⟩]
  -- R552: BITS
  | .GRM_FW_FEATURES => [⟨63, 0, .ro, 0⟩]
  -- R552: BITS
  | .GRM_DRV_FEATURES => [⟨9, 0, .rw, 0⟩]
  -- R552: BITS
  | .GRM_FEATURES_ACTIVE => [⟨63, 0, .ro, 0⟩]
  -- R552: OP SEQ LEN
  | .GRM_REQ => [⟨63, 56, .wo, 0⟩, ⟨47, 32, .wo, 0⟩, ⟨31, 0, .wo, 0⟩]
  -- R552: BUSY RESULT SEQ LEN
  | .GRM_REQ_STATUS => [⟨63, 63, .ro, 0⟩, ⟨55, 48, .ro, 0⟩, ⟨47, 32, .ro, 0⟩, ⟨31, 0, .ro, 0⟩]
  -- R553: FEATURES HANDOVER FAULT REQ_DONE REQ_REFUSED
  | .GRM_EVENT => [⟨4, 4, .w1c, 0⟩, ⟨3, 3, .w1c, 0⟩, ⟨2, 2, .w1c, 0⟩, ⟨1, 1, .w1c, 0⟩, ⟨0, 0, .w1c, 0⟩]
  -- R553: FEATURES HANDOVER FAULT REQ_DONE REQ_REFUSED
  | .GRM_EVENT_EN => [⟨4, 4, .rw, 1⟩, ⟨3, 3, .rw, 1⟩, ⟨2, 2, .rw, 1⟩, ⟨1, 1, .rw, 0⟩, ⟨0, 0, .rw, 1⟩]
  -- R552: GEN COUNT
  | .GRM_HEARTBEAT => [⟨63, 48, .ro, 0⟩, ⟨47, 0, .ro, 0⟩]
  -- R552: GEN COUNT
  | .GRM_FAULT_COUNT => [⟨63, 48, .ro, 0⟩, ⟨47, 0, .ro, 0⟩]
  -- R552: STATE REASON ATTEMPTS
  | .GRM_BOOT_STATUS => [⟨63, 56, .ro, 0⟩, ⟨55, 48, .ro, 0⟩, ⟨47, 32, .ro, 0⟩]
  -- R552: DATA
  | .GRM_MBOX => [⟨63, 0, .rw, 0⟩]
  | _ => []

/-- The field maps of the DBG_ registers. -/
def regFields_dbg : Reg → List RegField
  -- R574: GEN COUNT
  | .DBG_BAD_REG_ACCESS => [⟨63, 48, .ro, 0⟩, ⟨47, 0, .ro, 0⟩]
  -- R574: TRACE_DONE TRACE_LOST BAD_REG
  | .DBG_EVENT => [⟨2, 2, .w1c, 0⟩, ⟨1, 1, .w1c, 0⟩, ⟨0, 0, .w1c, 0⟩]
  -- R574: EN
  | .DBG_EVENT_EN => [⟨2, 0, .rw, 0⟩]
  -- R574: EN WRAP INTERVAL_NS
  | .DBG_TRACE_CFG => [⟨63, 63, .rw, 0⟩, ⟨62, 62, .rw, 0⟩, ⟨51, 32, .rw, 0x3E8⟩]
  -- R574: ACTIVE DONE
  | .DBG_TRACE_STATUS => [⟨7, 4, .ro, 0⟩, ⟨3, 0, .ro, 0⟩]
  -- R574: ADDR
  | .DBG_TRACE_BASE => [⟨56, 9, .rw, 0⟩]
  -- R574: BLOCKS
  | .DBG_TRACE_LEN => [⟨31, 0, .rw, 1⟩]
  -- R574: WRAPS NEXT
  | .DBG_TRACE_WPTR => [⟨63, 32, .ro, 0⟩, ⟨31, 0, .ro, 0⟩]
  -- R574: GEN COUNT
  | .DBG_TRACE_LOST => [⟨63, 48, .ro, 0⟩, ⟨47, 0, .ro, 0⟩]
  -- R574: STALLS
  | .DBG_TRACE_STALL => [⟨63, 0, .rw, 0⟩]
  -- R574: EN REL ADDR
  | .DBG_LATCH_SEL => [⟨63, 63, .rw, 0⟩, ⟨62, 62, .rw, 0⟩, ⟨56, 3, .rw, 0⟩]
  -- R574: EN LOG2 ADDR
  | .DBG_LATCH_RING => [⟨63, 63, .rw, 0⟩, ⟨62, 58, .rw, 4⟩, ⟨56, 9, .rw, 0⟩]
  -- R574: NEXT
  | .DBG_LATCH_INDEX => [⟨63, 0, .ro, 0⟩]
  -- R574: GEN COUNT
  | .DBG_OCC => [⟨63, 48, .ro, 0⟩, ⟨47, 0, .ro, 0⟩]
  | _ => []

/-- The field maps of the PWR_ registers. -/
def regFields_pwr : Reg → List RegField
  -- R636: PMB_FAULT CAPPED HOT LOOP
  | .PWR_STATUS => [⟨19, 16, .ro, 0⟩, ⟨15, 12, .ro, 0⟩, ⟨11, 8, .ro, 0⟩, ⟨0, 0, .ro, 0⟩]
  -- R636: TARGET VMAX_MV VMIN_MV
  | .PWR_LOOP => [⟨43, 32, .ro, 0x708⟩, ⟨31, 16, .ro, 0x352⟩, ⟨15, 0, .ro, 0x28A⟩]
  -- R636: WATTS
  | .PWR_LIMIT => [⟨15, 0, .rw, 0x76C⟩]
  -- R636: WARN_C
  | .PWR_THERM => [⟨7, 0, .rw, 0x5F⟩]
  -- R636: PMB_FAULT CAPPED HOT
  | .PWR_EVENT => [⟨2, 2, .w1c, 0⟩, ⟨1, 1, .w1c, 0⟩, ⟨0, 0, .w1c, 0⟩]
  -- R636: EN
  | .PWR_EVENT_EN => [⟨2, 0, .rw, 5⟩]
  -- R636: TEMP VMEAS SETPOINT IOUT
  | .PWR_DIE => [⟨63, 48, .ro, 0⟩, ⟨47, 32, .ro, 0⟩, ⟨31, 16, .ro, 0x2EE⟩, ⟨15, 0, .ro, 0⟩]
  -- R636: ADDR
  | .PWR_VRM => [⟨6, 0, .ro, 0⟩]
  -- R636: GEN COUNT
  | .PWR_ENERGY => [⟨63, 48, .ro, 0⟩, ⟨47, 0, .ro, 0⟩]
  | _ => []

/-- The field maps of the SEC_ registers. -/
def regFields_sec : Reg → List RegField
  -- R554: OWNER_SLOTS VENDOR_SLOTS SESSION_KEY IMAGE_KEY ID_KEY
  | .SEC_STATUS => [⟨23, 16, .ro, 0⟩, ⟨11, 8, .ro, 0⟩, ⟨2, 2, .ro, 0⟩, ⟨1, 1, .ro, 0⟩, ⟨0, 0, .ro, 0⟩]
  -- R554: MIN
  | .SEC_SVN => [⟨7, 0, .ro, 0⟩]
  -- R554: SERIAL
  | .SEC_SERIAL => [⟨63, 0, .ro, 0⟩]
  -- R554: KEY
  | .SEC_ID_PUB => [⟨63, 0, .ro, 0⟩]
  -- R554: HASH
  | .SEC_OWNER_HASH => [⟨63, 0, .ro, 0⟩]
  -- R554: DIGEST
  | .SEC_FUSE_DIGEST => [⟨63, 0, .ro, 0⟩]
  | _ => []

/-- The block, offset, stride and count of a register (R114, R163, R244, R250, R327, R367, R412, R441, R466, R514, R551, R554,
R573, R635), with its field map. -/
def regInfo : Reg → RegInfo
  | .STL_ID => ⟨.stl, 0x0, 0, 1, regFields_stl .STL_ID⟩
  | .STL_STATUS => ⟨.stl, 0x8, 0, 1, regFields_stl .STL_STATUS⟩
  | .STL_GAIT_METER => ⟨.stl, 0x10, 0, 1, regFields_stl .STL_GAIT_METER⟩
  | .STL_GAIT_LIMIT => ⟨.stl, 0x18, 0, 1, regFields_stl .STL_GAIT_LIMIT⟩
  | .STL_EVENT => ⟨.stl, 0x20, 0, 1, regFields_stl .STL_EVENT⟩
  | .STL_EVENT_EN => ⟨.stl, 0x28, 0, 1, regFields_stl .STL_EVENT_EN⟩
  | .STL_REPAIR => ⟨.stl, 0x30, 0, 1, regFields_stl .STL_REPAIR⟩
  | .STL_BEAT_COUNT => ⟨.stl, 0x38, 0, 1, regFields_stl .STL_BEAT_COUNT⟩
  | .STL_RELAY_COUNT => ⟨.stl, 0x40, 0, 1, regFields_stl .STL_RELAY_COUNT⟩
  | .STL_RELAY_WAIT => ⟨.stl, 0x48, 0, 1, regFields_stl .STL_RELAY_WAIT⟩
  | .STL_WAIT_ROW => ⟨.stl, 0x100, 8, 8, regFields_stl .STL_WAIT_ROW⟩
  | .STL_WAIT_COL => ⟨.stl, 0x140, 8, 8, regFields_stl .STL_WAIT_COL⟩
  | .STL_ROUTE => ⟨.stl, 0x400, 8, 128, regFields_stl .STL_ROUTE⟩
  | .STL_SEQ_STATUS => ⟨.stl, 0x800, 0, 1, regFields_stl .STL_SEQ_STATUS⟩
  | .STL_SEQ_BANK => ⟨.stl, 0x808, 8, 2, regFields_stl .STL_SEQ_BANK⟩
  | .STL_PSTORE_VERIFIED => ⟨.stl, 0x818, 0, 1, regFields_stl .STL_PSTORE_VERIFIED⟩
  | .STL_SEQ_INSTR => ⟨.stl, 0x820, 0, 1, regFields_stl .STL_SEQ_INSTR⟩
  | .STL_SEQ_SWITCHES => ⟨.stl, 0x828, 0, 1, regFields_stl .STL_SEQ_SWITCHES⟩
  | .STL_SEQ_IDLE => ⟨.stl, 0x830, 0, 1, regFields_stl .STL_SEQ_IDLE⟩
  | .STL_SEQ_B0_S => ⟨.stl, 0x900, 8, 32, regFields_stl .STL_SEQ_B0_S⟩
  | .STL_SEQ_B1_S => ⟨.stl, 0xA00, 8, 32, regFields_stl .STL_SEQ_B1_S⟩
  | .ACS_STATUS => ⟨.acs, 0x0, 0, 1, regFields_acs .ACS_STATUS⟩
  | .ACS_LEASED => ⟨.acs, 0x8, 0, 1, regFields_acs .ACS_LEASED⟩
  | .ACS_RESIDENT => ⟨.acs, 0x10, 0, 1, regFields_acs .ACS_RESIDENT⟩
  | .ACS_WIDE => ⟨.acs, 0x18, 0, 1, regFields_acs .ACS_WIDE⟩
  | .ACS_EVENT => ⟨.acs, 0x20, 0, 1, regFields_acs .ACS_EVENT⟩
  | .ACS_EVENT_EN => ⟨.acs, 0x28, 0, 1, regFields_acs .ACS_EVENT_EN⟩
  | .ACS_LEASE_LIMIT => ⟨.acs, 0x30, 0, 1, regFields_acs .ACS_LEASE_LIMIT⟩
  | .ACS_CONFLICT_COUNT => ⟨.acs, 0x38, 0, 1, regFields_acs .ACS_CONFLICT_COUNT⟩
  | .ACS_SPILL_COUNT => ⟨.acs, 0x40, 0, 1, regFields_acs .ACS_SPILL_COUNT⟩
  | .ACS_DRAIN_COUNT => ⟨.acs, 0x48, 0, 1, regFields_acs .ACS_DRAIN_COUNT⟩
  | .ACS_ECC_COUNT => ⟨.acs, 0x50, 0, 1, regFields_acs .ACS_ECC_COUNT⟩
  | .ACS_SEG_STATE => ⟨.acs, 0x200, 8, 64, regFields_acs .ACS_SEG_STATE⟩
  | .ACS_SEG_PROD => ⟨.acs, 0x400, 8, 64, regFields_acs .ACS_SEG_PROD⟩
  | .VEC_STATUS => ⟨.vec, 0x0, 0, 1, regFields_vec .VEC_STATUS⟩
  | .VEC_EVENT => ⟨.vec, 0x8, 0, 1, regFields_vec .VEC_EVENT⟩
  | .VEC_EVENT_EN => ⟨.vec, 0x10, 0, 1, regFields_vec .VEC_EVENT_EN⟩
  | .VEC_LANE_OPS => ⟨.vec, 0x18, 0, 1, regFields_vec .VEC_LANE_OPS⟩
  | .VEC_CONVERTS => ⟨.vec, 0x20, 0, 1, regFields_vec .VEC_CONVERTS⟩
  | .VEC_ECC_COUNT => ⟨.vec, 0x28, 0, 1, regFields_vec .VEC_ECC_COUNT⟩
  | .VEC_VIEW_SEL => ⟨.vec, 0x80, 0, 1, regFields_vec .VEC_VIEW_SEL⟩
  | .VEC_VIEW => ⟨.vec, 0x100, 8, 16, regFields_vec .VEC_VIEW⟩
  | .PDK_ID => ⟨.pdk, 0x0, 0, 1, regFields_pdk .PDK_ID⟩
  | .PDK_STATUS => ⟨.pdk, 0x8, 0, 1, regFields_pdk .PDK_STATUS⟩
  | .PDK_GAIT => ⟨.pdk, 0x10, 0, 1, regFields_pdk .PDK_GAIT⟩
  | .PDK_EVENT => ⟨.pdk, 0x20, 0, 1, regFields_pdk .PDK_EVENT⟩
  | .PDK_EVENT_EN => ⟨.pdk, 0x28, 0, 1, regFields_pdk .PDK_EVENT_EN⟩
  | .PDK_TICK => ⟨.pdk, 0x30, 0, 1, regFields_pdk .PDK_TICK⟩
  | .PDK_EDGE_COUNT => ⟨.pdk, 0x38, 0, 1, regFields_pdk .PDK_EDGE_COUNT⟩
  | .PDK_STRETCH_NS => ⟨.pdk, 0x40, 0, 1, regFields_pdk .PDK_STRETCH_NS⟩
  | .PDK_STOP_NS => ⟨.pdk, 0x48, 0, 1, regFields_pdk .PDK_STOP_NS⟩
  | .PDK_CH_IN_WORDS => ⟨.pdk, 0x50, 0, 1, regFields_pdk .PDK_CH_IN_WORDS⟩
  | .PDK_CH_OUT_WORDS => ⟨.pdk, 0x58, 0, 1, regFields_pdk .PDK_CH_OUT_WORDS⟩
  | .PDK_CH_DROP_WORDS => ⟨.pdk, 0x60, 0, 1, regFields_pdk .PDK_CH_DROP_WORDS⟩
  | .PDK_PROBE_SAMPLES => ⟨.pdk, 0x68, 0, 1, regFields_pdk .PDK_PROBE_SAMPLES⟩
  | .PDK_PROBE_LOST => ⟨.pdk, 0x70, 0, 1, regFields_pdk .PDK_PROBE_LOST⟩
  | .PDK_PROBE_CTL => ⟨.pdk, 0x100, 0, 1, regFields_pdk .PDK_PROBE_CTL⟩
  | .PDK_PROBE_BASE => ⟨.pdk, 0x108, 0, 1, regFields_pdk .PDK_PROBE_BASE⟩
  | .PDK_PROBE_LEN => ⟨.pdk, 0x110, 0, 1, regFields_pdk .PDK_PROBE_LEN⟩
  | .PDK_PROBE_START => ⟨.pdk, 0x118, 0, 1, regFields_pdk .PDK_PROBE_START⟩
  | .PDK_PROBE_WPTR => ⟨.pdk, 0x120, 0, 1, regFields_pdk .PDK_PROBE_WPTR⟩
  | .PDK_PROBE_SEL => ⟨.pdk, 0x140, 8, 8, regFields_pdk .PDK_PROBE_SEL⟩
  | .PDK_REPLAY_CTL => ⟨.pdk, 0x180, 0, 1, regFields_pdk .PDK_REPLAY_CTL⟩
  | .PDK_REPLAY_BASE => ⟨.pdk, 0x188, 0, 1, regFields_pdk .PDK_REPLAY_BASE⟩
  | .PDK_REPLAY_LEN => ⟨.pdk, 0x190, 0, 1, regFields_pdk .PDK_REPLAY_LEN⟩
  | .PDK_REPLAY_START => ⟨.pdk, 0x198, 0, 1, regFields_pdk .PDK_REPLAY_START⟩
  | .PDK_REPLAY_RPTR => ⟨.pdk, 0x1A0, 0, 1, regFields_pdk .PDK_REPLAY_RPTR⟩
  | .CFG_IDCODE => ⟨.cfg, 0x0, 0, 1, regFields_cfg .CFG_IDCODE⟩
  | .CFG_STATUS => ⟨.cfg, 0x8, 0, 1, regFields_cfg .CFG_STATUS⟩
  | .CFG_EVENT => ⟨.cfg, 0x10, 0, 1, regFields_cfg .CFG_EVENT⟩
  | .CFG_EVENT_EN => ⟨.cfg, 0x18, 0, 1, regFields_cfg .CFG_EVENT_EN⟩
  | .CFG_LOAD_ADDR => ⟨.cfg, 0x20, 0, 1, regFields_cfg .CFG_LOAD_ADDR⟩
  | .CFG_LOAD_LEN => ⟨.cfg, 0x28, 0, 1, regFields_cfg .CFG_LOAD_LEN⟩
  | .CFG_LOAD => ⟨.cfg, 0x30, 0, 1, regFields_cfg .CFG_LOAD⟩
  | .CFG_REPORT_ADDR => ⟨.cfg, 0x38, 0, 1, regFields_cfg .CFG_REPORT_ADDR⟩
  | .CFG_EPOCH => ⟨.cfg, 0x40, 0, 1, regFields_cfg .CFG_EPOCH⟩
  | .CFG_PROGRESS => ⟨.cfg, 0x48, 0, 1, regFields_cfg .CFG_PROGRESS⟩
  | .CFG_RELEASE => ⟨.cfg, 0x50, 0, 1, regFields_cfg .CFG_RELEASE⟩
  | .CFG_TRUNC_MS => ⟨.cfg, 0x58, 0, 1, regFields_cfg .CFG_TRUNC_MS⟩
  | .CFG_QUARANTINE => ⟨.cfg, 0x60, 8, 4, regFields_cfg .CFG_QUARANTINE⟩
  | .CFG_CONFIG_DIGEST => ⟨.cfg, 0x80, 8, 4, regFields_cfg .CFG_CONFIG_DIGEST⟩
  | .CFG_REGION_SEL => ⟨.cfg, 0x100, 0, 1, regFields_cfg .CFG_REGION_SEL⟩
  | .CFG_REGION_DIGEST => ⟨.cfg, 0x108, 8, 4, regFields_cfg .CFG_REGION_DIGEST⟩
  | .CFG_REGION_STATUS => ⟨.cfg, 0x128, 0, 1, regFields_cfg .CFG_REGION_STATUS⟩
  | .CFG_REFUSED_COUNT => ⟨.cfg, 0x130, 0, 1, regFields_cfg .CFG_REFUSED_COUNT⟩
  | .CFG_CONSIST_CTL => ⟨.cfg, 0x200, 0, 1, regFields_cfg .CFG_CONSIST_CTL⟩
  | .CFG_CONSIST_RANGE => ⟨.cfg, 0x208, 0, 1, regFields_cfg .CFG_CONSIST_RANGE⟩
  | .CFG_CONSIST_EPOCH => ⟨.cfg, 0x210, 0, 1, regFields_cfg .CFG_CONSIST_EPOCH⟩
  | .CFG_CONSIST_EXPECT => ⟨.cfg, 0x218, 8, 4, regFields_cfg .CFG_CONSIST_EXPECT⟩
  | .CFG_CONSIST_PERIOD => ⟨.cfg, 0x238, 0, 1, regFields_cfg .CFG_CONSIST_PERIOD⟩
  | .CFG_CONSIST_RESULT0 => ⟨.cfg, 0x240, 0, 1, regFields_cfg .CFG_CONSIST_RESULT0⟩
  | .CFG_CONSIST_RESULT1 => ⟨.cfg, 0x248, 0, 1, regFields_cfg .CFG_CONSIST_RESULT1⟩
  | .CFG_CONSIST_RESULT2 => ⟨.cfg, 0x250, 0, 1, regFields_cfg .CFG_CONSIST_RESULT2⟩
  | .CFG_CONSIST_STATUS => ⟨.cfg, 0x258, 0, 1, regFields_cfg .CFG_CONSIST_STATUS⟩
  | .CFG_MCAST_STATUS => ⟨.cfg, 0x300, 0, 1, regFields_cfg .CFG_MCAST_STATUS⟩
  | .NOC_STATUS => ⟨.noc, 0x0, 0, 1, regFields_noc .NOC_STATUS⟩
  | .NOC_TIMEOUT => ⟨.noc, 0x8, 0, 1, regFields_noc .NOC_TIMEOUT⟩
  | .NOC_EVENT => ⟨.noc, 0x10, 0, 1, regFields_noc .NOC_EVENT⟩
  | .NOC_EVENT_EN => ⟨.noc, 0x18, 0, 1, regFields_noc .NOC_EVENT_EN⟩
  | .NOC_ROUTE_FAULT => ⟨.noc, 0x20, 0, 1, regFields_noc .NOC_ROUTE_FAULT⟩
  | .NOC_CNT => ⟨.noc, 0x100, 8, 7, regFields_noc .NOC_CNT⟩
  | .NOC_FLOW_A => ⟨.noc, 0x1000, 32, 64, regFields_noc .NOC_FLOW_A⟩
  | .NOC_FLOW_ROUTE => ⟨.noc, 0x1008, 32, 64, regFields_noc .NOC_FLOW_ROUTE⟩
  | .NOC_FLOW_SLOTS => ⟨.noc, 0x1010, 32, 64, regFields_noc .NOC_FLOW_SLOTS⟩
  | .HBM_STATUS => ⟨.hbm, 0x0, 0, 1, regFields_hbm .HBM_STATUS⟩
  | .HBM_EVENT => ⟨.hbm, 0x8, 0, 1, regFields_hbm .HBM_EVENT⟩
  | .HBM_EVENT_EN => ⟨.hbm, 0x10, 0, 1, regFields_hbm .HBM_EVENT_EN⟩
  | .HBM_ERR_LOG => ⟨.hbm, 0x18, 0, 1, regFields_hbm .HBM_ERR_LOG⟩
  | .HBM_SR_STATE => ⟨.hbm, 0x20, 0, 1, regFields_hbm .HBM_SR_STATE⟩
  | .HBM_SCRUB_STATUS => ⟨.hbm, 0x28, 0, 1, regFields_hbm .HBM_SCRUB_STATUS⟩
  | .HBM_MAINT => ⟨.hbm, 0x30, 0, 1, regFields_hbm .HBM_MAINT⟩
  | .HBM_MAINT_STATUS => ⟨.hbm, 0x38, 0, 1, regFields_hbm .HBM_MAINT_STATUS⟩
  | .HBM_CNT => ⟨.hbm, 0x100, 8, 11, regFields_hbm .HBM_CNT⟩
  | .HBM_SR_IDLE => ⟨.hbm, 0x200, 8, 32, regFields_hbm .HBM_SR_IDLE⟩
  | .HBM_HASH => ⟨.hbm, 0x8000, 8, 14, regFields_hbm .HBM_HASH⟩
  | .HBM_SPLIT => ⟨.hbm, 0x8070, 0, 1, regFields_hbm .HBM_SPLIT⟩
  | .HBM_SCRUB_CFG => ⟨.hbm, 0x8078, 0, 1, regFields_hbm .HBM_SCRUB_CFG⟩
  | .RNL_PORT_STATUS => ⟨.rnl, 0x0, 0, 1, regFields_rnl .RNL_PORT_STATUS⟩
  | .RNL_PORT_CFG => ⟨.rnl, 0x8, 0, 1, regFields_rnl .RNL_PORT_CFG⟩
  | .RNL_PEER => ⟨.rnl, 0x10, 0, 1, regFields_rnl .RNL_PEER⟩
  | .RNL_EVENT => ⟨.rnl, 0x18, 0, 1, regFields_rnl .RNL_EVENT⟩
  | .RNL_EVENT_EN => ⟨.rnl, 0x20, 0, 1, regFields_rnl .RNL_EVENT_EN⟩
  | .RNL_RETRY => ⟨.rnl, 0x28, 0, 1, regFields_rnl .RNL_RETRY⟩
  | .RNL_DELAY => ⟨.rnl, 0x30, 0, 1, regFields_rnl .RNL_DELAY⟩
  | .RNL_EYE_CTL => ⟨.rnl, 0x38, 0, 1, regFields_rnl .RNL_EYE_CTL⟩
  | .RNL_EYE_RESULT => ⟨.rnl, 0x40, 0, 1, regFields_rnl .RNL_EYE_RESULT⟩
  | .RNL_CNT => ⟨.rnl, 0x100, 8, 9, regFields_rnl .RNL_CNT⟩
  | .RNL_IDENT => ⟨.rnl, 0x8000, 0, 1, regFields_rnl .RNL_IDENT⟩
  | .RNL_STRING => ⟨.rnl, 0x8008, 0, 1, regFields_rnl .RNL_STRING⟩
  | .RNL_TIME_STATUS => ⟨.rnl, 0x8010, 0, 1, regFields_rnl .RNL_TIME_STATUS⟩
  | .RNL_RGROUP_BASE => ⟨.rnl, 0x8018, 0, 1, regFields_rnl .RNL_RGROUP_BASE⟩
  | .RNL_RELAY_CFG => ⟨.rnl, 0x8020, 0, 1, regFields_rnl .RNL_RELAY_CFG⟩
  | .RNL_GROUTE => ⟨.rnl, 0x8400, 8, 256, regFields_rnl .RNL_GROUTE⟩
  | .HST_PORT_STATUS => ⟨.hst, 0x0, 0, 1, regFields_hst .HST_PORT_STATUS⟩
  | .HST_PORT_CFG => ⟨.hst, 0x8, 0, 1, regFields_hst .HST_PORT_CFG⟩
  | .HST_MAC => ⟨.hst, 0x10, 0, 1, regFields_hst .HST_MAC⟩
  | .HST_IPV4 => ⟨.hst, 0x18, 0, 1, regFields_hst .HST_IPV4⟩
  | .HST_IPV6_HI => ⟨.hst, 0x20, 0, 1, regFields_hst .HST_IPV6_HI⟩
  | .HST_IPV6_LO => ⟨.hst, 0x28, 0, 1, regFields_hst .HST_IPV6_LO⟩
  | .HST_PFC => ⟨.hst, 0x30, 0, 1, regFields_hst .HST_PFC⟩
  | .HST_CC => ⟨.hst, 0x38, 0, 1, regFields_hst .HST_CC⟩
  | .HST_EVENT => ⟨.hst, 0x40, 0, 1, regFields_hst .HST_EVENT⟩
  | .HST_EVENT_EN => ⟨.hst, 0x48, 0, 1, regFields_hst .HST_EVENT_EN⟩
  | .HST_CNT => ⟨.hst, 0x100, 8, 14, regFields_hst .HST_CNT⟩
  | .HST_XLATE_ROOT => ⟨.hst, 0x8000, 8, 256, regFields_hst .HST_XLATE_ROOT⟩
  | .HST_XLATE_ROOT_PRIV => ⟨.hst, 0x8800, 0, 1, regFields_hst .HST_XLATE_ROOT_PRIV⟩
  | .HST_XLATE_INVAL => ⟨.hst, 0x8808, 0, 1, regFields_hst .HST_XLATE_INVAL⟩
  | .HST_QTABLE_BASE => ⟨.hst, 0x8810, 0, 1, regFields_hst .HST_QTABLE_BASE⟩
  | .HST_QP_TABLE_BASE => ⟨.hst, 0x8818, 0, 1, regFields_hst .HST_QP_TABLE_BASE⟩
  | .HST_MR_TABLE_BASE => ⟨.hst, 0x8820, 0, 1, regFields_hst .HST_MR_TABLE_BASE⟩
  | .HST_QCTL => ⟨.hst, 0x8828, 0, 1, regFields_hst .HST_QCTL⟩
  | .HST_QP_CMD => ⟨.hst, 0x8830, 0, 1, regFields_hst .HST_QP_CMD⟩
  | .HST_CTL_STATUS => ⟨.hst, 0x8838, 0, 1, regFields_hst .HST_CTL_STATUS⟩
  | .GRM_STATUS => ⟨.grm, 0x0, 0, 1, regFields_grm .GRM_STATUS⟩
  | .GRM_FW_VERSION => ⟨.grm, 0x8, 0, 1, regFields_grm .GRM_FW_VERSION⟩
  | .GRM_FW_SVN => ⟨.grm, 0x10, 0, 1, regFields_grm .GRM_FW_SVN⟩
  | .GRM_ROM_INFO => ⟨.grm, 0x18, 0, 1, regFields_grm .GRM_ROM_INFO⟩
  | .GRM_FW_DIGEST => ⟨.grm, 0x20, 8, 4, regFields_grm .GRM_FW_DIGEST⟩
  | .GRM_FW_FEATURES => ⟨.grm, 0x40, 0, 1, regFields_grm .GRM_FW_FEATURES⟩
  | .GRM_DRV_FEATURES => ⟨.grm, 0x48, 0, 1, regFields_grm .GRM_DRV_FEATURES⟩
  | .GRM_FEATURES_ACTIVE => ⟨.grm, 0x50, 0, 1, regFields_grm .GRM_FEATURES_ACTIVE⟩
  | .GRM_REQ => ⟨.grm, 0x58, 0, 1, regFields_grm .GRM_REQ⟩
  | .GRM_REQ_STATUS => ⟨.grm, 0x60, 0, 1, regFields_grm .GRM_REQ_STATUS⟩
  | .GRM_EVENT => ⟨.grm, 0x68, 0, 1, regFields_grm .GRM_EVENT⟩
  | .GRM_EVENT_EN => ⟨.grm, 0x70, 0, 1, regFields_grm .GRM_EVENT_EN⟩
  | .GRM_HEARTBEAT => ⟨.grm, 0x78, 0, 1, regFields_grm .GRM_HEARTBEAT⟩
  | .GRM_FAULT_COUNT => ⟨.grm, 0x80, 0, 1, regFields_grm .GRM_FAULT_COUNT⟩
  | .GRM_BOOT_STATUS => ⟨.grm, 0x88, 0, 1, regFields_grm .GRM_BOOT_STATUS⟩
  | .GRM_MBOX => ⟨.grm, 0x10000, 8, 8192, regFields_grm .GRM_MBOX⟩
  | .SEC_STATUS => ⟨.sec, 0x0, 0, 1, regFields_sec .SEC_STATUS⟩
  | .SEC_SVN => ⟨.sec, 0x8, 0, 1, regFields_sec .SEC_SVN⟩
  | .SEC_SERIAL => ⟨.sec, 0x10, 0, 1, regFields_sec .SEC_SERIAL⟩
  | .SEC_ID_PUB => ⟨.sec, 0x40, 8, 8, regFields_sec .SEC_ID_PUB⟩
  | .SEC_OWNER_HASH => ⟨.sec, 0x80, 8, 16, regFields_sec .SEC_OWNER_HASH⟩
  | .SEC_FUSE_DIGEST => ⟨.sec, 0x100, 8, 4, regFields_sec .SEC_FUSE_DIGEST⟩
  | .DBG_BAD_REG_ACCESS => ⟨.dbg, 0x0, 0, 1, regFields_dbg .DBG_BAD_REG_ACCESS⟩
  | .DBG_EVENT => ⟨.dbg, 0x8, 0, 1, regFields_dbg .DBG_EVENT⟩
  | .DBG_EVENT_EN => ⟨.dbg, 0x10, 0, 1, regFields_dbg .DBG_EVENT_EN⟩
  | .DBG_TRACE_CFG => ⟨.dbg, 0x100, 0, 1, regFields_dbg .DBG_TRACE_CFG⟩
  | .DBG_TRACE_STATUS => ⟨.dbg, 0x108, 0, 1, regFields_dbg .DBG_TRACE_STATUS⟩
  | .DBG_TRACE_BASE => ⟨.dbg, 0x140, 8, 4, regFields_dbg .DBG_TRACE_BASE⟩
  | .DBG_TRACE_LEN => ⟨.dbg, 0x160, 8, 4, regFields_dbg .DBG_TRACE_LEN⟩
  | .DBG_TRACE_WPTR => ⟨.dbg, 0x180, 8, 4, regFields_dbg .DBG_TRACE_WPTR⟩
  | .DBG_TRACE_LOST => ⟨.dbg, 0x1A0, 8, 4, regFields_dbg .DBG_TRACE_LOST⟩
  | .DBG_TRACE_STALL => ⟨.dbg, 0x200, 8, 48, regFields_dbg .DBG_TRACE_STALL⟩
  | .DBG_LATCH_SEL => ⟨.dbg, 0x400, 8, 8, regFields_dbg .DBG_LATCH_SEL⟩
  | .DBG_LATCH_RING => ⟨.dbg, 0x800, 8, 256, regFields_dbg .DBG_LATCH_RING⟩
  | .DBG_LATCH_INDEX => ⟨.dbg, 0x1000, 8, 256, regFields_dbg .DBG_LATCH_INDEX⟩
  | .DBG_OCC => ⟨.dbg, 0x10000, 8, 1024, regFields_dbg .DBG_OCC⟩
  | .PWR_STATUS => ⟨.pwr, 0x0, 0, 1, regFields_pwr .PWR_STATUS⟩
  | .PWR_LOOP => ⟨.pwr, 0x8, 0, 1, regFields_pwr .PWR_LOOP⟩
  | .PWR_LIMIT => ⟨.pwr, 0x10, 0, 1, regFields_pwr .PWR_LIMIT⟩
  | .PWR_THERM => ⟨.pwr, 0x18, 0, 1, regFields_pwr .PWR_THERM⟩
  | .PWR_EVENT => ⟨.pwr, 0x20, 0, 1, regFields_pwr .PWR_EVENT⟩
  | .PWR_EVENT_EN => ⟨.pwr, 0x28, 0, 1, regFields_pwr .PWR_EVENT_EN⟩
  | .PWR_DIE => ⟨.pwr, 0x40, 8, 4, regFields_pwr .PWR_DIE⟩
  | .PWR_VRM => ⟨.pwr, 0x60, 8, 4, regFields_pwr .PWR_VRM⟩
  | .PWR_ENERGY => ⟨.pwr, 0x100, 0, 1, regFields_pwr .PWR_ENERGY⟩

/-- The registers of the STL_ window. -/
def regsOf_stl : List Reg :=
  [.STL_ID, .STL_STATUS, .STL_GAIT_METER, .STL_GAIT_LIMIT, .STL_EVENT, .STL_EVENT_EN, .STL_REPAIR, .STL_BEAT_COUNT,
   .STL_RELAY_COUNT, .STL_RELAY_WAIT, .STL_WAIT_ROW, .STL_WAIT_COL, .STL_ROUTE, .STL_SEQ_STATUS, .STL_SEQ_BANK,
   .STL_PSTORE_VERIFIED, .STL_SEQ_INSTR, .STL_SEQ_SWITCHES, .STL_SEQ_IDLE, .STL_SEQ_B0_S, .STL_SEQ_B1_S]

/-- The registers of the ACS_ window. -/
def regsOf_acs : List Reg :=
  [.ACS_STATUS, .ACS_LEASED, .ACS_RESIDENT, .ACS_WIDE, .ACS_EVENT, .ACS_EVENT_EN, .ACS_LEASE_LIMIT,
   .ACS_CONFLICT_COUNT, .ACS_SPILL_COUNT, .ACS_DRAIN_COUNT, .ACS_ECC_COUNT, .ACS_SEG_STATE, .ACS_SEG_PROD]

/-- The registers of the VEC_ window. -/
def regsOf_vec : List Reg :=
  [.VEC_STATUS, .VEC_EVENT, .VEC_EVENT_EN, .VEC_LANE_OPS, .VEC_CONVERTS, .VEC_ECC_COUNT, .VEC_VIEW_SEL, .VEC_VIEW]

/-- The registers of the PDK_ window. -/
def regsOf_pdk : List Reg :=
  [.PDK_ID, .PDK_STATUS, .PDK_GAIT, .PDK_EVENT, .PDK_EVENT_EN, .PDK_TICK, .PDK_EDGE_COUNT, .PDK_STRETCH_NS,
   .PDK_STOP_NS, .PDK_CH_IN_WORDS, .PDK_CH_OUT_WORDS, .PDK_CH_DROP_WORDS, .PDK_PROBE_SAMPLES, .PDK_PROBE_LOST,
   .PDK_PROBE_CTL, .PDK_PROBE_BASE, .PDK_PROBE_LEN, .PDK_PROBE_START, .PDK_PROBE_WPTR, .PDK_PROBE_SEL,
   .PDK_REPLAY_CTL, .PDK_REPLAY_BASE, .PDK_REPLAY_LEN, .PDK_REPLAY_START, .PDK_REPLAY_RPTR]

/-- The registers of the CFG_ window. -/
def regsOf_cfg : List Reg :=
  [.CFG_IDCODE, .CFG_STATUS, .CFG_EVENT, .CFG_EVENT_EN, .CFG_LOAD_ADDR, .CFG_LOAD_LEN, .CFG_LOAD, .CFG_REPORT_ADDR,
   .CFG_EPOCH, .CFG_PROGRESS, .CFG_RELEASE, .CFG_TRUNC_MS, .CFG_QUARANTINE, .CFG_CONFIG_DIGEST, .CFG_REGION_SEL,
   .CFG_REGION_DIGEST, .CFG_REGION_STATUS, .CFG_REFUSED_COUNT, .CFG_CONSIST_CTL, .CFG_CONSIST_RANGE,
   .CFG_CONSIST_EPOCH, .CFG_CONSIST_EXPECT, .CFG_CONSIST_PERIOD, .CFG_CONSIST_RESULT0, .CFG_CONSIST_RESULT1,
   .CFG_CONSIST_RESULT2, .CFG_CONSIST_STATUS, .CFG_MCAST_STATUS]

/-- The registers of the NOC_ window. -/
def regsOf_noc : List Reg :=
  [.NOC_STATUS, .NOC_TIMEOUT, .NOC_EVENT, .NOC_EVENT_EN, .NOC_ROUTE_FAULT, .NOC_CNT, .NOC_FLOW_A, .NOC_FLOW_ROUTE,
   .NOC_FLOW_SLOTS]

/-- The registers of the HBM_ window. -/
def regsOf_hbm : List Reg :=
  [.HBM_STATUS, .HBM_EVENT, .HBM_EVENT_EN, .HBM_ERR_LOG, .HBM_SR_STATE, .HBM_SCRUB_STATUS, .HBM_MAINT,
   .HBM_MAINT_STATUS, .HBM_CNT, .HBM_SR_IDLE, .HBM_HASH, .HBM_SPLIT, .HBM_SCRUB_CFG]

/-- The registers of the RNL_ window. -/
def regsOf_rnl : List Reg :=
  [.RNL_PORT_STATUS, .RNL_PORT_CFG, .RNL_PEER, .RNL_EVENT, .RNL_EVENT_EN, .RNL_RETRY, .RNL_DELAY, .RNL_EYE_CTL,
   .RNL_EYE_RESULT, .RNL_CNT, .RNL_IDENT, .RNL_STRING, .RNL_TIME_STATUS, .RNL_RGROUP_BASE, .RNL_RELAY_CFG,
   .RNL_GROUTE]

/-- The registers of the HST_ window. -/
def regsOf_hst : List Reg :=
  [.HST_PORT_STATUS, .HST_PORT_CFG, .HST_MAC, .HST_IPV4, .HST_IPV6_HI, .HST_IPV6_LO, .HST_PFC, .HST_CC, .HST_EVENT,
   .HST_EVENT_EN, .HST_CNT, .HST_XLATE_ROOT, .HST_XLATE_ROOT_PRIV, .HST_XLATE_INVAL, .HST_QTABLE_BASE,
   .HST_QP_TABLE_BASE, .HST_MR_TABLE_BASE, .HST_QCTL, .HST_QP_CMD, .HST_CTL_STATUS]

/-- The registers of the GRM_ window. -/
def regsOf_grm : List Reg :=
  [.GRM_STATUS, .GRM_FW_VERSION, .GRM_FW_SVN, .GRM_ROM_INFO, .GRM_FW_DIGEST, .GRM_FW_FEATURES, .GRM_DRV_FEATURES,
   .GRM_FEATURES_ACTIVE, .GRM_REQ, .GRM_REQ_STATUS, .GRM_EVENT, .GRM_EVENT_EN, .GRM_HEARTBEAT, .GRM_FAULT_COUNT,
   .GRM_BOOT_STATUS, .GRM_MBOX]

/-- The registers of the DBG_ window. -/
def regsOf_dbg : List Reg :=
  [.DBG_BAD_REG_ACCESS, .DBG_EVENT, .DBG_EVENT_EN, .DBG_TRACE_CFG, .DBG_TRACE_STATUS, .DBG_TRACE_BASE,
   .DBG_TRACE_LEN, .DBG_TRACE_WPTR, .DBG_TRACE_LOST, .DBG_TRACE_STALL, .DBG_LATCH_SEL, .DBG_LATCH_RING,
   .DBG_LATCH_INDEX, .DBG_OCC]

/-- The registers of the PWR_ window. -/
def regsOf_pwr : List Reg :=
  [.PWR_STATUS, .PWR_LOOP, .PWR_LIMIT, .PWR_THERM, .PWR_EVENT, .PWR_EVENT_EN, .PWR_DIE, .PWR_VRM, .PWR_ENERGY]

/-- The registers of the SEC_ window. -/
def regsOf_sec : List Reg :=
  [.SEC_STATUS, .SEC_SVN, .SEC_SERIAL, .SEC_ID_PUB, .SEC_OWNER_HASH, .SEC_FUSE_DIGEST]

/-- The registers of a block. -/
def regsOf (b : Blk) : List Reg :=
  match b with
  | .stl => regsOf_stl
  | .acs => regsOf_acs
  | .vec => regsOf_vec
  | .pdk => regsOf_pdk
  | .cfg => regsOf_cfg
  | .noc => regsOf_noc
  | .hbm => regsOf_hbm
  | .rnl => regsOf_rnl
  | .hst => regsOf_hst
  | .grm => regsOf_grm
  | .dbg => regsOf_dbg
  | .pwr => regsOf_pwr
  | .sec => regsOf_sec

/-- The window base of instance 0, the stride between instances, the window size and the number of instances (R43). -/
def blkWindow (b : Blk) : Nat × Nat × Nat × Nat :=
  match b with
  | .stl => (0x1F0000000000000, 0x1000, 0x1000, 3072)
  | .acs => (0x1F0000001000000, 0x1000, 0x1000, 3072)
  | .vec => (0x1F0000002000000, 0x1000, 0x1000, 3072)
  | .pdk => (0x1F0000004000000, 0x1000, 0x1000, 9216)
  | .cfg => (0x1F0000010000000, 0x10000, 0x10000, 1)
  | .noc => (0x1F0000011000000, 0x10000, 0x10000, 4)
  | .hbm => (0x1F0000012000000, 0x10000, 0x10000, 8)
  | .rnl => (0x1F0000013000000, 0x10000, 0x10000, 16)
  | .hst => (0x1F0000014000000, 0x10000, 0x10000, 4)
  | .grm => (0x1F0000015000000, 0x100000, 0x100000, 1)
  | .dbg => (0x1F0000016000000, 0x100000, 0x100000, 1)
  | .pwr => (0x1F0000017000000, 0x10000, 0x10000, 1)
  | .sec => (0x1F0000018000000, 0x10000, 0x10000, 1)

/-- Every block, in address order. -/
def allBlks : List Blk := [.stl, .acs, .vec, .pdk, .cfg, .noc, .hbm, .rnl, .hst, .grm, .dbg, .pwr, .sec]

/-- A device-wide register appears identically in every window of its block (R327, R466, R514): one home, instance 0. -/
def regShared (r : Reg) : Bool :=
  let i := regInfo r
  match i.blk with
  | .hst | .hbm | .rnl => decide (0x8000 ≤ i.off)
  | _ => false

/-- The physical address of a register: its one home in the register file (R43). -/
def regAddr (r : Reg) (inst idx : Nat) : Nat :=
  let i := regInfo r
  let w := blkWindow i.blk
  w.1 + (if regShared r then 0 else inst) * w.2.1 + i.off + idx * i.stride

/-- A place within the register windows. -/
structure RegPlace where
  reg : Reg
  inst : Nat
  idx : Nat
  deriving DecidableEq, Repr

/-- Does a register hold an offset of its window? Its index if so. -/
def regIdxAt (r : Reg) (off : Nat) : Option Nat :=
  let i := regInfo r
  if off < i.off then none
  else if i.stride = 0 then (if off = i.off then some 0 else none)
  else if (off - i.off) % i.stride = 0 ∧ (off - i.off) / i.stride < i.count then some ((off - i.off) / i.stride)
  else none

/-- The first register of a list that holds an offset. -/
def findReg (off inst : Nat) : List Reg → Option RegPlace
  | [] => none
  | r :: t =>
    match regIdxAt r off with
    | some k => some ⟨r, inst, k⟩
    | none => findReg off inst t

/-- The block, instance and offset of an address in the register windows. -/
def windowOf (a : Nat) : List Blk → Option (Blk × Nat × Nat)
  | [] => none
  | b :: t =>
    let w := blkWindow b
    if w.1 ≤ a ∧ a < w.1 + w.2.1 * w.2.2.2 then some (b, (a - w.1) / w.2.1, (a - w.1) % w.2.1) else windowOf a t

/-- The register at an 8-byte-aligned physical address, if one is defined there (R9, R43). -/
def regAt (a : Nat) : Option RegPlace :=
  match windowOf a allBlks with
  | some (b, i, o) => findReg o i (regsOf b)
  | none => none

/-- Offsets that belong to the firmware alone and are not mapped (R466, R514, R551, R554): HBM_TRN_*, RNL_SERDES_*,
GRM_CORE_*/GRM_SRAM_*, SEC_ENG_*. -/
def firmwareOnly (b : Blk) (off : Nat) : Bool :=
  match b with
  | .hbm => decide (0x1000 ≤ off ∧ off < 0x8000)
  | .rnl => decide (0x4000 ≤ off ∧ off < 0x8000)
  | .grm => decide (0x20000 ≤ off)
  | .sec => decide (0x1000 ≤ off)
  | _ => false

/-- The word with every field at its table reset value. -/
def fieldsReset : List RegField → Nat
  | [] => 0
  | f :: t => f.rst * 2 ^ f.lo + fieldsReset t

/-- The reset role fields of RNL_PORT_CFG of a rein port (R498): ROLE, DIM, DIR, MEMBER, GPORT. -/
def portRoleReset (p : Nat) : Nat × Nat × Nat × Nat × Nat :=
  match p with
  | 0 => (1, 0, 0, 0, 0) | 1 => (1, 0, 1, 0, 0) | 2 => (1, 2, 0, 0, 0) | 3 => (2, 0, 0, 0, 0)
  | 4 => (1, 0, 0, 1, 0) | 5 => (1, 0, 1, 1, 0) | 6 => (1, 2, 1, 0, 0) | 7 => (2, 0, 0, 0, 1)
  | 8 => (1, 1, 0, 0, 0) | 9 => (1, 1, 1, 0, 0) | 10 => (1, 2, 0, 1, 0) | 11 => (2, 0, 0, 0, 2)
  | 12 => (1, 1, 0, 1, 0) | 13 => (1, 1, 1, 1, 0) | 14 => (1, 2, 1, 1, 0) | _ => (2, 0, 0, 0, 3)

/-- The value of a register after power-on reset, its per-instance fields included (R115, R368, R474, R498, R516, R636).
Fields the spec resets from the fuses or from a strap read 0 here and are filled from State where they are read. -/
def regReset (r : Reg) (inst idx : Nat) : Word :=
  let base := fieldsReset (regInfo r).fields
  BitVec.ofNat 64 <|
    match r with
    | .STL_ID => base + inst + (inst / 768) * 2 ^ 12 + (inst % 768 / 32) * 2 ^ 14 + (inst % 32) * 2 ^ 19
    | .PDK_ID =>
      base + inst + (inst % 64) * 2 ^ 14 + (inst % 2304 / 64) * 2 ^ 20 + (inst / 2304) * 2 ^ 26
    | .HBM_HASH => 2 ^ (10 + idx) + 2 ^ (24 + idx)
    | .PWR_VRM => 0x40 + idx
    | .RNL_PORT_CFG =>
      let p := portRoleReset inst
      base + p.1 * 2 ^ 61 + p.2.1 * 2 ^ 59 + p.2.2.1 * 2 ^ 58 + p.2.2.2.1 * 2 ^ 57 + p.2.2.2.2 * 2 ^ 55
    | _ => base

/-- What an unlisted address of the register file reads as: the reset value of the register there. -/
def regDefault (a : Nat) : Word :=
  match regAt a with
  | some p => regReset p.reg p.inst p.idx
  | none => 0

/-- Encodings the spec reserves in a field that software writes (R13, R638): true where `v` may not be placed in the field
of `r` whose high bit is `hi`. -/
def fieldReserved (r : Reg) (hi : Nat) (v : Nat) : Bool :=
  match r, hi with
  | .STL_GAIT_LIMIT, 23 => v == 0
  | .HST_PORT_CFG, 5 => v == 3
  | .HST_CC, 31 => v == 0
  | .HST_XLATE_INVAL, 63 => v == 3
  | .HST_XLATE_INVAL, 61 => decide (256 < v)
  | .HST_QCTL, 63 => !(v == 1 || v == 2)
  | .HST_QP_CMD, 63 => !(v == 1 || v == 2 || v == 3)
  | .PDK_PROBE_LEN, 31 => v == 0 || v == 0xFFFFFFFF
  | .PDK_REPLAY_LEN, 31 => v == 0 || v == 0xFFFFFFFF
  | .PDK_PROBE_SEL, _ => decide (193 ≤ v)
  | .CFG_LOAD, 63 => v != 1
  | .CFG_LOAD, 59 => v == 3
  | .CFG_LOAD, 57 => decide (2 ≤ v)
  | .CFG_RELEASE, 63 => !(v == 1 || v == 2)
  | .CFG_TRUNC_MS, 31 => v == 0
  | .CFG_CONSIST_CTL, 61 => decide (2 ≤ v)
  | .NOC_TIMEOUT, _ => v == 0 || decide (1000000 < v)
  | .HBM_MAINT, 63 => !(v == 1 || v == 2 || v == 3)
  | .HBM_SR_IDLE, 19 => decide (1000000 < v)
  | .HBM_SCRUB_CFG, 63 => v == 0
  | .HBM_SCRUB_CFG, 19 => v == 0
  | .RNL_PORT_CFG, 62 => v == 3
  | .RNL_PORT_CFG, 60 => v == 3
  | .RNL_RETRY, 39 => v == 0
  | .RNL_RETRY, 31 => decide (v < 1000)
  | .RNL_EYE_CTL, 37 => v == 3
  | .RNL_EYE_CTL, 19 => decide (v < 20 ∨ 40 < v)
  | .RNL_IDENT, 38 => v == 3
  | .DBG_TRACE_CFG, 51 => decide (v < 64 ∨ 1000000 < v)
  | .DBG_TRACE_LEN, 31 => v == 0
  | .DBG_LATCH_RING, 62 => decide (v < 4 ∨ 20 < v)
  | .PWR_LIMIT, 15 => decide (v < 400 ∨ 1900 < v)
  | .PWR_THERM, 7 => decide (v < 60 ∨ 95 < v)
  | _, _ => false

/-- The effect of a software write on the stored bits of one field: the old field's value and the written one give the new
one (R11, R13). WO fields store nothing. -/
def fieldWrite (r : Reg) (f : RegField) (old v : Nat) : Nat :=
  match f.acc with
  | .ro => old
  | .rw => if fieldReserved r f.hi v then old else v
  | .w1c => Nat.land old (Nat.xor v (2 ^ (f.hi + 1 - f.lo) - 1))
  | .w1s => Nat.lor old v
  | .wo => old
  | .wonce => old

/-- A software write of a whole register: every field by its access code; reserved bits ignore what is written (R8, R12). -/
def fieldsWrite (r : Reg) (old v : Word) : List RegField → Word
  | [] => old
  | f :: t => (fieldsWrite r old v t).put f.hi f.lo (fieldWrite r f (old.fld f.hi f.lo) (v.fld f.hi f.lo))

/-- A software write of a register word (R8, R11 to R13), with the relations between fields that HST_PFC and
VEC_VIEW_SEL state (R331, R254). -/
def regWritten (r : Reg) (old v : Word) : Word :=
  let n := fieldsWrite r old v (regInfo r).fields
  match r with
  | .HST_PFC =>
    if n.fld 47 32 ≤ n.fld 63 48 ∨ 1008 < n.fld 47 32 then (n.put 63 48 (old.fld 63 48)).put 47 32 (old.fld 47 32) else n
  | .VEC_VIEW_SEL => if n.bit 5 && decide (8 ≤ n.fld 4 0) then n.put 4 0 (old.fld 4 0) else n
  | _ => n

/-- Does a write carry a reserved encoding in any WO field (R638)? -/
def woReserved (r : Reg) (v : Word) : Bool :=
  (regInfo r).fields.any (fun f => f.acc == .wo && fieldReserved r f.hi (v.fld f.hi f.lo))

end Sys2Proof.Machine
end

