-- ==== Sys2Proof/Machine/StCfg.lean ====
section
/-!
DEFINITION. Configuration state (chapter 11) and paddock state (chapter 10) as plain data: the committed structure, the
configuration memory, the load and the probe in progress, and every paddock's storage, ports, rings and channels.
-/

namespace Sys2Proof.Machine

/-- The resource kinds of OWN (R392). -/
inductive OwnKind where
  | stall | paddock | queue | context | tether | carousel | hbm
  deriving DecidableEq, Repr

/-- One OWN command's range (R392). `corral` is none for NONE = 1. -/
structure OwnRange where
  kind : OwnKind
  first : Nat
  count : Nat
  corral : Option Nat
  deriving DecidableEq, Repr

/-- A shared range (R31, R392): granules, its writing corral and the mask of its readers. -/
structure ShareRange where
  slot : Nat
  writer : Nat
  first : Nat
  count : Nat
  readers : Nat
  deriving DecidableEq, Repr

/-- A GROUP command (R392). -/
structure GroupRange where
  group : Nat
  h : Nat
  first : Nat
  count : Nat
  deriving DecidableEq, Repr

/-- A REGION command: frames of one column (R387, R392). -/
structure RegionRange where
  region : Nat
  frame : Nat
  count : Nat
  deriving DecidableEq, Repr

/-- Release parameters of a region (R392, R394). -/
structure RParam where
  ticks : Nat
  waitA : Nat
  waitB : Nat
  deriving DecidableEq, Repr

/-- The release parameters every region has by default (R394). -/
def RParam.dflt : RParam := { ticks := 16, waitA := 1000, waitB := 1000 }

/-- An enabled corral: its gang length and shape mask (R176, R392). -/
structure CorralDef where
  l : Nat
  shapes : Nat
  deriving DecidableEq, Repr

/-- A structure, staged or committed (R394). In the range lists the newest command comes first, and the first range that
covers an item decides. -/
structure CfgStruct where
  corrals : SMap (Option CorralDef)
  own : List OwnRange
  shares : List ShareRange
  groups : List GroupRange
  regions : List RegionRange
  rparams : SMap RParam
  regs : List (Nat × Word)     -- REG writes in image order: physical address, value
  deriving DecidableEq, Repr

/-- The empty structure: no corral enabled, every resource held (R394). -/
def CfgStruct.empty : CfgStruct :=
  { corrals := [], own := [], shares := [], groups := [], regions := [], rparams := [], regs := [] }

/-- Where a load reads its image (R398, R406). -/
inductive LoadSource where
  | hbm | flashUpdate | flashFallback | reins
  deriving DecidableEq, Repr

/-- A load in progress (R398 to R406). -/
structure LoadSt where
  source : LoadSource
  hitch : Bool              -- led here for the hitch (R406)
  addr : Nat
  len : Nat
  asFallback : Bool         -- started by a failure (R402)
  atStart : Bool            -- the start-up load (R398)
  accepted : Bool
  head : List Byte          -- header of an accepted image
  flist : List Byte         -- its frame list
  key : Option Nat          -- the image key it was accepted with (R548)
  bytes : List Byte         -- received so far, over the reins
  ended : Bool              -- the lead has sent its last byte
  lastByte : Nat            -- timebase value of the last byte received
  oldEpoch : Word           -- CFG_EPOCH before the image
  deriving DecidableEq, Repr

/-- A hitch load's reports as they come in at the lead (R407): device → (epoch, code, state). -/
structure HitchLoad where
  devices : List Nat
  got : SMap (Nat × Nat × Nat)
  since : Nat
  deriving DecidableEq, Repr

/-- A probe's totals (R411). -/
structure ProbeSum where
  matched : Nat
  mismatch : Nat
  loading : Nat
  missing : Nat
  firstMismatch : Option Nat
  firstMissing : Option Nat
  deriving DecidableEq, Repr

/-- No answer yet. -/
def ProbeSum.zero : ProbeSum :=
  { matched := 0, mismatch := 0, loading := 0, missing := 0, firstMismatch := none, firstMissing := none }

/-- A consistency probe at a node of the tree (R410, R411). -/
structure ProbeSt where
  seq : Nat
  scope : Nat
  first : Nat
  last : Nat
  expEpoch : Nat
  expDigest : Nat
  led : Bool                -- this device leads it
  parent : Nat              -- the device that sent it
  waiting : List Nat        -- children that have not answered
  sum : ProbeSum
  since : Nat
  deriving DecidableEq, Repr

/-- A region's release state (R364, R365, R409). -/
structure RegionSt where
  stage : Nat
  loadedAt : Nat            -- when its last frame was written
  command : Bool            -- the release command has been received
  stageAt : Nat
  digest : Nat
  epoch : Nat
  loading : Bool
  quarantined : Bool
  deriving DecidableEq, Repr

/-- A region after power-on reset. -/
def RegionSt.idle : RegionSt :=
  { stage := 0, loadedAt := 0, command := false, stageAt := 0, digest := 0, epoch := 0, loading := false, quarantined := false }

/-- Configuration state. -/
structure CfgSt where
  live : CfgStruct
  frames : SMap Word        -- configuration memory: frame address × 128 + word
  regions : SMap RegionSt
  load : Option LoadSt
  hitch : Option HitchLoad
  probes : List ProbeSt     -- probes this device takes part in, oldest first
  probeAt : Nat             -- when the last periodic probe ran (R410)
  deriving DecidableEq, Repr

/-- Configuration state after power-on reset: UNCONFIGURED. -/
def CfgSt.reset : CfgSt :=
  { live := CfgStruct.empty, frames := [], regions := [], load := none, hitch := none, probes := [], probeAt := 0 }

/-! ## Paddocks -/

/-- A paddock ring side (R352): positions, whether it is open, and words pushed and not yet sent. -/
structure PdkRing where
  opened : Bool
  p : Nat
  c : Nat
  batch : List Word
  batchAt : Nat
  partner : Option (Nat × Nat)
  deriving DecidableEq, Repr

/-- A closed ring. -/
def PdkRing.idle : PdkRing := { opened := false, p := 0, c := 0, batch := [], batchAt := 0, partner := none }

/-- A capture block in assembly or waiting to be written (R357). -/
structure CapBlock where
  stampFirst : Nat
  stampLast : Nat
  tickFirst : Nat
  samples : List Word
  gap : Bool
  lost : Nat
  deriving DecidableEq, Repr

/-- Probe and replay states (R369). -/
inductive ProbePhase where
  | off | armed | running | done
  deriving DecidableEq, Repr

/-- One paddock (R336 to R360). -/
structure PdkSt where
  fa : Nat                  -- 128 FA storage bits
  fb : Nat                  -- 128 FB storage bits
  qa : Nat                  -- RAMQ of port A
  qb : Nat                  -- RAMQ of port B
  take : Bool
  push : Bool
  idle : Bool
  stage : Nat
  tick : Nat
  lastEdge : Nat            -- timebase value of the last edge (or of stage 2)
  stopped : Bool
  stopAt : Nat              -- when the gait stopped
  fifo : List Word          -- words held at the input
  flight : List Word        -- words pushed on a handshake channel and not yet at their receiver
  lock : Word               -- the word a lockstep channel presents
  inRing : PdkRing
  outRing : PdkRing
  cap : ProbePhase
  capSel : List Word        -- the selection the block in assembly was begun under
  block : Option CapBlock
  full : List CapBlock      -- closed blocks waiting to be written
  lostRun : Nat             -- samples lost since the last block
  rep : ProbePhase
  repBuf : List (Nat × List Word)   -- prefetched stimulus blocks: block number, words
  repNext : Nat             -- the next word of the region to present
  userIn : Nat              -- input bits that I/O cells present (R361)
  deriving DecidableEq, Repr

/-- A paddock in stage 0 of an unconfigured device. -/
def PdkSt.idle0 : PdkSt :=
  { fa := 0, fb := 0, qa := 0, qb := 0, take := false, push := false, idle := false, stage := 0, tick := 0, lastEdge := 0,
    stopped := false, stopAt := 0, fifo := [], flight := [], lock := 0, inRing := PdkRing.idle, outRing := PdkRing.idle, cap := .off, capSel := [],
    block := none, full := [], lostRun := 0, rep := .off, repBuf := [], repNext := 0, userIn := 0 }

end Sys2Proof.Machine
end

