-- ==== Sys2Proof/Machine/StGroom.lean ====
section
/-!
DEFINITION. Groom complex, SEC engine, power, management-interface and test-port state (chapters 15 and 19) as plain data.
-/

namespace Sys2Proof.Machine

/-- State of a key slot (R545). -/
inductive SlotState where
  | empty | provisioned | revoked
  deriving DecidableEq, Repr

/-- A key slot: the hash and its state (R545). -/
structure KeySlot where
  hash : Nat
  st : SlotState
  deriving DecidableEq, Repr

/-- An empty slot. -/
def KeySlot.none : KeySlot := { hash := 0, st := .empty }

/-- What the device keeps without power: fuses and what manufacture set (R545, R330, R111), and the board's flash (R398). -/
structure FuseSt where
  vendor0 : KeySlot
  vendor1 : KeySlot
  owner0 : KeySlot
  owner1 : KeySlot
  owner2 : KeySlot
  owner3 : KeySlot
  imageKey : Option Nat
  svnMin : Nat
  serial : Nat
  idSecret : Nat
  macs : SMap Nat               -- HST_MAC of each port
  rows : SMap Nat               -- STL_REPAIR of stalls repaired by fuses
  spares : SMap Nat             -- spare → stall it stands in for, by fuses
  certDevice : List Byte
  certCa : List Byte
  flash : List (Nat × Byte)     -- bytes of the board flash that differ from 0xFF
  deriving DecidableEq, Repr

/-- A device with nothing fused. -/
def FuseSt.blank : FuseSt :=
  { vendor0 := KeySlot.none, vendor1 := KeySlot.none, owner0 := KeySlot.none, owner1 := KeySlot.none, owner2 := KeySlot.none,
    owner3 := KeySlot.none, imageKey := none, svnMin := 0, serial := 0, idSecret := 0, macs := [], rows := [], spares := [],
    certDevice := [], certCa := [], flash := [] }

/-- A request in the mailbox (R535). -/
structure GrmReq where
  op : Nat
  seq : Nat
  verdict : Nat            -- RESULT of the checks made when it was written (R537): 0 lets it run
  payload : List Byte      -- mailbox bytes 0 to 127
  deriving DecidableEq, Repr

/-- The step a handover is at (R540). -/
inductive HandStep where
  | checking | checked | checkpointed | started
  deriving DecidableEq, Repr

/-- A handover in progress (R538 to R541). -/
structure Handover where
  addr : Nat
  len : Nat
  step : HandStep
  digest : Nat
  since : Nat
  deriving DecidableEq, Repr

/-- What the SEC engine has recorded of the running image (R529, R532). -/
structure ImageRec where
  digest : Nat
  version : Word
  svn : Nat
  features : Word
  slot : Nat               -- the vendor slot its key matched
  len : Nat
  entry : Nat
  deriving DecidableEq, Repr

/-- Groom and SEC state. -/
structure GroomSt where
  sram : SMap Byte
  goLen : Nat
  image : Option ImageRec
  bootAt : Nat             -- when the boot ROM started
  phyAt : Nat              -- when HP0's PHY was last switched
  viaLead : Bool           -- boots through its lead (R526)
  loadStarted : Bool       -- the start-up configuration load has been started (R531)
  req : Option GrmReq
  hand : Option Handover
  faults : List Nat        -- times of groom faults, newest first
  beatAt : Nat             -- when GRM_HEARTBEAT last advanced
  offer : Option (Nat × List Byte × List Byte)   -- ephemeral secret, public key, nonce (R548)
  sessionKey : Option Nat
  offers : Nat             -- key pairs generated
  deriving DecidableEq, Repr

/-- Groom state after power-on reset. -/
def GroomSt.reset : GroomSt :=
  { sram := [], goLen := 0, image := none, bootAt := 0, phyAt := 0, viaLead := false, loadStarted := false, req := none, hand := none, faults := [], beatAt := 0,
    offer := none, sessionKey := none, offers := 0 }

/-- Power, straps and references (chapter 19). -/
structure PwrSt where
  held : Bool              -- PORST_N, a detector or REFCLK holds the device in reset (R624, R631)
  tripped : Bool           -- thermal trip (R628)
  roleLead : Bool          -- the ROLE_LEAD ball at PORST_N deassertion
  power : Nat              -- package power, W, as the last pass found it (R626)
  offsets : SMap Int       -- correction of each die's voltage sensor, mV (R627)
  energy : Nat             -- tenths of a millijoule not yet in PWR_ENERGY (R636)
  deriving DecidableEq, Repr

/-- Power state right after PORST_N is deasserted. -/
def PwrSt.reset : PwrSt :=
  { held := false, tripped := false, roleLead := false, power := 0, offsets := [], energy := 0 }

/-- The instruction selected in the IEEE 1149.1 test port (R633). `idle` is the state after Test-Logic-Reset. -/
inductive TapIns where
  | idle | bypass | idcode | sample | extest | clamp | highz
  deriving DecidableEq, Repr

/-- Test port state: the instruction, the data register it selects, and the boundary-scan cells' preloaded and sampled values. -/
structure TapSt where
  ins : TapIns
  shift : Nat
  preload : List (Nat × Bool)   -- cell, value driven under EXTEST and CLAMP
  sampled : List (Nat × Bool)
  deriving DecidableEq, Repr

/-- The test port after Test-Logic-Reset. -/
def TapSt.reset : TapSt := { ins := .idle, shift := 0, preload := [], sampled := [] }

end Sys2Proof.Machine
end

