-- ==== Sys2Proof/Machine/StQueue.lean ====
section
/-!
DEFINITION. The state of queues, commands in flight, stream contexts, rings and tandems (chapters 08 and 09), as plain data.
-/

namespace Sys2Proof.Machine

/-- A queue's state (R304). -/
inductive QPhase where
  | disabled | enabled | disabling | stopped
  deriving DecidableEq, Repr

/-- Where the descriptor at the head of a queue stands after its checks (R308). -/
inductive WaitStage where
  /-- waits for a STEP to release it (R566) -/
  | walk
  /-- waits for WAIT_TETHER to reach WAIT_VALUE -/
  | tether
  /-- a DRAIN at step 2 of R152: waits for its producer -/
  | producer
  /-- has requested its leases, contexts and banks and waits for the grant (R146, R147) -/
  | grant
  deriving DecidableEq, Repr

/-- The descriptor at the head of its queue: it has passed its checks, holds nothing, and waits (R308). -/
structure Waiter where
  desc : List Word
  at_ : WaitStage
  noop : Bool          -- completes as a no-op once its tether wait is over
  staged : Bool        -- released by a STEP with GRAIN = 1: only stage 0 of a TANDEM runs (R566)
  stamp : Nat          -- lease stamp: timebase value of the request (R147)
  since : Nat          -- timebase value at which the request was entered (R149)
  prodDone : Bool      -- DRAIN: its producer is recorded as completed (R152)
  refused : Bool       -- already counted in ACS_CONFLICT_COUNT (R147, R168)
  deriving DecidableEq, Repr

/-- A completion ring record that has been produced (R309): its 8 words without PHASE, and whether it is the record of an
admitted command, so that writing it frees an INFLIGHT place (R308). -/
structure HeldRec where
  words : List Word
  frees : Bool
  deriving DecidableEq, Repr

/-- One of the 65,536 queues (R302 to R310). -/
structure QueueSt where
  phase : QPhase
  entry : List Word    -- the 8 words ENABLE read (R302)
  pi : Nat
  admitIx : Nat
  ci : Nat
  start : Nat
  recs : Nat           -- the completion index: the index of the next record to produce (R309)
  written : Nat        -- the index of the next record to write (R309)
  inflight : Nat
  error : Nat
  fetched : Option (List Word)   -- a descriptor fetched by RDMA READ for ADMIT (R296, R308)
  waiter : Option Waiter
  held : List HeldRec            -- produced records not yet written, oldest first (R309)
  walkUnits : Nat                -- units a STEP has released and that no descriptor has taken yet (R566)
  walkGrain : Bool               -- the released unit is of a STEP with GRAIN = 1
  outcome : SMap Nat             -- sequence number → error code of each command that has ended, for R152
  headSince : Nat                -- when the head descriptor came to wait, for HEAD_WAIT (R564)
  deriving DecidableEq, Repr

/-- A queue after power-on reset: DISABLED (R304). -/
def QueueSt.idle : QueueSt :=
  { phase := .disabled, entry := [], pi := 0, admitIx := 0, ci := 0, start := 0, recs := 0, written := 0, inflight := 0,
    error := 0, fetched := none, waiter := none, held := [], walkUnits := 0, walkGrain := false, outcome := [], headSince := 0 }

/-- The counts of R77 and R217, summed over a command. Each saturates when it is reported. -/
structure Counts where
  invalid : Nat
  zinf : Nat
  overflow : Nat
  flush : Nat
  skipK : Nat
  skipRows : Nat
  skipGangs : Nat
  first : Option (Nat × Nat × Bool)   -- first-invalid: (m or element index, n, is a vector index) (R78)
  firstStage : Nat                    -- the stage it occurred in (R319)
  deriving DecidableEq, Repr

/-- No event counted. -/
def Counts.zero : Counts :=
  { invalid := 0, zinf := 0, overflow := 0, flush := 0, skipK := 0, skipRows := 0, skipGangs := 0, first := none, firstStage := 0 }

/-- A hand-over ring of a tandem (R281, R287). `backlog` holds bytes its producer has made and the ring has no room for yet;
`got` the bytes a consumer that is not a VECTOR stage has taken. -/
structure HandOver where
  prod : Nat
  cons : Nat
  stall : Nat
  slot : Nat
  bytes : Nat
  p : Nat
  c : Nat
  closed : Bool
  ending : Bool          -- the producer's stream has ended; the ring closes when the backlog is empty
  backlog : List Byte
  got : List Byte
  deriving DecidableEq, Repr

/-- A lease of R233 on one stall: a window of its memory, or a range of its program store when `prog`; exclusive when it writes. -/
structure WinLease where
  stall : Nat
  prog : Bool
  lo : Nat
  hi : Nat
  excl : Bool
  deriving DecidableEq, Repr

/-- The progress of one stage of a tandem (R290, R209, R566). -/
inductive StageSt where
  | unreleased | idle | running | executed | done | skipped
  deriving DecidableEq, Repr

/-- A bank of a stall sequencer held by a command: stall, bank and the rank the command runs there (R233, R237). -/
structure BankRef where
  stall : Nat
  bank : Nat
  rank : Nat
  deriving DecidableEq, Repr

/-- How a command that cannot go on as it was ended: running, to be failed, or marked for discard (R594). -/
inductive CmdPhase where
  | running
  | failing (code detail stage : Nat)
  | discarding (fault raiser : Nat)
  deriving DecidableEq, Repr

/-- A unit of a stream whose translation failed on another device (R269, R270): its position, address, device and direction. -/
structure RemoteFault where
  pos : Nat
  va : Nat
  dev : Nat
  write : Bool
  deriving DecidableEq, Repr

/-- How far the M-chunks of a MATRIX command or stage have come (R180). -/
structure FoldSt where
  chunk : Nat                -- the M-chunk it is at
  streamed : Bool            -- its rows have been streamed, and what it writes waits for release or for its write-out (R155)
  rows : List Nat            -- its active rows, as its mask read when it began (R207)
  marks : List Nat           -- per context, the bytes the chunks before have taken
  vals : List Byte           -- the chunk's results, in the layout of trough entries (R136)
  made : List Byte           -- packed result rows for a hand-over (R289)
  tree : Option (Nat × Nat × Nat)   -- at a device tree: level, the instant its value was complete, stage (R142)
  deriving DecidableEq, Repr

/-- Before the first M-chunk. -/
def FoldSt.start : FoldSt := { chunk := 0, streamed := false, rows := [], marks := [], vals := [], made := [], tree := none }

/-- A command in flight: granted and not yet reported (R308). -/
structure Cmd where
  queue : Nat
  seq : Nat
  corral : Nat
  desc : List Word
  phase : CmdPhase
  startTime : Nat
  segs : List Nat            -- leased segments, stall × 64 + segment (R146)
  ctxs : List Nat            -- stream contexts (R258)
  slots : List Nat           -- ring slots, stall × 64 + slot (R280, R291)
  banks : List BankRef       -- sequencer banks (R233)
  windows : List WinLease    -- leased windows and program ranges (R233)
  halts : Nat                -- halts met so far; any gives OK_RESUMED (R320)
  counts : Counts
  stages : List StageSt
  hands : List HandOver
  stageTabs : List (List Word)      -- the stage records a TANDEM read at admission (R285)
  latch : List Word          -- the eight values latched at its start (R563)
  moved : Nat                -- bytes moved, written or restored so far (R319)
  units : Nat                -- transfer units charged (R259)
  tether : Nat               -- TETHER: the value to report (R319)
  released : Nat             -- STEP: units still to be released (R317); a drain, write-out or save: released (R154)
  owner : Nat                -- the stage that uses `fold`
  inactive : Bool            -- no active row or stage (R320)
  freed : List Nat           -- TANDEM: WRITE and DRAIN stages whose stalls are QUIET (R154, R155)
  masks : SMap (Option (List Byte))   -- TANDEM: the predicate mask a MATRIX stage read as it began (R209)
  fold : FoldSt              -- MATRIX: how far its M-chunks have come (R180)
  deriving DecidableEq, Repr

/-- States of a stream context (R257). -/
inductive CtxPhase where
  | free | active | waiting | halted
  deriving DecidableEq, Repr

/-- A stream context (R256, R270). -/
structure StreamCtx where
  phase : CtxPhase
  queue : Nat
  seq : Nat
  stage : Nat
  pos : Nat                      -- the bytes of its logical sequence that are complete
  advanced : Nat                 -- timebase value when the position last advanced, for the watchdog (R284)
  faultVa : Nat
  cause : Nat
  wr : Bool
  level : Nat
  pre : Nat                      -- prefetch cursor: how far reads at another device have been issued (R256, R282)
  cursors : List Nat             -- per-row cursors of a sparse streaming operand: present values read of each row (R206)
  sent : Nat                     -- how far its writes have been issued
  peak : Nat                     -- the furthest `sent` has been
  idx : Option (List (Option Nat))   -- the index list an INDEXED move has read and checked (R213)
  got : List Byte                -- bytes another device has returned, by position
  made : List Byte               -- bytes of its sequence that it keeps for other devices or for a hand-over
  lag : List Nat                 -- lag counter of each receiver of a multicast, ns (R279)
  lacks : List (Option Nat)      -- since when each receiver has lacked room
  rfault : Option RemoteFault    -- the lowest unit that failed on another device, until the stream halts
  deriving DecidableEq, Repr

/-- A FREE context. -/
def StreamCtx.idle : StreamCtx :=
  { phase := .free, queue := 0, seq := 0, stage := 0, pos := 0, advanced := 0, faultVa := 0, cause := 0, wr := false,
    level := 0, pre := 0, cursors := [], sent := 0, peak := 0, idx := none, got := [], made := [], lag := [], lacks := [], rfault := none }

/-- The lag counters of a multicast as they stand at an instant (R279). -/
def StreamCtx.lagNow (x : StreamCtx) (n time : Nat) : List Nat :=
  (List.range n).map (fun v => x.lag.getD v 0 + (match x.lacks.getD v none with | some t => time - t | none => 0))

/-- A manual ring (R281, R283): its buffer, its partners by queue and sequence number, and the positions P and C of its bytes, which lie in
the buffer. -/
structure ManualRing where
  buffer : Nat
  slots : Nat
  total : Nat
  producer : Option (Nat × Nat)
  consumer : Option (Nat × Nat)
  prodDone : Bool
  consDone : Bool
  broken : Bool
  p : Nat
  c : Nat
  deriving DecidableEq, Repr

/-- Memory as it was when the caches last dropped the entries of one page, of `2 ^ span` bytes (R268, R334). -/
structure OldPage where
  ctx : Nat
  base : Nat
  span : Nat
  mem : List Host.Cell
  deriving DecidableEq, Repr

/-- A page-table entry that an access has used and the caches may hold (R268): the context and 64 KiB page it served, where it stood, and
what it held. -/
structure CachedEntry where
  ctx : Nat
  page : Nat
  addr : Nat
  held : Nat
  deriving DecidableEq, Repr

/-- What translation caches may still hold (R268): memory as it was when the last invalidation of every context, of one context, and of
pages of one context completed, the latest page first, for an entry that was valid then may have been used since; and the entries that
accesses have used since then. -/
structure XlateOld where
  all : List Host.Cell
  ctxs : SMap (Option (List Host.Cell))
  pages : List OldPage
  used : List CachedEntry
  deriving DecidableEq, Repr

/-- Caches after power-on reset: memory held no valid entry. -/
def XlateOld.reset : XlateOld := { all := [], ctxs := [], pages := [], used := [] }

/-- A queue pair (R298, R299): its state, its bound peer, its next expected and next sent PSN, and its rate. -/
inductive QpPhase where
  | reset | rts | error
  deriving DecidableEq, Repr

/-- One message the device has issued as requester and whose answer it awaits (R296). -/
structure Request where
  write : Bool
  psn : Nat
  addr : Nat
  rkey : Nat
  len : Nat
  data : List Byte
  queue : Nat          -- the queue whose ring or record it serves
  sentAt : Nat
  tries : Nat
  deriving DecidableEq, Repr

/-- One of the 8,192 queue pairs. -/
structure QpSt where
  phase : QpPhase
  entry : List Word
  bound : Option (Nat × Nat × Nat)   -- bootstrap: source GID, MAC, QPN (R299)
  rqPsn : Nat
  sqPsn : Nat
  msn : Nat
  rate : Nat            -- send rate, Mbit/s (R295)
  rateAt : Nat          -- timebase value of the last rate change
  cnpAt : Option Nat    -- when the last CNP was sent (R295)
  atomics : List (Nat × Word)   -- PSN and old value of the last atomics answered, newest first, for a repeated request (R296)
  outstanding : List Request
  deriving DecidableEq, Repr

/-- A queue pair in RESET. -/
def QpSt.idle : QpSt :=
  { phase := .reset, entry := [], bound := none, rqPsn := 0, sqPsn := 0, msn := 0, rate := 400000, rateAt := 0, cnpAt := none,
    atomics := [], outstanding := [] }

end Sys2Proof.Machine
end

