-- ==== Sys2Proof/Machine/StRein.lean ====
section
/-!
DEFINITION. Rein link, hitch and tree state (chapter 14) as plain data.
-/

namespace Sys2Proof.Machine

/-- A rein packet with its TYPE (R491), and the port and VC whose receive buffer it still fills (R489). -/
structure TypedPkt where
  typ : Nat
  pkt : ReinPkt
  via : Option (Nat × Nat) := none
  deriving DecidableEq, Repr

/-- A DATA flit in the retry buffer (R487, R488): its SEQ, its body with the bytes of it that packets fill and where a packet starts
in it, the packets that end in it, and how often it has been resent. -/
structure RetryFlit where
  seq : Nat
  body : List Byte
  used : Nat
  nextPkt : Nat
  pkts : List TypedPkt
  tries : Nat
  deriving DecidableEq, Repr

/-- The sending end of a port's line (R480 to R485): codeword pairs since the last marker, the next marker's number, the lanes'
scrambler states, their last levels with run counts, the SEQ values of DATA flits that wait for a pair, whether the NAK of `nakSent`
has gone out, the slots sent last, and the stamp of the last comma's departure in 1/64 ns (R507). -/
structure LineTx where
  pairs : Nat
  marker : Nat
  commaAt : Nat
  scramblers : List Nat
  runs : List (Nat × Nat)
  wait : List Nat
  nakOut : Bool
  slots : List (List Nat)
  deriving DecidableEq, Repr

/-- The receiving end of a port's line: the pair number expected, the last marker's number, the descrambler states, the lanes' last
levels with run counts, the LANE that each physical lane carries (R477), the lanes' symbol errors (R481), and the stamp of the last
comma's arrival in 1/64 ns (R507). -/
structure LineRx where
  pair : Nat
  marker : Nat
  commaAt : Nat
  scramblers : List Nat
  runs : List (Nat × Nat)
  lanes : List Nat
  errs : List Nat
  deriving DecidableEq, Repr

/-- A line before its first marker: the marker is due. -/
def LineTx.start : LineTx :=
  { pairs := 16384, marker := 0, commaAt := 0, scramblers := List.replicate 4 (2 ^ 58 - 1), runs := List.replicate 4 (0, 0), wait := [],
    nakOut := false, slots := [] }

/-- A receiver before its first marker. -/
def LineRx.start : LineRx :=
  { pair := 0, marker := 0, commaAt := 0, scramblers := List.replicate 4 (2 ^ 58 - 1), runs := List.replicate 4 (0, 0), lanes := [0, 1, 2, 3],
    errs := [0, 0, 0, 0] }

/-- A rein port (R483 to R496): training and alignment, both directions of the retry protocol, credits and queues. -/
structure PortSt where
  failures : Nat             -- consecutive failed trainings
  failedAt : Nat
  markers : Nat              -- marker intervals without error in ALIGNING
  badMarkers : Nat           -- disagreeing markers in a row
  fecLock : Bool
  rxSeq : Nat                -- the last DATA SEQ received in order
  nakSent : Bool
  txSeq : Nat                -- the next DATA SEQ to send
  retry : List RetryFlit     -- unacknowledged flits, oldest first
  ackAt : Nat                -- when ACK last advanced
  credits : SMap Nat         -- credits held per VC, in 16-byte units
  txq : List TypedPkt        -- packets waiting for the link
  partPkt : List Byte        -- bytes of a packet received so far (R487)
  eyeRun : Bool
  drain : Bool               -- LANE_RETRAIN: new packets keep off it (R607)
  owed : SMap Nat            -- credits to return to the peer per VC, in 16-byte units (R489)
  tx : LineTx
  rx : LineRx
  deriving DecidableEq, Repr

/-- A port after power-on reset. -/
def PortSt.idle : PortSt :=
  { failures := 0, failedAt := 0, markers := 0, badMarkers := 0, fecLock := false, rxSeq := 4095, nakSent := false, txSeq := 0,
    retry := [], ackAt := 0, credits := [], txq := [], partPkt := [], eyeRun := false, drain := false,
    owed := [], tx := LineTx.start, rx := LineRx.start }

/-- A contribution of a device partition that has arrived at a tree node (R513): its group, its subtree's first partition, its
M-chunk, its header and the bytes of its entries as far as they have come. -/
structure Contribution where
  dev : Nat              -- the device it came from
  corral : Nat
  group : Nat
  part : Nat
  chunk : Nat
  header : List Word
  need : Nat
  bytes : List Byte
  deriving DecidableEq, Repr

/-- A card segment's sender and what it has sent (R569, R572). -/
structure CardIn where
  dev : Nat
  bytes : List Byte
  whole : Bool
  deriving DecidableEq, Repr

/-- Device-wide rein state. -/
structure ReinSt where
  ports : SMap PortSt
  numbered : Bool                       -- this device has taken coordinates from an ENUM (R500)
  coords : SMap Nat                     -- lead: devices reported, by position
  locked : Bool                         -- first lock has happened (R508)
  contribs : List Contribution
  cards : List CardIn                   -- cards of a hitch RESYNC, by device (R572)
  cardFor : Option (Nat × Nat)          -- the RESYNC they are for
  cardSince : Nat                       -- when they were asked for
  deriving DecidableEq, Repr

/-- Rein state after power-on reset. -/
def ReinSt.reset : ReinSt :=
  { ports := [], numbered := false, coords := [], locked := false, contribs := [], cards := [],
    cardFor := none, cardSince := 0 }

end Sys2Proof.Machine
end

