-- ==== Sys2Proof/Machine/StService.lean ====
section
/-!
DEFINITION. The state of fault recording, discards, event records, repair and hot plug (chapters 16 and 18), as plain data.
-/

namespace Sys2Proof.Machine

/-- An entry of the FAULTS section of the stable card (R571, R593). `queue` is 0xFFFF where no command raised it. -/
structure FaultEntry where
  time : Nat
  code : Nat
  queue : Nat
  corral : Nat
  deriving DecidableEq, Repr

/-- A discard that runs in a corral (R594): the fault that began it, the queue that raised it and the stall failure that
calls for repair (stall, row of the team; R605, R606); `joined` are the code and queue of each later fault of the corral (R596). -/
structure Discard where
  code : Nat
  queue : Nat
  instant : Nat
  repair : List (Nat × Nat)
  joined : List (Nat × Nat)
  deriving DecidableEq, Repr

/-- An event record waiting for the firmware to write it (R599 to R601): its sequence number and its words 0, 2, 3 and 4
without PHASE. -/
structure EventRec where
  seq : Nat
  word0 : Nat
  time : Nat
  word3 : Nat
  detail : Nat
  deriving DecidableEq, Repr

/-- What the stable card keeps of a corral's discards (R571, CORRALS): the code and time of the last fault that discarded its
work and the commands discarded since power-on reset. -/
structure CorralLog where
  lastCode : Nat
  lastTime : Nat
  discarded : Nat
  deriving DecidableEq, Repr

/-- A corral with no discard since power-on reset. -/
def CorralLog.idle : CorralLog := { lastCode := 0, lastTime := 0, discarded := 0 }

/-- Repair state of a stall (R110, R605, R606): parity errors with their times, whether it is retired, and which spare serves
its index. -/
structure RepairSt where
  parityAt : List Nat
  retired : Bool
  spare : Option Nat
  lost : Option Nat    -- a spare that stood in for the stall and was retired itself
  row8 : Bool          -- the spare row is in use
  row : Nat            -- the logical row that row 8 replaces
  source : Bool        -- false: from fuses, true: in service (R121)
  deriving DecidableEq, Repr

/-- A stall without repair. -/
def RepairSt.idle : RepairSt :=
  { parityAt := [], retired := false, spare := none, lost := none, row8 := false, row := 0, source := false }

/-- Fault, event, repair and hot-plug state. -/
structure ServiceSt where
  faults : List FaultEntry          -- newest first, at most 32 (R571)
  discards : SMap (Option Discard)  -- per corral: the discard that runs
  corrals : SMap CorralLog
  events : List EventRec            -- produced and not yet written, oldest first (R599)
  eventSeq : Nat                    -- the next SEQ (R600)
  qtableSet : Bool                  -- HST_QTABLE_BASE has been written since power-on reset (R599)
  qptableSet : Bool                 -- HST_QP_TABLE_BASE has been written since power-on reset (R298)
  repairs : SMap RepairSt
  presence : Nat                    -- the presence mask this device holds (R608)
  pollMiss : SMap Nat               -- lead: consecutive polls a position has missed (R610)
  downReports : SMap Nat            -- lead: bits of the neighbours of a position that report it down (R610)
  pollSeen : Nat                    -- wheeler: timebase value of the last MGMT poll (R611)
  leadLost : Bool                   -- wheeler: no poll for 40 ms (R611)
  probedAt : Nat                    -- lead: when it last probed an unadmitted position (R612)
  deriving DecidableEq, Repr

/-- Service state after power-on reset. -/
def ServiceSt.reset : ServiceSt :=
  { faults := [], discards := [], corrals := [], events := [], eventSeq := 0, qtableSet := false, qptableSet := false,
    repairs := [], presence := 0, pollMiss := [], downReports := [], pollSeen := 0, leadLost := false, probedAt := 0 }

/-- A trace sample that has been taken (R555, R557): its stamp and its word without OFFSET. -/
structure Sample where
  stamp : Nat
  word : Nat
  deriving DecidableEq, Repr

/-- Trace state of a die (R556, R558): the open block's samples in order, its loss count, and the next block number. -/
structure TraceDie where
  block : List Sample
  lost : Nat
  seq : Nat
  deriving DecidableEq, Repr

/-- A die that has no block open. -/
def TraceDie.idle : TraceDie := { block := [], lost := 0, seq := 0 }

/-- Trace state (R555 to R558). -/
structure ObserveSt where
  dies : SMap TraceDie
  lastSample : Option Nat
  lastOcc : Option Nat
  deriving DecidableEq, Repr

/-- No sample taken. -/
def ObserveSt.reset : ObserveSt := { dies := [], lastSample := none, lastOcc := none }

end Sys2Proof.Machine
end

