-- ==== Sys2Proof/Machine/StTeam.lean ====
section
/-!
DEFINITION. The state of a team (R82, R89 to R93, R106 to R108): the register sets of its MAC cells, its standby state, and the
progress of its rows and columns, as plain data.
-/

namespace Sys2Proof.Machine

/-- A stationary register set of a MAC cell (R89): 64 value bits, 12 TF32 extension bits, a 32-bit sparsity index field, and one
parity bit for each 16 of them. -/
structure RegSet where
  value : Nat                -- 64 bits
  ext : Nat                  -- 12 bits
  index : Nat                -- 32 bits
  parity : Nat               -- one bit for each 16 of the others
  deriving DecidableEq, Repr

/-- A set after power-on reset. DESIGN CHOICE (log 112): zero; the spec gives no value, and no command reads it. -/
def RegSet.zero : RegSet := { value := 0, ext := 0, index := 0, parity := 0 }

/-- The standby state of a stall (R90). -/
inductive Standby where
  | empty | loading | ready | swapping
  deriving DecidableEq, Repr

/-- What a team works through (R92): the M-chunk of a MATRIX command or stage, its N-slice, the gang member above it, whether it is its
gang's last, whether it takes two beats a step (R63), and its passes: the tile it loads for each, and the rows it streams. -/
structure TeamJob where
  queue : Nat
  seq : Nat
  stage : Nat
  chunk : Nat
  corral : Nat
  slice : Nat
  up : Option Nat            -- the gang member above
  down : Option Nat          -- the gang member below
  slow : Bool                -- two beats a step (R63)
  passes : List (Nat × Nat)
  deriving DecidableEq, Repr

/-- A team (R89, R90, R106). A step is a relay or an element, counted through the job's passes; `arrived` and `taken` count the elements that have
come to each row's feeder and that it has broadcast, `done` the steps of each cell (8 × row + column), `sent` what has left each
column: elements taken by the accumulator store, or steps passed to the gang member below. -/
structure TeamSt where
  job : Option TeamJob
  active : List RegSet       -- 8 × row + column; none listed: all zero
  standby : List RegSet
  phase : Standby
  words : Nat                -- transfers of the present load that have arrived
  loads : Nat                -- loads begun for the job
  swaps : Nat                -- relays begun for the job
  arrived : List Nat         -- per row
  taken : List Nat           -- per row
  done : List Nat            -- per cell
  sent : List Nat            -- per column
  deriving DecidableEq, Repr

/-- A team with no job, over register sets. -/
def TeamSt.withSets (active standby : List RegSet) : TeamSt :=
  { job := none, active := active, standby := standby, phase := .empty, words := 0, loads := 0, swaps := 0
    arrived := List.replicate 8 0, taken := List.replicate 8 0, done := List.replicate 64 0, sent := List.replicate 8 0 }

/-- A team after power-on reset. -/
def TeamSt.reset : TeamSt := TeamSt.withSets [] []

/-- A stall beyond its registers: consecutive low readings of its gait meter (R113), and its team. -/
structure StlSt where
  lows : Nat
  team : TeamSt              -- its register sets and progress (R82, R89)
  deriving DecidableEq, Repr

/-- A stall after reset. -/
def StlSt.idle : StlSt := { lows := 0, team := TeamSt.reset }

end Sys2Proof.Machine
end

