-- ==== Sys2Proof/Machine/StVec.lean ====
section
/-!
DEFINITION. The stall sequencers and vector engines (chapter 07) as plain data: two banks of registers per stall (R218), the
program store with its verified bits (R224), and what a bank waits for (R237).
-/

namespace Sys2Proof.Machine

/-- The states of a bank (R237). -/
inductive BankPhase where
  | free | loading | ready | active | waiting | stopped
  deriving DecidableEq, Repr

/-- The code of STL_SEQ_BANKn.STATE (R237). -/
def bankCode : BankPhase → Nat
  | .free => 0 | .loading => 1 | .ready => 2 | .active => 3 | .waiting => 4 | .stopped => 5

/-- What a WAITING bank waits for (R238, R242, R243). `halted` is a bank whose HALT has issued and whose command goes on
elsewhere. -/
inductive WaitCond where
  | none
  | hwait (ch need dest : Nat)
  | hpost (ch n : Nat) (close : Bool)
  | dispatch (block : List Word)
  | halted
  deriving DecidableEq, Repr

/-- What one vector command has counted on one stall (R77, R78, R81). -/
structure VecCounts where
  invalid : Nat
  zinf : Nat
  overflow : Nat
  illegal : Nat            -- invalid operations of R72 alone: what HALT_ON_INVALID looks at (R81)
  first : Option Nat       -- the smallest logical element index with an invalid operation (R78)
  deriving DecidableEq, Repr

/-- Nothing counted. -/
def VecCounts.zero : VecCounts := { invalid := 0, zinf := 0, overflow := 0, illegal := 0, first := none }

/-- A bank (R218): scalar, vector and mask registers, program counter and command binding. -/
structure BankSt where
  phase : BankPhase
  s : SMap Word
  v : SMap (BitVec 1024)
  masks : SMap (BitVec 128)
  pc : Nat
  queue : Nat
  seq : Nat
  stage : Nat              -- the tandem stage, 0 outside a tandem
  rank : Nat
  stalls : Nat             -- STALL_COUNT
  pstart : Nat
  plen : Nat
  limit : Nat              -- INSTR_LIMIT × 65,536, 0 for none
  seed : Nat
  haltInv : Bool
  windows : List (Nat × Nat × Bool)   -- base, length, writable
  issued : Nat
  wait : WaitCond
  counts : VecCounts
  deriving DecidableEq, Repr

/-- A bank that holds no command. -/
def BankSt.idle : BankSt :=
  { phase := .free, s := [], v := [], masks := [], pc := 0, queue := 0, seq := 0, stage := 0, rank := 0, stalls := 0, pstart := 0,
    plen := 0, limit := 0, seed := 0, haltInv := false, windows := [], issued := 0, wait := .none, counts := VecCounts.zero }

/-- The sequencer of one stall: its banks, program store, verified bits, the last ACTIVE bank and the PC it had (R240). -/
structure SeqSt where
  bank0 : BankSt
  bank1 : BankSt
  last : Bool              -- the ACTIVE bank, or the last one
  lastPc : Nat
  prog : SMap Word
  verified : SMap Bool
  deriving DecidableEq, Repr

/-- A sequencer after power-on reset: both banks FREE, a program store of zeros, nothing verified (R224). -/
def SeqSt.idle : SeqSt :=
  { bank0 := BankSt.idle, bank1 := BankSt.idle, last := false, lastPc := 0, prog := [], verified := [] }

/-- A bank of a sequencer. -/
def SeqSt.bank (q : SeqSt) (b : Bool) : BankSt := if b then q.bank1 else q.bank0

/-- Replace a bank. -/
def SeqSt.setBank (q : SeqSt) (b : Bool) (v : BankSt) : SeqSt := if b then { q with bank1 := v } else { q with bank0 := v }

/-- The ACTIVE bank of a sequencer, if any (R238: at most one). -/
def SeqSt.active (q : SeqSt) : Option Bool :=
  if q.bank0.phase = .active then some false else if q.bank1.phase = .active then some true else none

/-- A scalar register: S0 reads as zero (R218). -/
def BankSt.sreg (b : BankSt) (n : Nat) : Word := if n = 0 then 0 else smGet (fun _ => 0) b.s n

/-- Write a scalar register: writes to S0 are ignored (R218). -/
def BankSt.setS (b : BankSt) (n : Nat) (v : Word) : BankSt := if n = 0 then b else { b with s := smSet (fun _ => 0) b.s n v }

/-- A vector register. -/
def BankSt.vreg (b : BankSt) (n : Nat) : BitVec 1024 := smGet (fun _ => 0) b.v n

/-- Write a vector register. -/
def BankSt.setV (b : BankSt) (n : Nat) (v : BitVec 1024) : BankSt := { b with v := smSet (fun _ => 0) b.v n v }

/-- A mask register: MK0 reads as all ones (R218); an unlisted mask is all ones (R234). -/
def BankSt.mreg (b : BankSt) (n : Nat) : BitVec 128 := if n = 0 then BitVec.allOnes 128 else smGet (fun _ => BitVec.allOnes 128) b.masks n

/-- Write a mask register. -/
def BankSt.setM (b : BankSt) (n : Nat) (v : BitVec 128) : BankSt :=
  { b with masks := smSet (fun _ => BitVec.allOnes 128) b.masks n v }

end Sys2Proof.Machine
end

