-- ==== Sys2Proof/Machine/State.lean ====
section
/-!
DEFINITION. The state of the block: everything the spec gives it, as plain data, with the queue of the commands that wait.
-/

namespace Sys2Proof.Machine

/-- A host port beyond its registers (R294): per priority, the timebase value until which a PFC frame pauses it, and whether the
port has an XOFF outstanding; the messages that wait for a paused priority, oldest first, with their frames. -/
structure HostPort where
  paused : SMap Nat
  xoff : Bool
  txq : List (WireMsg × Nat)
  deriving DecidableEq, Repr

/-- A host port that pauses nothing. -/
def HostPort.idle : HostPort := { paused := [], xoff := false, txq := [] }

/-- The state of the device.

* `pending`: the commands waiting, first in, first out. `time`: the timebase, ns (R26). `draws`: the model's own counter of free
  values.
* `regs`: every register of every window, by physical address (R43). `mem`: HBM, stall memory and paddock RAM by physical address
  (R41); an unlisted byte reads 0 (R637). `bad`: addresses of uncorrectable 32-byte ECC words (R460).
* `queues` to `hostPorts`: chapters 08 and 09; `xold` is what the translation caches may still hold (R268). `acs`, `stls`, `seqs`: chapters 03, 04 and 07. `cfg`, `pdks`: chapters 10 and 11.
  `noc`, `hbm`, `rein`: chapters 12 to 14. `groom`, `fuse`, `pwr`, `tap`: chapters 15 and 19. `obs`, `svc`: chapters 16 and 18.
* `sent`: what the device has put on its wires, newest first. -/
structure State where
  pending : List Instr
  time : Nat
  draws : Nat
  regs : SMap Word
  mem : List Host.Cell
  bad : List Nat
  queues : SMap QueueSt
  cmds : List Cmd
  ctxs : SMap StreamCtx
  rings : List ManualRing
  tethers : SMap Word
  qps : SMap QpSt
  mrs : SMap (Option (List Word))
  xold : XlateOld
  hostPorts : SMap HostPort
  acs : AcsSt
  stls : SMap StlSt
  seqs : SMap SeqSt
  cfg : CfgSt
  pdks : SMap PdkSt
  noc : NocSt
  hbm : HbmSt
  rein : ReinSt
  groom : GroomSt
  fuse : FuseSt
  pwr : PwrSt
  tap : TapSt
  obs : ObserveSt
  svc : ServiceSt
  sent : List WireMsg
  deriving DecidableEq, Repr

/-- Why a step could stop with a fault. The spec gives every command of the block an effect, so no meaning ends in one and the
type has no constructor. -/
inductive Fault where
  deriving DecidableEq, Repr

/-- Why a step refuses. -/
inductive Refusal where
  /-- Raised by `exec` for a command whose meaning has not been written. Safe: the machine stops where the hardware goes on. -/
  | notModelled (mnemonic : String)
  deriving DecidableEq, Repr

/-- The machine right after power-on reset (R622): every register at its reset value, memory zero (R637), no configuration. -/
def State.reset : State :=
  { pending := [], time := 0, draws := 0, regs := [], mem := [], bad := [], queues := [], cmds := [], ctxs := [],
    rings := [], tethers := [], qps := [], mrs := [], xold := XlateOld.reset, hostPorts := [], acs := AcsSt.reset, stls := [], seqs := [],
    cfg := CfgSt.reset, pdks := [], noc := NocSt.reset, hbm := HbmSt.reset, rein := ReinSt.reset, groom := GroomSt.reset,
    fuse := FuseSt.blank, pwr := PwrSt.reset, tap := TapSt.reset, obs := ObserveSt.reset, svc := ServiceSt.reset, sent := [] }

/-- Nothing runs while the device is held in reset (R624) or has tripped (R628). -/
def State.down (s : State) : Bool := s.pwr.held || s.pwr.tripped

/-- The answer of a meaning that may change anything but the commands that wait. -/
def State.liveAll (s : State) (t : State) : Host.Outcome State Fault Refusal :=
  .next (if s.down then s else { t with pending := s.pending })

/-- The answer of nearly every meaning. What the spec lets only a few commands change stays as it is: the timebase (R26, R508), the
fuses (R545), the power domain (chapter 19) and the test access port (R633). -/
def State.live (s : State) (t : State) : Host.Outcome State Fault Refusal :=
  s.liveAll { t with time := s.time, fuse := s.fuse, pwr := s.pwr, tap := s.tap }

end Sys2Proof.Machine
end

