-- ==== Sys2Proof/Machine/Ops.lean ====
section
/-!
DEFINITION. Named operations over the state that every command shares: registers and counters, memory, events, ownership,
address classification and translation.
-/

namespace Sys2Proof.Machine

/-! ## Registers -/

/-- The value of a register. -/
def State.reg (s : State) (r : Reg) (inst idx : Nat) : Word := smGet regDefault s.regs (regAddr r inst idx)

/-- Replace a register. -/
def State.setReg (s : State) (r : Reg) (inst idx : Nat) (v : Word) : State :=
  { s with regs := smSet regDefault s.regs (regAddr r inst idx) v }

/-- A field of a register. -/
def State.fld (s : State) (r : Reg) (inst idx hi lo : Nat) : Nat := (s.reg r inst idx).fld hi lo

/-- Replace a field of a register. -/
def State.setFld (s : State) (r : Reg) (inst idx hi lo v : Nat) : State :=
  s.setReg r inst idx ((s.reg r inst idx).put hi lo v)

/-- Add to a counter of the GEN and COUNT layout: COUNT counts modulo 2^48 (R122). -/
def State.bump (s : State) (r : Reg) (inst idx n : Nat) : State :=
  s.setFld r inst idx 47 0 (s.fld r inst idx 47 0 + n)

/-- A free value and the state after it has been drawn. -/
def State.draw (s : State) : Word × State := (Config.freeWord s.draws, { s with draws := s.draws + 1 })

/-- Replace one entry of a list of natural numbers kept without repeats. -/
def insertNat (n : Nat) (l : List Nat) : List Nat := if l.contains n then l else n :: l

/-! ## Physical memory (R41) -/

/-- The parity of the low 57 bits of a number. -/
def parity (n : Nat) : Nat := ((upTo 57).filter (fun i => bitAt n i)).length % 2

/-- An HBM address lies in a stack, by the hash masks that stood when its contents became undefined. -/
def UndefMem.covers (u : UndefMem) (pa : Nat) : Bool :=
  decide (pa < 2 ^ 39) &&
    parity (Nat.land pa (u.masks.getD 0 0)) + 2 * parity (Nat.land pa (u.masks.getD 1 0))
      + 4 * parity (Nat.land pa (u.masks.getD 2 0)) == u.stack

/-- What a byte that nothing has written reads as: 0, or a free value in a stack whose contents became undefined (R637). -/
def memDefault : List UndefMem → Nat → Byte
  | [], _ => 0
  | u :: t, pa => if u.covers pa then Config.undefinedByte u.draw pa else memDefault t pa

/-- The canonical form of a memory: addresses rise strictly, and no entry equals what an unlisted address reads as. -/
def Memory.wf (undef : List UndefMem) (m : List Host.Cell) : Bool := smWf (memDefault undef) m

/-- The byte at a physical address of HBM, stall memory or paddock RAM. -/
def State.rd (s : State) (pa : Nat) : Byte := smGet (memDefault s.hbm.undef) s.mem pa

/-- `n` bytes from a physical address. -/
def State.rdBytes (s : State) (pa n : Nat) : List Byte := (upTo n).map (fun i => s.rd (pa + i))

/-- The 64-bit word at a physical address (R5). -/
def State.rdWord (s : State) (pa : Nat) : Nat := leNat (s.rdBytes pa 8)

/-- Write bytes into a memory from an address up. -/
def memWrite (d : Nat → Byte) (m : List Host.Cell) (pa : Nat) : List Byte → List Host.Cell
  | [] => m
  | b :: t => memWrite d (smSet d m pa b) (pa + 1) t

/-- Write bytes from a physical address up. A 32-byte ECC word that the write covers whole is correctable again (R460). -/
def State.wr (s : State) (pa : Nat) (bs : List Byte) : State :=
  { s with mem := memWrite (memDefault s.hbm.undef) s.mem pa bs
           bad := s.bad.filter (fun w => !(decide (pa ≤ w) && decide (w + 32 ≤ pa + bs.length))) }

/-- Write a 64-bit word. -/
def State.wrWord (s : State) (pa : Nat) (v : Nat) : State := s.wr pa (leBytes 8 v)

/-- Bytes of a list of words. -/
def wordsBytes (ws : List Word) : List Byte := ws.flatMap (fun w => leBytes 8 w.toNat)

/-- The words of a byte list, eight bytes each. -/
def bytesWords (n : Nat) (bs : List Byte) : List Word := (upTo n).map (fun i => BitVec.ofNat 64 (wordAt bs (8 * i)))

/-- An uncorrectable word that a read of `[pa, pa + n)` meets, if any (R460). -/
def State.badIn (s : State) (pa n : Nat) : Option Nat :=
  s.bad.find? (fun w => decide (w < pa + n) && decide (pa < w + 32))

/-- An uncorrectable word that a write of `[pa, pa + n)` covers only partly, whose merge read fails (R261, R460). -/
def State.badMerge (s : State) (pa n : Nat) : Option Nat :=
  s.bad.find? (fun w => decide (w < pa + n) && decide (pa < w + 32) && !(decide (pa ≤ w) && decide (w + 32 ≤ pa + n)))

/-! ## Events and event records (R599 to R601) -/

/-- The event register, its enable register and the BLOCK code of a block (R601). -/
def evRegs (b : Blk) : Option (Reg × Reg × Nat) :=
  match b with
  | .stl => some (.STL_EVENT, .STL_EVENT_EN, 0)
  | .acs => some (.ACS_EVENT, .ACS_EVENT_EN, 1)
  | .vec => some (.VEC_EVENT, .VEC_EVENT_EN, 2)
  | .pdk => some (.PDK_EVENT, .PDK_EVENT_EN, 3)
  | .cfg => some (.CFG_EVENT, .CFG_EVENT_EN, 4)
  | .noc => some (.NOC_EVENT, .NOC_EVENT_EN, 5)
  | .hbm => some (.HBM_EVENT, .HBM_EVENT_EN, 6)
  | .rnl => some (.RNL_EVENT, .RNL_EVENT_EN, 7)
  | .hst => some (.HST_EVENT, .HST_EVENT_EN, 8)
  | .grm => some (.GRM_EVENT, .GRM_EVENT_EN, 9)
  | .dbg => some (.DBG_EVENT, .DBG_EVENT_EN, 10)
  | .pwr => some (.PWR_EVENT, .PWR_EVENT_EN, 11)
  | .sec => none

/-- The groom's phase is READY (R552). -/
def State.ready (s : State) : Bool := s.fld .GRM_STATUS 0 0 3 0 == 4

/-- May event records be written now (R599)? -/
def State.eventsOpen (s : State) : Bool := s.ready && s.svc.qtableSet

/-- Produce an event record; while records cannot be written only the newest 256 are held (R599). -/
def State.pushEvent (s : State) (blk inst bit code queue : Nat) (corral : Option Nat) (detail : Nat) : State :=
  let r : EventRec :=
    { seq := s.svc.eventSeq, word0 := blk % 16 * 2 ^ 60 + inst % 2 ^ 14 * 2 ^ 46 + bit % 64 * 2 ^ 40, time := s.time,
      word3 := code % 2 ^ 16 * 2 ^ 48 + queue % 2 ^ 16 * 2 ^ 32
        + (match corral with | some c => c % 256 * 2 ^ 24 + 2 ^ 23 | none => 0),
      detail := detail }
  let l := s.svc.events ++ [r]
  { s with svc := { s.svc with eventSeq := s.svc.eventSeq + 1
                               events := if s.eventsOpen then l else l.drop (l.length - 256) } }

/-- The DETAIL word of a block's event (R601). -/
def State.eventDetail (s : State) (b : Blk) (inst : Nat) : Nat :=
  match b with
  | .noc => (s.reg .NOC_ROUTE_FAULT inst 0).toNat
  | .hbm => (s.reg .HBM_ERR_LOG inst 0).toNat
  | .rnl => (s.reg .RNL_PEER inst 0).toNat
  | .stl => (s.reg .STL_REPAIR inst 0).toNat
  | _ => 0

/-- Set an event bit; a bit that becomes 1 while its enable is 1 produces an event record (R600). -/
def State.raise (s : State) (b : Blk) (inst bit code queue : Nat) (corral : Option Nat) : State :=
  match evRegs b with
  | none => s
  | some (ev, en, blk) =>
    let old := s.reg ev inst 0
    let s1 := s.setReg ev inst 0 (old ||| BitVec.ofNat 64 (2 ^ bit))
    if !old.bit bit && (s.reg en inst 0).bit bit then s1.pushEvent blk inst bit code queue corral (s.eventDetail b inst) else s1

/-- An event that belongs to no command. -/
def State.raise0 (s : State) (b : Blk) (inst bit : Nat) : State := s.raise b inst bit 0 0xFFFF none

/-- A DEVICE event: 0 DISCARD, 1 REMOVED, 2 ADMITTED, 3 SPARE_STALL, 4 STALL_RETIRED (R601). -/
def State.deviceEvent (s : State) (inst bit code queue : Nat) (corral : Option Nat) (detail : Nat) : State :=
  s.pushEvent 15 inst bit code queue corral detail

/-- DEV_ALERT_N is asserted: some event bit is 1 with its enable bit 1 (R600). -/
def State.alert (s : State) : Bool :=
  s.regs.any (fun p =>
    match regAt p.1 with
    | some w =>
      allBlks.any (fun b =>
        match evRegs b with
        | some (ev, en, _) => w.reg == ev && (p.2 &&& s.reg en w.inst 0) != 0
        | none => false)
    | none => false)

/-- A register access that reaches a hole or breaks R9: counted, with DBG_EVENT.BAD_REG. -/
def State.badReg (s : State) : State := (s.bump .DBG_BAD_REG_ACCESS 0 0 1).raise0 .dbg 0 0

/-! ## HBM stacks (R451 to R453, R463) -/

/-- Selection field f of an address (R452). -/
def State.hashBit (s : State) (f pa : Nat) : Nat := parity (Nat.land pa (s.reg .HBM_HASH 0 f).toNat)

/-- A run of selection fields as a number, the first one lowest (R452). -/
def State.hashField (s : State) (pa f0 : Nat) : Nat → Nat
  | 0 => 0
  | n + 1 => s.hashField pa f0 n + s.hashBit (f0 + n) pa * 2 ^ n

/-- The stack of a physical HBM address (R452). -/
def State.stackOf (s : State) (pa : Nat) : Nat := s.hashField pa 11 3

/-- The controller of a physical HBM address (R452). -/
def State.ctrlOf (s : State) (pa : Nat) : Nat := s.hashField pa 1 4

/-- The pseudo-channel within its pair (R452). -/
def State.xOf (s : State) (pa : Nat) : Nat := s.hashBit 0 pa

/-- The global pseudo-channel number (R450). -/
def State.pcOf (s : State) (pa : Nat) : Nat := 32 * s.stackOf pa + 2 * s.ctrlOf pa + s.xOf pa

/-- The bank of a physical HBM address within its pseudo-channel (R452). -/
def State.bankOf (s : State) (pa : Nat) : Nat := 16 * s.hashField pa 9 2 + 4 * s.hashField pa 7 2 + s.hashField pa 5 2

/-- HBM_STATUS.STATE of a stack (R463, R467): 2 is ONLINE. -/
def State.stackState (s : State) (st : Nat) : Nat := s.fld .HBM_STATUS st 0 2 0

/-- Is a physical HBM address served (R463)? -/
def State.hbmServed (s : State) (pa : Nat) : Bool := s.stackState (s.stackOf pa) == 2

/-- An uncorrectable word met by a reader (R460, R469): counted, HBM_EVENT.UNCORR set, logged if that bit was clear. -/
def State.logUncorr (s : State) (source w : Nat) : State :=
  let st := s.stackOf w
  let s1 := s.bump .HBM_CNT st 7 1
  let s2 := if (s.reg .HBM_EVENT st 0).bit 1 then s1
    else s1.setReg .HBM_ERR_LOG st 0 (BitVec.ofNat 64 (source % 8 * 2 ^ 61 + w % 2 ^ 39 / 32 * 32 + 1))
  s2.raise .hbm st 1 E_HBM_UNCORR 0xFFFF none

/-! ## Ownership (R31, R34, R392) -/

/-- The first range of a list that covers an item decides its owner (R394). -/
def ownerIn (k : OwnKind) (i : Nat) : List OwnRange → Option Nat
  | [] => none
  | r :: t => if r.kind = k ∧ r.first ≤ i ∧ i < r.first + r.count then r.corral else ownerIn k i t

/-- The corral that owns a resource, none where it is held (R33). -/
def State.owner (s : State) (k : OwnKind) (i : Nat) : Option Nat := ownerIn k i s.cfg.live.own

/-- Does a corral own a resource? -/
def State.owns (s : State) (c : Nat) (k : OwnKind) (i : Nat) : Bool := s.owner k i == some c

/-- May a corral read (or write) a 2 MiB granule: its own, or a shared range it writes or reads (R31)? -/
def State.granuleOk (s : State) (c : Nat) (write : Bool) (g : Nat) : Bool :=
  s.owns c .hbm g || s.cfg.live.shares.any (fun r =>
    decide (r.first ≤ g) && decide (g < r.first + r.count) && (r.writer == c || (!write && bitAt r.readers c)))

/-- The definition of an enabled corral. -/
def State.corral (s : State) (c : Nat) : Option CorralDef := smGet (fun _ => none) s.cfg.live.corrals c

/-- The gang length of a corral, 1 where it is not enabled. -/
def State.gangLen (s : State) (c : Nat) : Nat := match s.corral c with | some d => d.l | none => 1

/-- The members of a gang, head first (R95). -/
def gangMembers (head len : Nat) : List Nat := (upTo len).map (fun j => head + 32 * j)

/-- Repair state of a stall. -/
def State.repair (s : State) (st : Nat) : RepairSt := smGet (fun _ => RepairSt.idle) s.svc.repairs st

/-- Replace the repair state of a stall. -/
def State.setRepair (s : State) (st : Nat) (r : RepairSt) : State :=
  { s with svc := { s.svc with repairs := smSet (fun _ => RepairSt.idle) s.svc.repairs st r } }

/-- A stall is in service: not retired, or with a spare in its place (R606). -/
def State.inService (s : State) (st : Nat) : Bool := !(s.repair st).retired || (s.repair st).spare.isSome

/-- The region that the first REGION range covering a frame names, else region 0. -/
def regionNamed (f : Nat) : List RegionRange → Nat
  | [] => 0
  | r :: t => if r.frame ≤ f ∧ f < r.frame + r.count then r.region else regionNamed f t

/-- The region of a frame (R387, R392). Region 0 holds every network frame, whatever a REGION command names. -/
def regionIn (f : Nat) (l : List RegionRange) : Nat := if bitsOf f 29 28 = 3 then 0 else regionNamed f l

/-- A frame address (R381). -/
def frameAddr (die typ col minor : Nat) : Nat := die * 2 ^ 30 + typ * 2 ^ 28 + col * 2 ^ 22 + minor

/-- The first of the eight frames of a paddock (R382). -/
def pdkFrame (p : Nat) : Nat := frameAddr (p / 2304) 0 (p % 2304 / 64) (8 * (p % 64))

/-- The route-table frame of a stall (R382). -/
def stallFrame (st : Nat) : Nat := frameAddr (st / 768) 1 (st % 32) (st % 768 / 32)

/-- The region of a stall (R387). -/
def State.stallRegion (s : State) (st : Nat) : Nat := regionIn (stallFrame st) s.cfg.live.regions

/-- The region of a paddock (R387). -/
def State.pdkRegion (s : State) (p : Nat) : Nat := regionIn (pdkFrame p) s.cfg.live.regions

/-- The release state of a region. -/
def State.region (s : State) (r : Nat) : RegionSt := smGet (fun _ => RegionSt.idle) s.cfg.regions r

/-- A paddock whose region is quarantined (R402). -/
def State.pdkShut (s : State) (p : Nat) : Bool := (s.region (s.pdkRegion p)).quarantined

/-- A stall whose region is quarantined (R402). -/
def State.stlShut (s : State) (st : Nat) : Bool := (s.region (s.stallRegion st)).quarantined

/-! ## Addresses (R41 to R44) -/

def hbmTop : Nat := 2 ^ 39
def stallBase : Nat := 0x1E0000000000000
def pdkRamBase : Nat := 0x1E0000100000000
def doorBase : Nat := 0x1E8000000000000
def regBase : Nat := 0x1F0000000000000
def regTop : Nat := 0x1F0000019000000

/-- What a physical address names (R41). -/
inductive Place where
  | hbm
  | stall (i off : Nat)
  | pdk (i off : Nat)
  | door (q off : Nat)
  | reg
  | unmapped
  deriving DecidableEq, Repr

/-- Classify a physical address (R41, R340). -/
def placeOf (pa : Nat) : Place :=
  if pa < hbmTop then .hbm
  else if stallBase ≤ pa ∧ pa < stallBase + 3072 * 0x40000 then .stall ((pa - stallBase) / 0x40000) ((pa - stallBase) % 0x40000)
  else if pdkRamBase ≤ pa ∧ pa < pdkRamBase + 9216 * 0x2000 then
    if (pa - pdkRamBase) % 0x2000 < 0x1200 then .pdk ((pa - pdkRamBase) / 0x2000) ((pa - pdkRamBase) % 0x2000) else .unmapped
  else if doorBase ≤ pa ∧ pa < doorBase + 65536 * 0x1000 then .door ((pa - doorBase) / 0x1000) ((pa - doorBase) % 0x1000)
  else if regBase ≤ pa ∧ pa < regTop then .reg
  else .unmapped

/-- Physical address of an offset of a stall's memory. -/
def stallAddr (st off : Nat) : Nat := stallBase + st * 0x40000 + off

/-- Physical address of an offset of a paddock's RAM slot. -/
def pdkRamAddr (p off : Nat) : Nat := pdkRamBase + p * 0x2000 + off

/-- Why a command of a corral may not access a physical address (R34, R42, R44, R463). A corral's command reaches its own HBM
granules, the memory of its own stalls and the RAM of its own paddocks; ownership of a resource in a quarantined region does not act
(R402). DESIGN CHOICE (log 131): stall memory and paddock RAM that the corral does not own give E_MEM_OUT_OF_CORRAL, as HBM outside
its ranges does; and a granule that is both foreign and in a stack that is not served gives E_MEM_OUT_OF_CORRAL. -/
def State.accessErr (s : State) (c : Nat) (write : Bool) (pa : Nat) : Option Nat :=
  match placeOf pa with
  | .hbm => if !s.granuleOk c write (pa / 2 ^ 21) then some E_MEM_OUT_OF_CORRAL
            else if s.hbmServed pa then none else some E_ADDR_UNMAPPED
  | .stall i _ => if s.owns c .stall i && !s.stlShut i then none else some E_MEM_OUT_OF_CORRAL
  | .pdk i _ => if s.owns c .paddock i && !s.pdkShut i then none else some E_MEM_OUT_OF_CORRAL
  | .door _ _ => some E_CORRAL_ACCESS
  | .reg => some E_CORRAL_ACCESS
  | .unmapped => some E_ADDR_UNMAPPED

/-! ## Translation (R265 to R270) -/

/-- The result of a translation: an address, or CAUSE and LEVEL of the failure (R270). -/
inductive Xl where
  | ok (pa : Nat)
  | fail (cause level : Nat)
  deriving DecidableEq, Repr

/-- The levels of a walk with their index bits (R265). -/
def walkLevels : List (Nat × Nat × Nat) := [(0, 56, 48), (1, 47, 39), (2, 38, 30), (3, 29, 21), (4, 20, 16)]

/-- Is an entry bad (R267)? `lv` is its level, `lo` the low index bit of that level. -/
def entryBad (e lv lo : Nat) : Bool :=
  let leaf := bitAt e 1
  let addr := bitsOf e 56 8 * 256
  bitsOf e 63 57 != 0 || bitsOf e 7 4 != 0 || (leaf && decide (lv < 2)) || (!leaf && lv == 4)
    || (leaf && addr % 2 ^ lo != 0) || (!leaf && addr % (if lv = 3 then 256 else 4096) != 0)

/-- What the caches may hold of an address's translation: memory when an invalidation that covers it last completed, and the entries that
accesses to its page have used since (R268). -/
structure OldView where
  mem : List Host.Cell
  used : List (Nat × Nat)   -- address and what it held
  deriving DecidableEq, Repr

/-- An invalidation of a page covers an address. -/
def OldPage.covers (p : OldPage) (ctx va : Nat) : Bool := p.ctx == ctx && p.base / 2 ^ p.span == va / 2 ^ p.span

/-- What the caches may hold of an address of a context. -/
def XlateOld.view (x : XlateOld) (ctx va : Nat) : OldView :=
  { mem := match x.pages.find? (fun p => p.covers ctx va) with
      | some p => p.mem
      | none => (smGet (fun _ => none) x.ctxs ctx).getD x.all
    used := (x.used.filter (fun k => k.ctx == ctx && k.page == va / 65536)).map (fun k => (k.addr, k.held)) }

/-- A word of a memory that is no longer the present one. -/
def oldWord (m : List Host.Cell) (a : Nat) : Nat := leNat ((List.range 8).map fun i => smGet (fun _ => (0 : Byte)) m (a + i))

/-- The valid entries that the caches may hold for an address (R268). -/
def OldView.entries (v : OldView) (a : Nat) : List Nat :=
  (oldWord v.mem a :: (v.used.filter (fun k => k.1 == a)).map (·.2)).filter (fun e => bitAt e 0)

/-- The entry that stands in memory at an address; none for a walk error (R267). -/
def State.memEntry (s : State) (a : Nat) : Option Nat :=
  if hbmTop ≤ a ∨ !s.hbmServed a ∨ (s.badIn a 8).isSome then none else some (s.rdWord a)

/-- The cached entry that a walk uses where it differs from the one in memory, as a free value decides (R268). -/
def State.oldEntry (s : State) (old : OldView) (a : Nat) : Option Nat :=
  match (old.entries a).filter (fun e => some e != s.memEntry a) with
  | [] => none
  | e :: l =>
    let n := Config.cachedEntry s.draws s.time a % (l.length + 2)
    if n = 0 then none else (e :: l)[n - 1]?

/-- The entry at an address: a cached one, or the one in memory; none for a walk error (R267). -/
def State.entryAt (s : State) (old : OldView) (a : Nat) : Option Nat :=
  match s.oldEntry old a with
  | some e => some e
  | none => s.memEntry a

/-- The page-table walk (R265 to R269): causes 0 NOT_VALID, 1 NO_READ, 2 NO_WRITE, 3 BAD_ENTRY, 4 WALK_ERROR. -/
def State.walk (s : State) (old : OldView) (va : Nat) (write : Bool) : Nat → List (Nat × Nat × Nat) → Xl
  | _, [] => .fail 3 4
  | table, (lv, hi, lo) :: t =>
    match s.entryAt old (table + 8 * bitsOf va hi lo) with
    | none => .fail 4 lv
    | some e =>
      if !bitAt e 0 then .fail 0 lv
      else if entryBad e lv lo then .fail 3 lv
      else
        let addr := bitsOf e 56 8 * 256
        if bitAt e 1 then
          if write && !bitAt e 3 then .fail 2 lv
          else if !write && !bitAt e 2 then .fail 1 lv
          else .ok (addr + va % 2 ^ lo)
        else s.walk old va write addr t

/-- The root register of a context: 0–255 a corral's, 256 the driver's (R265, R334). -/
def State.xlateRoot (s : State) (ctx : Nat) : Word := if ctx < 256 then s.reg .HST_XLATE_ROOT 0 ctx else s.reg .HST_XLATE_ROOT_PRIV 0 0

/-- Translate a virtual address in a context (R265). -/
def State.translate (s : State) (ctx va : Nat) (write : Bool) : Xl :=
  let r := s.xlateRoot ctx
  if !r.bit 0 then .fail 0 0 else s.walk (s.xold.view ctx va) va write (r.fld 56 12 * 4096) walkLevels

/-- The valid entries that the walk for an address uses. -/
def State.walkUses (s : State) (old : OldView) (va : Nat) : Nat → List (Nat × Nat × Nat) → List (Nat × Nat)
  | _, [] => []
  | table, (_, hi, lo) :: t =>
    let a := table + 8 * bitsOf va hi lo
    match s.entryAt old a with
    | none => []
    | some e => if !bitAt e 0 then [] else if bitAt e 1 then [(a, e)] else (a, e) :: s.walkUses old va (bitsOf e 56 8 * 256) t

/-- The entries that the walk for an address uses and that no earlier use has put into the caches (R268). -/
def State.newEntries (s : State) (ctx va : Nat) : List CachedEntry :=
  (s.walkUses (s.xold.view ctx va) va ((s.xlateRoot ctx).fld 56 12 * 4096) walkLevels).filterMap (fun p =>
    let k : CachedEntry := { ctx := ctx, page := va / 65536, addr := p.1, held := p.2 }
    if s.xold.used.contains k then none else some k)

/-- The caches hold the entries a walk has used (R268). -/
def State.cacheWalk (s : State) (ctx va : Nat) : State :=
  { s with xold := { s.xold with used := s.newEntries ctx va ++ s.xold.used } }

/-- The uncorrectable word a page-table walk meets (R267, R460), if that is why it fails. -/
def State.walkBad (s : State) (old : OldView) (va : Nat) : Nat → List (Nat × Nat × Nat) → Option Nat
  | _, [] => none
  | table, (_, hi, lo) :: t =>
    let a := table + 8 * bitsOf va hi lo
    match s.entryAt old a with
    | none => if hbmTop ≤ a ∨ !s.hbmServed a then none else s.badIn a 8
    | some e => if !bitAt e 0 ∨ bitAt e 1 then none else s.walkBad old va (bitsOf e 56 8 * 256) t

/-- Log the uncorrectable word at which the walk for a corral's address stops (R460). -/
def State.logWalk (s : State) (c va : Nat) : State :=
  match s.walkBad (s.xold.view c va) va ((s.reg .HST_XLATE_ROOT 0 c).fld 56 12 * 4096) walkLevels with
  | some w => s.logUncorr 4 w
  | none => s

/-! ## Accesses of a corral's command -/

/-- Why an access of a command fails: a translation (R269), or an error code (R34, R42, R44, R460) with the word that is
uncorrectable. -/
inductive MemErr where
  | xlate (cause level : Nat)
  | code (c : Nat) (badWord : Option Nat)
  deriving DecidableEq, Repr

/-- The error code a structure read at admission rejects with (R640). -/
def MemErr.err : MemErr → Nat
  | .xlate _ _ => E_XLATE_FAULT
  | .code c _ => c

/-- Access one piece that lies within a 512-byte unit. -/
def State.pieceErr (s : State) (c : Nat) (write : Bool) (va n : Nat) : Option MemErr :=
  match s.translate c va write with
  | .fail cause lv => some (.xlate cause lv)
  | .ok pa =>
    match s.accessErr c write pa with
    | some e => some (.code e none)
    | none =>
      match (if write then s.badMerge pa n else s.badIn pa n) with
      | some w => some (.code E_HBM_UNCORR (some w))
      | none => none

/-- The pieces of `[va, va + n)`, one per 512-byte unit touched (R259). -/
def unitPieces (va n : Nat) : List (Nat × Nat) :=
  if n = 0 then []
  else (upTo ((va + n - 1) / 512 - va / 512 + 1)).map (fun k =>
    let a := max va ((va / 512 + k) * 512)
    (a, min (va + n) ((va / 512 + k + 1) * 512) - a))

/-- Units touched by `[va, va + n)` (R259). -/
def unitCount (va n : Nat) : Nat := if n = 0 then 0 else (va + n - 1) / 512 - va / 512 + 1

/-- A write covers some 32-byte ECC word only partly (R261). -/
def partialWrite (va n : Nat) : Bool := va % 32 != 0 || (va + n) % 32 != 0

/-- Units a write of `[va, va + n)` costs: twice for every unit with a partly covered ECC word (R261). -/
def writeUnits (va n : Nat) : Nat :=
  ((unitPieces va n).map (fun p => if partialWrite p.1 p.2 then 2 else 1)).foldl (· + ·) 0

/-- The first failure of a list of pieces, with the lowest address of the unit that was needed. -/
def firstPieceErr (s : State) (c : Nat) (write : Bool) : List (Nat × Nat) → Option (Nat × MemErr)
  | [] => none
  | (a, n) :: t => match s.pieceErr c write a n with | some e => some (a, e) | none => firstPieceErr s c write t

/-- The first failure of an access of a corral's command to `[va, va + n)`. -/
def State.rangeErr (s : State) (c : Nat) (write : Bool) (va n : Nat) : Option (Nat × MemErr) :=
  firstPieceErr s c write (unitPieces va n)

/-- The first failure of several reads. -/
def State.rangesErr (s : State) (c : Nat) (write : Bool) : List (Nat × Nat) → Option (Nat × MemErr)
  | [] => none
  | (a, n) :: t => match s.rangeErr c write a n with | some e => some e | none => s.rangesErr c write t

/-- The byte a corral's command reads at a virtual address whose access has been found good. -/
def State.vaByte (s : State) (c va : Nat) : Byte :=
  match s.translate c va false with
  | .ok pa => s.rd pa
  | .fail _ _ => 0

/-- The reader of a corral's command. -/
def State.vaRd (s : State) (c : Nat) : Nat → Nat := fun va => (s.vaByte c va).toNat

/-- An access to paddock RAM that it takes: whole 8-byte words at a multiple of 8 (R340). -/
def ramWhole (pa n : Nat) : Bool := pa % 8 == 0 && n % 8 == 0

/-- Does paddock RAM turn away a piece of an access (R340)? -/
def State.ramRefuses (s : State) (c : Nat) (write : Bool) (va n : Nat) : Bool :=
  match s.translate c va write with
  | .ok pa => (match placeOf pa with | .pdk _ _ => !ramWhole pa n | _ => false)
  | .fail _ _ => false

/-- `n` bytes at a virtual address, piece by piece; a piece that paddock RAM turns away reads zero (R340). -/
def State.vaBytes (s : State) (c va n : Nat) : List Byte :=
  (unitPieces va n).flatMap (fun p =>
    let off := s.ramRefuses c false p.1 p.2
    (upTo p.2).map (fun i => if off then 0 else s.vaByte c (p.1 + i)))

/-- The word at a virtual address. -/
def State.vaWord (s : State) (c va : Nat) : Nat := leNat (s.vaBytes c va 8)

/-- Write bytes piece by piece at a virtual address; a piece that cannot be translated is not written, and one that paddock RAM turns
away is counted and writes nothing (R340). -/
def State.vaWritePieces (s : State) (c va : Nat) (bs : List Byte) : List (Nat × Nat) → State
  | [] => s
  | (a, n) :: t =>
    let s1 := match s.translate c a true with
      | .ok pa => if s.ramRefuses c true a n then s.bump .DBG_BAD_REG_ACCESS 0 0 1 else s.wr pa ((bs.drop (a - va)).take n)
      | .fail _ _ => s
    s1.vaWritePieces c va bs t

/-- Write bytes at a virtual address of a corral. -/
def State.vaWrite (s : State) (c va : Nat) (bs : List Byte) : State := s.vaWritePieces c va bs (unitPieces va bs.length)

/-- Log what a failed access leaves behind: an uncorrectable word (R460), or an access refused by its stack (R463, R472). -/
def State.logMemErr (s : State) (source : Nat) : MemErr → State
  | .code _ (some w) => s.logUncorr source w
  | _ => s

/-- Log what the failed access `e` of context `c` leaves behind, the word a walk could not read included (R460). -/
def State.logAccess (s : State) (source c : Nat) (e : Nat × MemErr) : State :=
  match e.2 with
  | .xlate 4 _ => s.logWalk c e.1
  | m => s.logMemErr source m

end Sys2Proof.Machine
end

