-- ==== Sys2Proof/Machine/Frames.lean ====
section
/-!
DEFINITION. Configuration memory as the frames lay it out (R381 to R387): frame addresses, the control block and cells of a
paddock, the bindings of its channels, and the region of a resource.
-/

namespace Sys2Proof.Machine

/-- The last minor frame plus one of a column, 0 where there is no such column (R382). -/
def columnMinors (typ col : Nat) : Nat :=
  match typ with
  | 0 => if col < 36 then 512 else 0
  | 1 => if col < 32 then 24 else 0
  | 2 => if col < 2 then 1 else 0
  | _ => if col = 0 then 64 else 0

/-- A frame address that names a frame (R381, R382). -/
def frameOk (f : Nat) : Bool :=
  decide (f < 2 ^ 32) && bitsOf f 21 9 == 0 && decide (bitsOf f 8 0 < columnMinors (bitsOf f 29 28) (bitsOf f 27 22))

/-- A word of configuration memory, from a memory of frames. -/
def fmWord (m : SMap Word) (f w : Nat) : Nat := (smGet (fun _ => 0) m (f * 128 + w)).toNat

/-- Word `w` of the control block of a paddock: bytes 512 and up of minor frame 8p + 2 (R385). -/
def ctlWord (m : SMap Word) (p w : Nat) : Nat := fmWord m (pdkFrame p + 2) (64 + w)

/-- Byte `b` of the control block. -/
def ctlByte (m : SMap Word) (p b : Nat) : Nat := ctlWord m p (b / 8) / 2 ^ (8 * (b % 8)) % 256

/-- The 160 bits of logic cell `n` of a paddock (R383). -/
def cellWord (m : SMap Word) (p n : Nat) : Nat :=
  let k := 160 * n / 64
  let w (i : Nat) : Nat := fmWord m (pdkFrame p + (k + i) / 128) ((k + i) % 128)
  (w 0 + w 1 * 2 ^ 64 + w 2 * 2 ^ 128 + w 3 * 2 ^ 192) / 2 ^ (160 * n % 64) % 2 ^ 160

/-- A paddock whose eight frames are all zero is unused (R385). -/
def pdkUnused (m : SMap Word) (p : Nat) : Bool :=
  !m.any (fun e => decide (pdkFrame p ≤ e.1 / 128) && decide (e.1 / 128 < pdkFrame p + 8))

/-- IN_BIND or OUT_BIND of a paddock (R385): 0 UNBOUND, 1 PADDOCK, 2 RING, 3 I/O. -/
def pdkBind (m : SMap Word) (p : Nat) (out : Bool) : Nat := if out then bitsOf (ctlWord m p 0) 35 34 else bitsOf (ctlWord m p 0) 33 32

/-- IN_PEER or OUT_PEER (R385). -/
def pdkPeer (m : SMap Word) (p : Nat) (out : Bool) : Nat := ctlWord m p (if out then 2 else 1)

/-- The buffer ID of a RING binding. -/
def ringBuffer (peer : Nat) : Nat := bitsOf peer 17 0

/-- The slot count of a RING binding. -/
def ringSlots (peer : Nat) : Nat := bitsOf peer 23 18 + 1

/-- The paddocks whose control block is listed in configuration memory. -/
def listedPaddocks (m : SMap Word) : List Nat :=
  m.filterMap (fun e =>
    let f := e.1 / 128
    if e.1 % 128 = 64 ∧ bitsOf f 29 28 = 0 ∧ f % 8 = 2 then
      some (f / 2 ^ 30 * 2304 + bitsOf f 27 22 * 64 + bitsOf f 8 0 / 8)
    else none)

/-- Every paddock ring: paddock, whether it is its output, buffer ID and slot count (R352). -/
def allPdkRings (m : SMap Word) : List (Nat × Bool × Nat × Nat) :=
  (listedPaddocks m).flatMap (fun p =>
    [false, true].filterMap (fun out =>
      if pdkBind m p out = 2 then some (p, out, ringBuffer (pdkPeer m p out), ringSlots (pdkPeer m p out)) else none))

/-- Two buffers overlap (R280): buffer ID is stall × 64 + first slot, so slots of different stalls never meet. -/
def bufOverlap (b n c m : Nat) : Bool := decide (b < c + m) && decide (c < b + n)

/-- The H of a gait group: that of the newest GROUP command that names it (R394). -/
def groupH (g : Nat) (l : List GroupRange) : Nat := match l.find? (fun r => r.group == g) with | some r => r.h | none => 0

/-- The group number of a paddock: the newest GROUP range that covers it (R392, R394). -/
def groupNo (p : Nat) : List GroupRange → Option Nat
  | [] => none
  | r :: t => if r.first ≤ p ∧ p < r.first + r.count then some r.group else groupNo p t

/-- The gait group of a paddock and its H (R392). -/
def groupIn (p : Nat) (l : List GroupRange) : Option (Nat × Nat) := (groupNo p l).map (fun g => (g, groupH g l))

/-- The gait group of a paddock in the committed structure. -/
def State.groupOf (s : State) (p : Nat) : Option (Nat × Nat) := groupIn p s.cfg.live.groups

/-- Insert into an ascending list without repeats. -/
def insertAsc (n : Nat) : List Nat → List Nat
  | [] => [n]
  | h :: t => if n < h then n :: h :: t else if n = h then h :: t else h :: insertAsc n t

/-- Sort ascending without repeats. -/
def sortAsc (l : List Nat) : List Nat := l.foldr insertAsc []

/-- The members of the gait group of a paddock; itself alone where it has none. -/
def State.groupMembers (s : State) (p : Nat) : List Nat :=
  match s.groupOf p with
  | none => [p]
  | some (g, _) => sortAsc ((s.cfg.live.groups.filter (fun r => r.group = g)).flatMap (fun r =>
      ((upTo r.count).map (· + r.first)).filter (fun x => s.groupOf x == s.groupOf p)))

/-- Replace the release state of a region. -/
def State.setRegion (s : State) (r : Nat) (v : RegionSt) : State :=
  { s with cfg := { s.cfg with regions := smSet (fun _ => RegionSt.idle) s.cfg.regions r v } }

/-- The greatest of a list. -/
def maxOf (l : List Nat) : Nat := l.foldl max 0

/-! ## The gait of a paddock -/

/-- A paddock. -/
def State.pdk (s : State) (p : Nat) : PdkSt := smGet (fun _ => PdkSt.idle0) s.pdks p

/-- Replace a paddock. -/
def State.setPdk (s : State) (p : Nat) (v : PdkSt) : State := { s with pdks := smSet (fun _ => PdkSt.idle0) s.pdks p v }

/-- A paddock held by ownership or because it is unused (R33, R385). -/
def State.pdkHeld (s : State) (p : Nat) : Bool := (s.owner .paddock p).isNone || pdkUnused s.cfg.frames p

/-- A paddock whose gait may tick (R364). -/
def State.pdkTicks (s : State) (p : Nat) : Bool := decide (2 ≤ (s.pdk p).stage) && !s.pdkHeld p && !s.pdkShut p

/-- Declared depth of a paddock (R342). -/
def State.pdkDepth (s : State) (p : Nat) : Nat := bitsOf (ctlWord s.cfg.frames p 0) 4 0

/-- The gait period of a paddock at the nominal operating point, ps (R343, R348). -/
def State.pdkPeriod (s : State) (p : Nat) : Nat :=
  match s.groupOf p with
  | some (_, h) => 1000 + 200 * maxOf ((s.groupMembers p).map s.pdkDepth) + 100 * h
  | none => 400 + 200 * s.pdkDepth p

/-- Nanoseconds by which the edge that ends the current tick is late so far. -/
def State.lateNs (s : State) (p : Nat) : Nat :=
  if s.pdkTicks p then (s.time - (s.pdk p).lastEdge) - (s.pdkPeriod p + 999) / 1000 else 0

/-- Nanoseconds for which the gait has been stopped so far. -/
def State.stoppedNs (s : State) (p : Nat) : Nat := if (s.pdk p).stopped then s.time - (s.pdk p).stopAt else 0

/-- A paddock counter as it stands now: time that the current tick is late by, or that its gait has been stopped for, is counted as it
passes (R373). -/
def State.countNow (s : State) (p : RegPlace) : Word :=
  let w := s.reg p.reg p.inst p.idx
  match p.reg with
  | .PDK_STRETCH_NS => w.put 47 0 (w.fld 47 0 + s.lateNs p.inst)
  | .PDK_STOP_NS => w.put 47 0 (w.fld 47 0 + s.stoppedNs p.inst)
  | _ => w

/-! ## Regions -/

/-- A region that is quarantined, or a target region of a load in progress (R401, R402): what the quarantine checks of R640
refuse. -/
def State.regionShut (s : State) (r : Nat) : Bool := (s.region r).quarantined || (s.region r).loading

/-- Some stall of a list lies in such a region. -/
def State.stallsShut (s : State) (l : List Nat) : Bool := l.any (fun st => s.regionShut (s.stallRegion st))

/-- This device's ID: hitch in [15:6], position in [5:0] (R522). -/
def State.devId (s : State) : Nat := s.fld .RNL_IDENT 0 0 63 54 * 64 + s.fld .RNL_IDENT 0 0 53 48

/-- The resources of a kind that a corral owns, ascending. -/
def State.owned (s : State) (k : OwnKind) (c : Nat) : List Nat :=
  sortAsc ((s.cfg.live.own.filter (fun r => r.kind = k ∧ r.corral = some c)).flatMap (fun r =>
    ((upTo r.count).map (· + r.first)).filter (fun i => s.owns c k i)))

/-- Rows of its corral directly above a stall in its die column. -/
def State.runPos (s : State) (c : Nat) : Nat → Nat → Nat
  | 0, _ => 0
  | fuel + 1, st => if st % 768 < 32 then 0 else if s.owns c .stall (st - 32) then 1 + s.runPos c fuel (st - 32) else 0

/-- The stalls of a corral in ascending linear stall index (R231). -/
def State.corralStalls (s : State) (c : Nat) : List Nat := s.owned .stall c

/-- The heads of a corral's gangs in ascending linear stall index (R95, R176, R395). -/
def State.gangHeads (s : State) (c : Nat) : List Nat :=
  (s.corralStalls c).filter (fun st => s.gangLen c != 0 && s.runPos c 24 st % s.gangLen c == 0)

/-- The last member of gang `g` of a corral (R96). -/
def State.lastMember (s : State) (c g : Nat) : Nat := (s.gangHeads c).getD g 0 + 32 * (s.gangLen c - 1)

/-- The stalls of `n` gangs of a corral from gang `g0`. -/
def State.gangStalls (s : State) (c g0 n : Nat) : List Nat :=
  (((s.gangHeads c).drop g0).take n).flatMap (fun h => gangMembers h (s.gangLen c))

end Sys2Proof.Machine
end

