-- ==== Sys2Proof/Machine/Matrix.lean ====
section
/-!
DEFINITION. What a MATRIX command computes (chapters 04 to 06): present and absent terms, K-blocks, spills, the fixed tree,
write-out values and counts, as a function of its descriptor, its operands and the accumulator store it finds (R80).
-/

namespace Sys2Proof.Machine

/-- The base address at which a MATRIX stage sees the bytes of its hand-over (R289): above every virtual address. -/
def ringView : Nat := 2 ^ 57

/-- The address at which a MATRIX stage sees the predicate mask it read as it began (R209). -/
def maskView : Nat := 2 ^ 200

/-- The byte a command reads at a virtual address. -/
abbrev Reader := Nat → Nat

/-- `n` little-endian bytes at an address, as a number. -/
def rdLe (rd : Reader) (a : Nat) : Nat → Nat
  | 0 => 0
  | n + 1 => rd a + 256 * rdLe rd (a + 1) n

/-- `w` bits at bit `b` (0 to 7) of the byte at `a` (R52): an element never spans more than nine bytes. -/
def rdBits (rd : Reader) (a b w : Nat) : Nat := rdLe rd a ((b + w + 7) / 8) / 2 ^ b % 2 ^ w

/-- Bit `i` of the bit string at `a` (R159). -/
def rdBit (rd : Reader) (a i : Nat) : Bool := rd (a + i / 8) / 2 ^ (i % 8) % 2 == 1

/-- The density divisor d (R193, R199). -/
def density (w : Nat) : Nat := match w with | 1 => 2 | 2 => 4 | _ => 1

/-- TK, the tiles of one N-slice (R195, R199). -/
def tilesPerSlice (x : MatDesc) : Nat := cdiv x.k (8 * density x.wSparse)

/-- The lane count of a command (R85). -/
def cmdLanes (f : MatFmts) : Nat := colsPerStall f / 8

/-- BB, the bytes of the block bitmap (R199). -/
def bitmapBytes (x : MatDesc) (f : MatFmts) : Nat := cdiv (nSlices x f * tilesPerSlice x * cmdLanes f) 8

/-- IO, the offset of the index tiles from W_AUX (R195, R199). -/
def indexOffset (x : MatDesc) (f : MatFmts) : Nat := if x.wBitmap then 512 * cdiv (bitmapBytes x f) 512 else 0

/-- Is block (j, kg, lane) present (R199)? -/
def blockPresent (x : MatDesc) (f : MatFmts) (rd : Reader) (j kg lane : Nat) : Bool :=
  !x.wBitmap || rdBit rd x.wAux ((j * tilesPerSlice x + kg) * cmdLanes f + lane)

/-- Is any block of a tile present? -/
def tilePresent (x : MatDesc) (f : MatFmts) (rd : Reader) (j kg : Nat) : Bool :=
  (upTo (cmdLanes f)).any (fun l => blockPresent x f rd j kg l)

/-- The index tile's address (R195). -/
def indexTileAddr (x : MatDesc) (f : MatFmts) (j kg : Nat) : Nat :=
  x.wAux + indexOffset x f + (j * tilesPerSlice x + kg) * 256

/-- The 2-bit index of stored row i, column c (R195). -/
def sparseIndex (x : MatDesc) (f : MatFmts) (rd : Reader) (j kg i c : Nat) : Nat :=
  rdBits rd (indexTileAddr x f j kg + 2 * (i * colsPerStall f + c) / 8) (2 * (i * colsPerStall f + c) % 8) 2

/-- The logical K position of stored row i of tile kg, column c (R184, R194). -/
def storedK (x : MatDesc) (f : MatFmts) (rd : Reader) (j kg i c : Nat) : Nat :=
  match x.wSparse with
  | 1 => 16 * kg + 4 * (i / 2) + sparseIndex x f rd j kg i c
  | 2 => 32 * kg + 4 * i + sparseIndex x f rd j kg i c
  | _ => 8 * kg + i

/-- The stationary pattern of stored row i of tile kg, column c (R184, R195). -/
def storedW (x : MatDesc) (f : MatFmts) (rd : Reader) (j kg i c : Nat) : Nat :=
  let t := tileBytes f.w.fmt
  let b := c * kBits f.w.fmt
  rdBits rd (x.wBase + (j * tilesPerSlice x + kg) * t + i * (t / 8) + b / 8) (b % 8) (kBits f.w.fmt)

/-- The sparse stream header (R202). -/
structure StreamHdr where
  nnz : Nat
  ptr : Nat
  idx : Nat
  bmStride : Nat
  idx64 : Bool
  deriving DecidableEq, Repr

/-- Read the sparse stream header at A_AUX (R202). -/
def streamHdr (x : MatDesc) (rd : Reader) : StreamHdr :=
  let w3 := rdLe rd (x.aAux + 24) 8
  { nnz := rdLe rd x.aAux 8, ptr := bitsOf (rdLe rd (x.aAux + 8) 8) 56 0, idx := bitsOf (rdLe rd (x.aAux + 16) 8) 56 0,
    bmStride := bitsOf w3 63 32, idx64 := bitsOf w3 31 30 == 1 }

/-- Check 16 of R640: the sparse stream header (R202). -/
def streamHdrCheck (x : MatDesc) (rd : Reader) : List (Bool × Reject) :=
  if x.aEnc = 0 then []
  else
    let w1 := rdLe rd (x.aAux + 8) 8
    let w2 := rdLe rd (x.aAux + 16) 8
    let w3 := rdLe rd (x.aAux + 24) 8
    let h := streamHdr x rd
    [ (x.aAux % 64 != 0, ⟨E_OPERAND_ALIGN, 16, 104⟩),
      (h.nnz == 2 ^ 64 - 1, ⟨E_FIELD_RANGE, 16, 0xFF⟩),
      (bitsOf w1 63 57 != 0 || bitsOf w2 63 57 != 0 || bitsOf w3 29 0 != 0, ⟨E_FIELD_RESERVED, 16, 0xFF⟩),
      (rdLe rd (x.aAux + 32) 32 != 0, ⟨E_FIELD_RESERVED, 16, 0xFF⟩),
      (x.aEnc == 1 && decide (2 ≤ bitsOf w3 31 30), ⟨E_FIELD_RESERVED, 16, 0xFF⟩),
      (x.aEnc != 1 && bitsOf w3 31 30 != 0, ⟨E_FIELD_RESERVED, 16, 0xFF⟩),
      (x.aEnc != 2 && h.bmStride != 0, ⟨E_FIELD_RESERVED, 16, 0xFF⟩),
      (x.aEnc == 2 && (h.bmStride % 8 != 0 || decide (h.bmStride < cdiv x.k 8)), ⟨E_FIELD_RANGE, 16, 0xFF⟩) ]

/-- Row pointer m of a CSR or bitmap operand (R204). -/
def rowPtr (h : StreamHdr) (rd : Reader) (m : Nat) : Nat := rdLe rd (h.ptr + 8 * m) 8

/-- The set bits of a bitmap row below K (R204). -/
def bitmapRow (h : StreamHdr) (rd : Reader) (k m : Nat) : List Nat :=
  (upTo k).filter (fun i => rdBit rd (h.idx + m * h.bmStride) i)

/-- The k of CSR index entry e (R204). -/
def csrIdx (h : StreamHdr) (rd : Reader) (e : Nat) : Nat := if h.idx64 then rdLe rd (h.idx + 8 * e) 8 else rdLe rd (h.idx + 4 * e) 4

/-- The (m, k) of coordinate entry e (R204). -/
def cooEntry (h : StreamHdr) (rd : Reader) (e : Nat) : Nat × Nat :=
  (bitsOf (rdLe rd (h.idx + 16 * e + 8) 8) 31 0, rdLe rd (h.idx + 16 * e) 8)

/-- The present elements of streamed row m: (k, value number) in increasing k (R203, R204). -/
def rowElems (x : MatDesc) (rd : Reader) (m : Nat) : List (Nat × Nat) :=
  let h := streamHdr x rd
  match x.aEnc with
  | 1 =>
    let p := rowPtr h rd m
    (upTo (rowPtr h rd (m + 1) - p)).map (fun i => (csrIdx h rd (p + i), p + i))
  | 2 =>
    let p := rowPtr h rd m
    ((bitmapRow h rd x.k m).zipIdx).map (fun q => (q.1, p + q.2))
  | _ => (upTo h.nnz).filterMap (fun e => let c := cooEntry h rd e; if c.1 = m then some (c.2, e) else none)

/-- A list rises strictly: every number is below the next. -/
def risesStrictly (l : List Nat) : Bool := (l.zip (l.drop 1)).all (fun p => decide (p.1 < p.2))

/-- The present pairs of a loaded tile rise under 2:4 (R198): in every column below N_EXT whose block is present. -/
def tilePairsOk (x : MatDesc) (f : MatFmts) (rd : Reader) (j kg : Nat) : Bool :=
  x.wSparse != 1 ||
    (upTo (colsPerStall f)).all (fun c =>
      !(decide (j * colsPerStall f + c < x.n) && blockPresent x f rd j kg (c / 8))
        || (upTo 4).all (fun r => decide (sparseIndex x f rd j kg (2 * r) c < sparseIndex x f rd j kg (2 * r + 1) c)))

/-- The pattern of a(m, k), if the element is present (R183, R203). -/
def aPattern (x : MatDesc) (f : MatFmts) (rd : Reader) (m k : Nat) : Option Nat :=
  if x.aEnc = 0 then
    let o := aOffset x f.a.fmt m k
    some (rdBits rd (x.aBase + o.1) o.2 (kBits f.a.fmt))
  else
    match (rowElems x rd m).find? (fun p => p.1 == k) with
    | some p =>
      let b := p.2 * kBits f.a.fmt
      some (rdBits rd (x.aBase + b / 8) (b % 8) (kBits f.a.fmt))
    | none => none

/-- A pattern as a cell operand: scaled where the operand is MX (R54), a 64-bit word for B1 (R102). -/
def operandOf (b : FmtByte) (anyMx : Bool) (bits scale : Nat) : CellOperand :=
  if b.fmt = .b1 then { num := .fin false 0 0, word := bits }
  else if b.mx then { num := mxScale scale (mxElement b.fmt bits), word := 0 }
  else { num := (let _ := anyMx; numOperand b.fmt b.sgn bits), word := 0 }

/-- Is streamed row m active under the predicate mask (R207)? -/
def rowActive (x : MatDesc) (rd : Reader) (m : Nat) : Bool := !x.predEn || rdBit rd x.predAddr m

/-- Rows of chunk `ch` of a command (R180). -/
def rowsOfChunk (x : MatDesc) (f : MatFmts) (ch : Nat) : Nat := min (chunkRows x f) (x.m - ch * chunkRows x f)

/-- The streamed rows of chunk `ch` in increasing m (R180). -/
def chunkList (x : MatDesc) (f : MatFmts) (ch : Nat) : List Nat := (upTo (rowsOfChunk x f ch)).map (· + ch * chunkRows x f)

/-- The active rows of chunk `ch` (R207). -/
def activeRows (x : MatDesc) (f : MatFmts) (rd : Reader) (ch : Nat) : List Nat := (chunkList x f ch).filter (fun m => rowActive x rd m)

/-- The first K position, K-block span and end of shape partition q (R131, R178, R196). -/
def partRange (x : MatDesc) (q : Nat) : Nat × Nat := (q * partitionK x, min ((q + 1) * partitionK x) x.k)

/-- The logical span of one K-block (R131, R196). -/
def blockSpan (x : MatDesc) (len : Nat) : Nat := 8 * len * density x.wSparse

/-- The number of K-blocks of partition q. -/
def blockCount (x : MatDesc) (len q : Nat) : Nat :=
  let r := partRange x q
  cdiv (r.2 - r.1) (blockSpan x len)

/-- What the tags of a device partition count from: the first K position of partition 0 (R145). -/
def tagBase (x : MatDesc) : Nat := if x.ctl.partCount ≤ 1 then 0 else x.ctl.partIndex * x.k

/-- The terms of K-block b of partition q for row m and column c of slice j, in chain order (R96, R189, R194, R196). -/
def blockTerms (x : MatDesc) (f : MatFmts) (rd : Reader) (len q b j c m : Nat) :
    List (Option (Nat × CellOperand × CellOperand)) :=
  let r := partRange x q
  let kg0 := (r.1 + b * blockSpan x len) / (8 * density x.wSparse)
  (upTo (8 * len)).map (fun s =>
    let kg := kg0 + s / 8
    let i := s % 8
    if kg < tilesPerSlice x ∧ blockPresent x f rd j kg (c / 8) then
      let k := storedK x f rd j kg i c
      if k < r.2 then
        match aPattern x f rd m k with
        | some a =>
          let anyMx := f.a.mx || f.w.mx
          some (tagBase x + k, operandOf f.a anyMx a (rd (aScaleAddr x m k)),
            operandOf f.w anyMx (storedW x f rd j kg i c) (rd (wScaleAddr x f j k c)))
        | none => none
      else none
    else none)

/-- Does any gang tile of a K-block hold a present block (R200)? -/
def blockLoaded (x : MatDesc) (f : MatFmts) (rd : Reader) (len q b j : Nat) : Bool :=
  let r := partRange x q
  let kg0 := (r.1 + b * blockSpan x len) / (8 * density x.wSparse)
  (upTo len).any (fun i => decide (kg0 + i < tilesPerSlice x) && tilePresent x f rd j (kg0 + i))

/-- Is row m streamed in K-block b of partition q (R206, R207)? -/
def rowStreamed (x : MatDesc) (rd : Reader) (len q b m : Nat) : Bool :=
  let r := partRange x q
  let k0 := r.1 + b * blockSpan x len
  let k1 := min (k0 + blockSpan x len) r.2
  rowActive x rd m && (x.aEnc == 0 || (rowElems x rd m).any (fun p => decide (k0 ≤ p.1 ∧ p.1 < k1)))

/-- The running state of one entry of one partition (R132): accumulator entry, phase, trough entry, counts, spills made. -/
structure EntryRun where
  e : Entry
  phase : Nat
  t : Option Entry
  cnt : OpCount
  spills : Nat
  deriving DecidableEq, Repr

/-- One spill (R132, R137). -/
def spillOnce (op : ArrayOp) (r : EntryRun) : EntryRun :=
  let w := widenEntry op.acc op.sgn r.e
  let id := identityEntry op.mode op.acc op.sgn
  match r.t with
  | none => { r with t := some w, e := id, phase := 0, spills := r.spills + 1 }
  | some t =>
    let c := reduceWide op.mode op.acc t w
    { e := id, phase := 0, t := some c.e, cnt := r.cnt.plus c, spills := r.spills + 1 }

/-- The phase after one more chain result. DESIGN CHOICE (log 113): the 16-bit field counts modulo 2^16, where the spec does not say what it
does past 0xFFFF (R127). -/
def nextPhase (phase : Nat) : Nat := (phase + 1) % 65536

/-- Take one chain result (R132): an empty one leaves the entry unchanged and advances the phase (R190). -/
def takeChain (op : ArrayOp) (spill : Nat) (terms : List (Option (Nat × CellOperand × CellOperand))) (r : EntryRun) : EntryRun :=
  let r1 :=
    if terms.all (fun t => t.isNone) then r
    else
      let c := chainResult op terms
      let k := reduceAcc op.mode op.acc op.sgn op.flushes r.e c.1
      { r with
        e := k.e
        cnt := (OpCount.mk (r.cnt.invalid + c.2.invalid) (r.cnt.zinf + c.2.zinf) (r.cnt.overflow + c.2.overflow)
          (r.cnt.flush + c.2.flush)).plus k }
  let r2 := { r1 with phase := nextPhase r1.phase }
  if spill ≠ 0 ∧ r2.phase = spill then spillOnce op r2 else r2

/-- All K-blocks of one entry in increasing K, then the final spill of a WRITE (R132). -/
def runEntry (x : MatDesc) (f : MatFmts) (rd : Reader) (len q j c m : Nat) (r0 : EntryRun) : EntryRun :=
  let op := arrayOpOf x f
  let active := rowActive x rd m
  let r := (upTo (blockCount x len q)).foldl (fun r b =>
    takeChain op x.ctl.spill (if active then blockTerms x f rd len q b j c m else []) r) r0
  if x.ctl.spill ≠ 0 ∧ x.ctl.disp = 1 ∧ 0 < r.phase then spillOnce op r else r

/-- The partition result of an entry after a WRITE (R132). -/
def partitionResult (x : MatDesc) (f : MatFmts) (r : EntryRun) : Entry :=
  if x.ctl.spill ≠ 0 then r.t.getD (identityWide x.mode f.acc f.accSgn) else r.e

/-- The reduction of the fixed tree, in the trough format when S > 0 (R141). -/
def treeReduce (x : MatDesc) (f : MatFmts) (a b : Entry) : Combined :=
  let op := arrayOpOf x f
  if x.ctl.spill ≠ 0 then reduceWide op.mode op.acc a b else reduceAcc op.mode op.acc op.sgn op.flushes a b

/-- The fixed tree over partition results with its counts (R141, R179). -/
def treeOver (x : MatDesc) (f : MatFmts) (vs : List Entry) : Option (Entry × OpCount) :=
  fixedTree (fun a b =>
    let c := treeReduce x f a.1 b.1
    (c.e, (OpCount.mk (a.2.invalid + b.2.invalid) (a.2.zinf + b.2.zinf) (a.2.overflow + b.2.overflow)
      (a.2.flush + b.2.flush)).plus c)) (vs.map (fun v => (v, OpCount.zero)))

/-- What is written for a result value (R139, R185): the pattern, and what narrowing a trough counts. -/
def resultValue (x : MatDesc) (f : MatFmts) (v : Entry) : Combined :=
  if x.ctl.spill ≠ 0 && !x.ctl.outWide then troughNarrow f.acc f.accSgn (arrayOpOf x f).flushes v
  else { e := v, cause := none, ovf := false, flush := false }

/-- One computed result (m, n): its partition-tree value, and whether this command set its invalid-origin flag (R78). -/
structure MatOut where
  m : Nat
  n : Nat
  v : Entry
  inv : Bool
  deriving DecidableEq, Repr

/-- What one M-chunk does: the store, trough bytes to write as (stall or none for HBM, address, bytes), results and counts. -/
structure MatRun where
  acs : AcsSt
  trough : List (Option Nat × Nat × List Byte)
  outs : List MatOut
  cnt : OpCount
  skipK : Nat
  skipRows : Nat
  skipGangs : Nat
  spilled : List (Nat × Nat)     -- stall, entries spilled (R168)
  passes : List (Nat × Nat × Nat) -- last member's gang, K-block passes performed, rows streamed (R122)
  deriving DecidableEq, Repr

/-- Before the chunk, over a store. -/
def MatRun.start (a : AcsSt) : MatRun :=
  { acs := a, trough := [], outs := [], cnt := OpCount.zero, skipK := 0, skipRows := 0, skipGangs := 0, spilled := [], passes := [] }

/-- Positions the entries of chunk `ch` take, and the segments that hold them (R125). -/
def chunkPositions (x : MatDesc) (f : MatFmts) (ch : Nat) : Nat := rowsOfChunk x f ch * colsPerStall f * accW f

/-- Initialise the entries of chunk `ch` on one gang (R130): the first chunk's with what lies past the footprint's end in its last
segment; a later chunk's alone. -/
def initFootprint (x : MatDesc) (f : MatFmts) (stall : Nat) (queue seq ch : Nat) (a : AcsSt) : AcsSt :=
  let n := if ch = 0 then 256 * footSegs x f else chunkPositions x f ch
  let a1 := acsInit a stall (256 * x.ctl.seg) n (accWide f) x.indexTag (reductionIdentity x.mode f.acc f.accSgn)
  iterate (fun i a => acsSetSeg a stall (x.ctl.seg + i)
    { valid := true, wide := accWide f, fmt := fmtCode f.acc, sgn := f.accSgn, phase := 0, prodQueue := queue, prodSeq := seq })
    (if ch = 0 then footSegs x f else cdiv n 256) a1

/-- Position of entry (row within the chunk, column) (R125). -/
def entryPos (x : MatDesc) (f : MatFmts) (row c : Nat) : Nat := 256 * x.ctl.seg + row * colsPerStall f * accW f + c * accW f

/-- A command without INDEX_TAG leaves the tag bank unchanged (R105). -/
def keepTag (x : MatDesc) (old new : Entry) : Entry := if x.indexTag then new else { new with tag := old.tag }

/-- The tag an entry has in the arithmetic of a command: 0xFFFF without INDEX_TAG (R105, R136, R178). -/
def useTag (x : MatDesc) (e : Entry) : Entry := if x.indexTag then e else { e with tag := 0xFFFF }

/-- SPILL_PHASE of a segment after `n` chain results (R127, R132). -/
def phaseAfter (spill : Nat) : Nat → Nat → Nat
  | 0, ph => ph
  | n + 1, ph => let p := nextPhase ph; phaseAfter spill n (if spill ≠ 0 ∧ p = spill then 0 else p)

/-- The K-blocks of partition q that a gang works through in chunk `ch`: some gang tile holds a present block and some row of the
chunk is streamed (R190, R200, R206). -/
def passesOf (x : MatDesc) (f : MatFmts) (rd : Reader) (len q j ch : Nat) : List Nat :=
  (upTo (blockCount x len q)).filter (fun b => blockLoaded x f rd len q b j && (chunkList x f ch).any (fun m => rowStreamed x rd len q b m))

/-- The rows of chunk `ch` streamed in K-block b of partition q (R206, R207). -/
def rowsStreamed (x : MatDesc) (f : MatFmts) (rd : Reader) (len q b ch : Nat) : Nat :=
  ((chunkList x f ch).filter (fun m => rowStreamed x rd len q b m)).length

/-- One chunk on every gang: entries run, stored back, and the results of a WRITE combined (R180). `stallOf g` is the last
member of corral gang `g`; `trRd` reads the trough (stall or HBM). -/
def runChunk (x : MatDesc) (f : MatFmts) (rd : Reader) (trRd : Option Nat → Nat → Nat) (stallOf : Nat → Nat)
    (len queue seq ch : Nat) (acs0 : AcsSt) : MatRun :=
  let op := arrayOpOf x f
  let kp := shapeKP x.shape
  let nw := nSlices x f
  let cc := colsPerStall f
  let m0 := ch * chunkRows x f
  let rows := rowsOfChunk x f ch
  let fresh := x.ctl.init == 0
  let gang (q j : Nat) : Nat := x.gangBase + q * nw + j
  let acs1 : AcsSt :=
    if fresh then (upTo (kp * nw)).foldl (fun a g => initFootprint x f (stallOf (x.gangBase + g)) queue seq ch a) acs0 else acs0
  let place (stall : Nat) : Option Nat := if x.ctl.troughHbm then none else some stall
  let runOne (q j c row : Nat) (a : AcsSt) : EntryRun :=
    let stall := stallOf (gang q j)
    let p := entryPos x f row c
    let e0 := useTag x (acsEntry a stall p (accWide f))
    let t0 : Option Entry :=
      if x.ctl.spill = 0 || fresh then none
      else some (useTag x (troughOf ((upTo 16).map (fun i =>
        BitVec.ofNat 8 (trRd (place stall) (x.ctl.trough + 16 * (p - 256 * x.ctl.seg) + i))))))
    runEntry x f rd len q j c (m0 + row)
      { e := e0, phase := if fresh then 0 else (acsSeg a stall (p / 256)).phase, t := t0, cnt := OpCount.zero, spills := 0 }
  let entries : List (Nat × Nat × Nat) :=
    (upTo rows).flatMap (fun row => (upTo nw).flatMap (fun j => ((upTo cc).filter (fun c => decide (j * cc + c < x.n))).map
      (fun c => (row, j, c))))
  let s2 := entries.foldl (fun (s : MatRun) (rjc : Nat × Nat × Nat) =>
    let row := rjc.1
    let j := rjc.2.1
    let c := rjc.2.2
    let runs := (upTo kp).map (fun q => (q, runOne q j c row acs1))
    let acs := runs.foldl (fun a (qr : Nat × EntryRun) =>
      let stall := stallOf (gang qr.1 j)
      let p := entryPos x f row c
      acsSetEntry a stall p (accWide f) (keepTag x (acsEntry a stall p (accWide f)) qr.2.e)) s.acs
    let trough := if x.ctl.spill = 0 then [] else (runs.filter (fun qr => fresh || decide (0 < qr.2.spills))).map (fun (qr : Nat × EntryRun) =>
      (place (stallOf (gang qr.1 j)), x.ctl.trough + 16 * (entryPos x f row c - 256 * x.ctl.seg),
        troughBytes (qr.2.t.getD (identityWide x.mode f.acc f.accSgn))))
    let tree := if x.ctl.disp = 1 then treeOver x f (runs.map (fun qr => partitionResult x f qr.2)) else none
    let sumRuns := runs.foldl (fun (k : OpCount) qr =>
      OpCount.mk (k.invalid + qr.2.cnt.invalid) (k.zinf + qr.2.cnt.zinf) (k.overflow + qr.2.cnt.overflow)
        (k.flush + qr.2.cnt.flush)) s.cnt
    let cnt := match tree with
      | some (_, k) => OpCount.mk (sumRuns.invalid + k.invalid) (sumRuns.zinf + k.zinf) (sumRuns.overflow + k.overflow)
          (sumRuns.flush + k.flush)
      | none => sumRuns
    let inv := decide (s.cnt.invalid < cnt.invalid)
    let v := match tree with
      | some (e, _) => e
      | none => (runs.map (fun qr => qr.2.e)).headD (identityEntry op.mode op.acc op.sgn)
    let spilled := (runs.filter (fun qr => qr.2.spills != 0)).map (fun qr => (stallOf (gang qr.1 j), qr.2.spills))
    { s with acs := acs, trough := s.trough ++ trough, cnt := cnt, spilled := s.spilled ++ spilled,
             outs := s.outs ++ [{ m := m0 + row, n := j * cc + c, v := v, inv := inv }] }) (MatRun.start acs1)
  -- metadata: each segment's own phase, and the producer of the whole footprint (R127, R155)
  let acs3 := (upTo kp).foldl (fun a q => (upTo nw).foldl (fun a j =>
    let stall := stallOf (gang q j)
    iterate (fun i a =>
      let g := acsSeg a stall (x.ctl.seg + i)
      let ph := phaseAfter x.ctl.spill (blockCount x len q) g.phase
      let here := decide (256 * i < chunkPositions x f ch)
      acsSetSeg a stall (x.ctl.seg + i)
        { g with phase := if here then (if x.ctl.spill ≠ 0 ∧ x.ctl.disp = 1 then 0 else ph) else g.phase
                 prodQueue := queue, prodSeq := seq }) (footSegs x f) a) a) s2.acs
  -- skipped-work counts and team activity (R217, R122)
  let gangs := (upTo kp).flatMap (fun q => (upTo nw).map (fun j => (q, j)))
  gangs.foldl (fun (s : MatRun) (qj : Nat × Nat) =>
    let done := passesOf x f rd len qj.1 qj.2 ch
    { s with
      skipK := s.skipK + (blockCount x len qj.1 - done.length)
      skipRows := s.skipRows + done.foldl (fun n b => n + (rows - rowsStreamed x f rd len qj.1 b ch)) 0
      skipGangs := s.skipGangs + b2n (done.length == 0)
      passes := s.passes ++ [(gang qj.1 qj.2, done.length, done.foldl (fun n b => n + rowsStreamed x f rd len qj.1 b ch) 0)] })
    { s2 with acs := acs3 }

/-- The lowest (m, n) whose invalid-origin flag the command set (R78). -/
def firstInvalid (outs : List MatOut) : Option (Nat × Nat) :=
  outs.foldl (fun (b : Option (Nat × Nat)) o =>
    if o.inv then
      match b with
      | none => some (o.m, o.n)
      | some (m, n) => if o.m < m ∨ (o.m = m ∧ o.n < n) then some (o.m, o.n) else b
    else b) none

/-- A part of a stream: what it reads next, and whether what it has read by then keeps the rules of R198 and R205. -/
structure Gate where
  reads : List (Nat × Nat)
  ok : Bool

/-- The byte range of `n` packed elements from element `p` of an operand (R52, R203). -/
def elemRange (f : Fmt) (base p n : Nat) : Nat × Nat := (base + p * kBits f / 8, cdiv ((p + n) * kBits f) 8 - p * kBits f / 8)

/-- The coordinate entries of chunk `ch`: the run of the list that its rows take (R204); the last chunk takes the rest. -/
def cooRun (x : MatDesc) (f : MatFmts) (rd : Reader) (ch : Nat) : List Nat :=
  let h := streamHdr x rd
  let below (m : Nat) : Nat := ((upTo h.nnz).takeWhile (fun e => decide ((cooEntry h rd e).1 < m))).length
  let lo := below (ch * chunkRows x f)
  let hi := if ch + 1 = chunkCount x f then h.nnz else below ((ch + 1) * chunkRows x f)
  (upTo (hi - lo)).map (· + lo)

/-- The coordinate entries of chunk `ch` keep the rules of R205, with the entry before them. -/
def cooOk (x : MatDesc) (f : MatFmts) (rd : Reader) (ch : Nat) : Bool :=
  let h := streamHdr x rd
  let run := cooRun x f rd ch
  let from_ := match run with | 0 :: _ => run | e :: _ => (e - 1) :: run | [] => []
  risesStrictly (from_.map (fun e => let c := cooEntry h rd e; c.1 * 2 ^ 64 + c.2))
    && run.all (fun e => let c := cooEntry h rd e; decide (c.1 < x.m) && decide (c.2 < x.k)
        && bitsOf (rdLe rd (h.idx + 16 * e + 8) 8) 63 32 == 0)

/-- The row pointers of chunk `ch` keep the rules of R205. -/
def ptrsOk (x : MatDesc) (f : MatFmts) (rd : Reader) (ch : Nat) : Bool :=
  let h := streamHdr x rd
  (ch != 0 || rowPtr h rd 0 == 0) && (ch + 1 != chunkCount x f || rowPtr h rd x.m == h.nnz)
    && (chunkList x f ch).all (fun m => decide (rowPtr h rd m ≤ rowPtr h rd (m + 1)))

/-- The indices of row m keep the rules of R205: rising k below K_EXT, or as many set bits as the pointers say. -/
def rowOk (x : MatDesc) (rd : Reader) (m : Nat) : Bool :=
  let h := streamHdr x rd
  if x.aEnc = 1 then (let ks := (rowElems x rd m).map (·.1); risesStrictly ks && ks.all (fun k => decide (k < x.k)))
  else (bitmapRow h rd x.k m).length == rowPtr h rd (m + 1) - rowPtr h rd m

/-- What the streaming operand of chunk `ch` reads, in order, with its checks (R181, R203 to R208). DESIGN CHOICE (log 115): the data of
inactive rows is neither read nor checked, beyond the row pointers and coordinate entries that lead past it; a coordinate list is
read whole with the first chunk. -/
def streamGates (x : MatDesc) (f : MatFmts) (rd : Reader) (noA : Bool) (ch : Nat) : List (Unit → Gate) :=
  let m0 := ch * chunkRows x f
  let rows := rowsOfChunk x f ch
  let h := streamHdr x rd
  let hdr : List (Unit → Gate) := if ch = 0 ∧ x.aEnc ≠ 0 then [fun (_ : Unit) => Gate.mk ([(x.aAux, 64)]) (true)] else []
  let mask : List (Unit → Gate) :=
    if x.predEn ∧ x.predAddr ≠ maskView then [fun (_ : Unit) => Gate.mk ([(x.predAddr + m0 / 8, cdiv (m0 + rows) 8 - m0 / 8)]) (true)] else []
  let lead : List (Unit → Gate) :=
    match x.aEnc with
    | 0 => []
    | 3 => (if ch = 0 then [fun (_ : Unit) => Gate.mk ([(h.idx, 16 * h.nnz)]) (true)] else []) ++ [fun (_ : Unit) => Gate.mk ([]) (cooOk x f rd ch)]
    | _ => [fun (_ : Unit) => Gate.mk ([(h.ptr + 8 * m0, 8 * (rows + 1))]) (ptrsOk x f rd ch)]
  let data (m : Nat) : List (Unit → Gate) :=
     match x.aEnc with
     | 0 =>
       [fun (_ : Unit) => Gate.mk (if noA then []
         else if x.kgroup then (upTo (cdiv x.k 64)).map (fun g => (x.aBase + g * x.aStride + m * groupRow f.a.fmt, groupRow f.a.fmt))
         else [(x.aBase + m * x.aStride, packedBytes f.a.fmt x.k)]) (true)]
     | 3 => [fun (_ : Unit) => Gate.mk ((rowElems x rd m).map (fun e => elemRange f.a.fmt x.aBase e.2 1)) (true)]
     | enc =>
       let p := rowPtr h rd m
       let n := rowPtr h rd (m + 1) - p
       let w := if h.idx64 then 8 else 4
       [(fun (_ : Unit) => Gate.mk (if enc = 1 then [(h.idx + w * p, w * n)] else [(h.idx + m * h.bmStride, cdiv x.k 8)]) (rowOk x rd m)),
        (fun (_ : Unit) => Gate.mk (if n = 0 then [] else [elemRange f.a.fmt x.aBase p n]) (true))]
  let row (m : Nat) : List (Unit → Gate) :=
    data m ++ (if f.a.mx then [fun (_ : Unit) => Gate.mk ([(x.aScale + m * cdiv x.k 32, cdiv x.k 32)]) (true)] else [])
  hdr ++ mask ++ (if (activeRows x f rd ch).isEmpty then [] else lead ++ (activeRows x f rd ch).flatMap row)

/-- The tiles of slice j that the passes of chunk `ch` load, in order (R180, R195, R200). -/
def loadedTiles (x : MatDesc) (f : MatFmts) (rd : Reader) (len j ch : Nat) : List Nat :=
  (upTo (shapeKP x.shape)).flatMap (fun q => (passesOf x f rd len q j ch).flatMap (fun b =>
    let kg0 := ((partRange x q).1 + b * blockSpan x len) / (8 * density x.wSparse)
    ((upTo len).map (· + kg0)).filter (fun kg => decide (kg < tilesPerSlice x) && tilePresent x f rd j kg)))

/-- What the stationary operand of N-slice j reads in chunk `ch`, with its checks (R181, R195, R198, R200, R208). DESIGN CHOICE (log 115): the
tiles of a K-block whose chain results are all empty are not loaded (R190 lets the device leave them out). -/
def tileGates (x : MatDesc) (f : MatFmts) (rd : Reader) (len j ch : Nat) : List (Unit → Gate) :=
  if (activeRows x f rd ch).isEmpty then []
  else
    (if x.wBitmap ∧ j = 0 then [(fun _ => ⟨[(x.wAux, bitmapBytes x f)], true⟩ : Unit → Gate)] else [])
    ++ (loadedTiles x f rd len j ch).map (fun kg (_ : Unit) => (Gate.mk
      ((x.wBase + (j * tilesPerSlice x + kg) * tileBytes f.w.fmt, tileBytes f.w.fmt)
          :: (if x.wSparse = 0 then [] else [(indexTileAddr x f j kg, 256)])) (tilePairsOk x f rd j kg)))
    ++ (if f.w.mx then [fun _ => ⟨[(x.wScale + j * cdiv x.k 32 * colsPerStall f, cdiv x.k 32 * colsPerStall f)], true⟩] else [])

/-- Check 4's sparsity part and check 8's bitmap alignment (R192, R199, R201). -/
def sparseChecks (x : MatDesc) (f : MatFmts) : List (Bool × Reject) :=
  [ (x.wSparse != 0 && (f.w.fmt == .fp64 || f.w.fmt == .b1), ⟨E_SPARSE_FORM, 4, 95⟩),
    (x.aEnc != 0 && (x.kgroup || x.aStride != 0), ⟨E_SPARSE_FORM, 4, 95⟩),
    (x.wBitmap && x.wAux % 64 != 0, ⟨E_OPERAND_ALIGN, 8, 96⟩) ]

/-- One contribution to an element of a scatter's table: FP64, FP32, BF16 or INT32 (R210, R212). `first` says that `t` is the
value in memory when the command began, an operand (R73); a later `t` is a partial sum and keeps its cause. -/
def scatterCombine (op fmt : Nat) (sgn first : Bool) (t x : Nat) : Combined :=
  let f := fmtOfCode fmt
  let en (b : Nat) : Entry := { bits := b, inv := false, ovf := false, tag := 0xFFFF }
  let a := if first then numOperand f sgn t else numEntry f sgn t
  let b := numOperand f sgn x
  match op with
  | 2 =>
    match f with
    | .int32 => addInt 32 sgn (en t) (en x)
    | _ =>
      let r := roundFp f false (!numIsNan a && !numIsNan b) (numIsFin a && numIsFin b) (numAdd 2 a b)
      { e := en r.bits, cause := r.inv, ovf := r.ovf, flush := false }
  | _ =>
    let isMax := op == 4
    let bits :=
      match a, b with
      | .nan c, .nan d => nanBits f (min c d)
      | .nan c, _ => nanBits f c
      | _, .nan d => nanBits f d
      | _, _ => if (if isMax then numLtTotal a b else numLtTotal b a) then x else t
    { e := en (bits % 2 ^ fmtBits f), cause := none, ovf := false, flush := false }

end Sys2Proof.Machine
end

