-- ==== Sys2Proof/Machine/VecCode.lean ====
section
/-!
DEFINITION. The encoding of vector instructions (R222, R223) and the check a program load makes of each one (R224, R639).
-/

namespace Sys2Proof.Machine

/-- The fields of a vector instruction (R222). -/
structure VIns where
  op : BitVec 8
  fd : BitVec 4
  fs : BitVec 4
  msk : BitVec 3
  d : BitVec 5
  a : BitVec 5
  b : BitVec 5
  rnd : BitVec 2
  sd : Bool
  ss : Bool
  imm : BitVec 26
  deriving DecidableEq, Repr

/-- The fields of a 64-bit word (R222). -/
def vinsOf (w : Word) : VIns :=
  { op := w.extractLsb' 56 8, fd := w.extractLsb' 52 4, fs := w.extractLsb' 48 4, msk := w.extractLsb' 45 3,
    d := w.extractLsb' 40 5, a := w.extractLsb' 35 5, b := w.extractLsb' 30 5, rnd := w.extractLsb' 28 2,
    sd := w.getLsbD 27, ss := w.getLsbD 26, imm := w.extractLsb' 0 26 }

/-- The word of a vector instruction (R222). -/
def vinsWord (i : VIns) : Word :=
  i.op ++ i.fd ++ i.fs ++ i.msk ++ i.d ++ i.a ++ i.b ++ i.rnd ++ BitVec.ofBool i.sd ++ BitVec.ofBool i.ss ++ i.imm

/-- Width of an element in a register (R219, R639). -/
def elemWidth (f : Fmt) : Nat :=
  match f with
  | .fp64 | .b1 => 64
  | .fp32 | .tf32 | .int32 => 32
  | .bf16 | .fp16 | .int16 => 16
  | _ => 8

/-- The arithmetic formats of R220. -/
def vecArith (f : Fmt) : Bool :=
  match f with | .fp64 | .fp32 | .bf16 | .fp16 | .int32 | .int16 | .int8 => true | _ => false

/-- FP64, FP32, BF16 or FP16 (R639). -/
def vecFloat (f : Fmt) : Bool :=
  match f with | .fp64 | .fp32 | .bf16 | .fp16 => true | _ => false

/-- A packed format code of VLD and VST (R223): FP6 or a 4-bit format, or 0. -/
def packCode (c : Nat) : Bool := c == 0 || c == 7 || c == 8 || c == 9 || c == 14

/-- Which fields of an instruction its opcode uses: mask, D, A, B, and the bits of IMM. -/
structure Uses where
  msk : Bool
  d : Bool
  a : Bool
  b : Bool
  imm : Nat
  deriving DecidableEq, Repr

/-- The parts a conversion has: the ratio of the element widths (R226). -/
def cvtParts (fd fs : Fmt) : Nat := max (elemWidth fd) (elemWidth fs) / min (elemWidth fd) (elemWidth fs)

/-- The fields an opcode uses (R222, R223); none for a reserved opcode. -/
def vecUses (i : VIns) : Option Uses :=
  let fd := fmtOfCode i.fd.toNat
  let fs := fmtOfCode i.fs.toNat
  match i.op.toNat with
  | 0x01 => some ⟨false, true, false, false, 26⟩
  | 0x02 => some ⟨false, true, true, false, 26⟩
  | 0x03 | 0x04 | 0x05 | 0x06 | 0x07 | 0x08 | 0x09 | 0x0A | 0x0B => some ⟨false, true, true, true, 0⟩
  | 0x0C => some ⟨false, true, true, false, 26⟩
  | 0x10 => some ⟨false, true, true, false, 26⟩
  | 0x11 => some ⟨false, false, true, true, 26⟩
  | 0x18 | 0x19 | 0x1A | 0x1B => some ⟨false, false, true, true, 11⟩
  | 0x1C => some ⟨false, false, false, false, 11⟩
  | 0x1F => some ⟨false, false, false, false, 0⟩
  | 0x20 | 0x21 => some ⟨true, true, true, false, 26⟩
  | 0x22 | 0x23 => some ⟨true, true, true, true, if elemWidth fd = 16 then 1 else 0⟩
  | 0x30 | 0x31 | 0x32 | 0x33 | 0x34 | 0x35 | 0x38 | 0x3A | 0x3C => some ⟨true, true, true, true, 0⟩
  | 0x36 | 0x37 | 0x39 => some ⟨true, true, true, false, 0⟩
  | 0x3B => some ⟨true, true, true, true, 3⟩
  | 0x40 | 0x41 | 0x42 | 0x43 | 0x44 => some ⟨true, true, true, true, 0⟩
  | 0x45 | 0x46 | 0x47 => some ⟨true, true, true, false, 0⟩
  | 0x50 => some ⟨true, true, true, false, if elemWidth fd = elemWidth fs then 0 else 3⟩
  | 0x51 => some ⟨true, true, true, true, if fs = .fp32 then 2 else 1⟩
  | 0x58 => some ⟨true, true, true, false, 0⟩
  | 0x59 | 0x5A => some ⟨true, true, true, false, 1⟩
  | 0x5C => some ⟨true, true, true, true, 0⟩
  | 0x60 => some ⟨false, true, true, true, 2⟩
  | 0x61 => some ⟨false, false, true, false, 3⟩
  | 0x68 => some ⟨false, false, true, false, 0⟩
  | _ => none

/-- Every field the opcode does not use is zero (R222, R224). -/
def unusedZero (u : Uses) (i : VIns) : Bool :=
  (u.msk || i.msk == 0) && (u.d || i.d == 0) && (u.a || i.a == 0) && (u.b || i.b == 0)
    && decide (i.imm.toNat < 2 ^ u.imm)

/-- Format, signedness and rounding values an opcode accepts, and the other illegal combinations (R220, R223, R226, R227,
R639). -/
def fieldsLegal (i : VIns) : Bool :=
  let fdc := i.fd.toNat
  let fsc := i.fs.toNat
  let fd := fmtOfCode fdc
  let fs := fmtOfCode fsc
  let o := i.op.toNat
  let noSign := !i.sd && !i.ss
  let rndOk := i.rnd == 0 || o == 0x50 || o == 0x51
  rndOk &&
  (if o < 0x20 ∨ 0x60 ≤ o then fdc == 0 && fsc == 0 && noSign
   else if o = 0x20 then fdc == 0 && packCode fsc && noSign
   else if o = 0x21 then fsc == 0 && packCode fdc && noSign
   else if o = 0x22 ∨ o = 0x23 then decide (fdc ≤ 14) && fsc == 0 && noSign
   else if o = 0x38 ∨ o = 0x39 then vecFloat fd && fdc == fsc && noSign
   else if o = 0x3A then (fd == .fp32 || fd == .bf16) && fdc == fsc && noSign
   else if o = 0x3C ∨ o = 0x5C ∨ (0x40 ≤ o ∧ o ≤ 0x45) then fdc == fsc && noSign
   else if o = 0x46 then (fd == .int32 || fd == .int16 || fd == .int8) && fsc == 0 && !i.ss
   else if o = 0x47 then fsc == 0 && noSign
   else if o = 0x50 then
     fd != .b1 && fs != .b1 && fdc != fsc && (!i.sd || fmtIsInt fd) && (!i.ss || fmtIsInt fs)
       && decide (i.imm.toNat < cvtParts fd fs)
   else if o = 0x51 then
     ((decide (5 ≤ fdc ∧ fdc ≤ 9) && !i.sd) || (fdc == 13 && i.sd)) && (fs == .fp32 || fs == .bf16 || fs == .fp16) && !i.ss
   else
     vecArith fd && fdc == fsc && i.sd == i.ss && (!i.sd || fmtIsInt fd)
       && (o != 0x3B || (i.d.toNat != 0 && decide (i.d.toNat < 8) && decide (i.imm.toNat < 6))))

/-- The check a load makes of one instruction (R224). -/
def vinsLegal (i : VIns) : Bool :=
  match vecUses i with
  | none => false
  | some u => unusedZero u i && fieldsLegal i

end Sys2Proof.Machine
end

