-- ==== Sys2Proof/Machine/Desc.lean ====
section
/-!
DEFINITION. The fields of every descriptor but MATRIX (R231, R273, R285 to R287, R311 to R317), and what a command uses: its
stalls (R562), segments, contexts, slots, banks and windows (R146, R233, R258, R291).
-/

namespace Sys2Proof.Machine

/-- Opcode class of a descriptor (R311, R312). -/
def descClass (d : List Word) : Nat := bitsOf (dw d 0) 63 60

/-- SUBOP of a descriptor. -/
def descSub (d : List Word) : Nat := bitsOf (dw d 0) 59 56

/-- A VECTOR descriptor or stage record (R231). -/
structure VecDesc where
  base : Nat
  count : Nat
  pstart : Nat
  plen : Nat
  pload : Bool
  haltInv : Bool
  progAddr : Nat
  seed : Nat
  limit : Nat
  wins : List Nat
  args : List Word
  deriving DecidableEq, Repr

/-- Read a VECTOR descriptor (R231). -/
def vecDescOf (d : List Word) : VecDesc :=
  let w := dw d 2
  { base := bitsOf w 63 52, count := bitsOf w 51 40, pstart := bitsOf w 39 29, plen := bitsOf w 28 17, pload := bitAt w 16,
    haltInv := bitAt w 15, progAddr := bitsOf (dw d 3) 56 0, seed := dw d 4, limit := bitsOf (dw d 5) 63 32 * 65536,
    wins := [dw d 6, dw d 7, dw d 8, dw d 9], args := (d.drop 10).take 6 }

/-- Fields of a window word (R231). -/
def winEn (w : Nat) : Bool := bitAt w 63
def winWr (w : Nat) : Bool := bitAt w 62
def winBase (w : Nat) : Nat := bitsOf w 49 32
def winLen (w : Nat) : Nat := bitsOf w 18 0

/-- A MOVE descriptor or stage record with its gather/scatter block (R210, R273). -/
structure MoveDesc where
  kind : Nat
  srcSp : Nat
  dstSp : Nat
  ctx : Nat
  dev : Nat
  src : Nat
  dst : Nat
  len : Nat
  rows : Nat
  watchdog : Nat
  srcStride : Nat
  dstStride : Nat
  mcList : Nat
  mcCount : Nat
  mcLag : Nat
  mcReport : Nat
  count : Nat
  idx64 : Bool
  idxAddr : Nat
  rowBytes : Nat
  tabStride : Nat
  op : Nat
  fmt : Nat
  sgn : Bool
  tabRows : Nat
  deriving DecidableEq, Repr

/-- Read a MOVE descriptor (R210, R273). -/
def moveDescOf (d : List Word) : MoveDesc :=
  let w := dw d 2
  { kind := bitsOf w 63 61, srcSp := bitsOf w 60 59, dstSp := bitsOf w 58 57, ctx := bitsOf w 56 40, dev := bitsOf w 39 24,
    src := dw d 3, dst := dw d 4, len := dw d 5, rows := bitsOf (dw d 6) 63 32, watchdog := bitsOf (dw d 6) 31 16,
    srcStride := dw d 7, dstStride := dw d 8, mcList := bitsOf (dw d 9) 56 0, mcCount := bitsOf (dw d 10) 63 48,
    mcLag := bitsOf (dw d 10) 47 16, mcReport := bitsOf (dw d 11) 56 0, count := dw d 12, idx64 := bitAt (dw d 13) 63,
    idxAddr := bitsOf (dw d 13) 56 0, rowBytes := bitsOf (dw d 14) 63 32, tabStride := bitsOf (dw d 14) 31 0,
    op := bitsOf (dw d 15) 63 60, fmt := bitsOf (dw d 15) 59 56, sgn := bitAt (dw d 15) 55, tabRows := bitsOf (dw d 15) 47 0 }

/-- The operand of an INDEXED move that is its table side: SRC for GATHER, DST otherwise (R275). -/
def MoveDesc.tabIsSrc (m : MoveDesc) : Bool := m.op == 0

/-- Table base, linear base and linear row stride of an INDEXED move (R275). -/
def MoveDesc.tabBase (m : MoveDesc) : Nat := if m.tabIsSrc then m.src else m.dst
def MoveDesc.linBase (m : MoveDesc) : Nat := if m.tabIsSrc then m.dst else m.src
def MoveDesc.linStride (m : MoveDesc) : Nat := if m.tabIsSrc then m.dstStride else m.srcStride
def MoveDesc.tabSp (m : MoveDesc) : Nat := if m.tabIsSrc then m.srcSp else m.dstSp
def MoveDesc.linSp (m : MoveDesc) : Nat := if m.tabIsSrc then m.dstSp else m.srcSp

/-- The bytes of the logical sequence of a MOVE (R256). -/
def MoveDesc.total (m : MoveDesc) : Nat := if m.kind = 1 then m.count * m.rowBytes else m.len * m.rows

/-- The watchdog limit in ns: 0 selects 100 ms (R273). -/
def MoveDesc.watchNs (m : MoveDesc) : Nat := (if m.watchdog = 0 then 100 else m.watchdog) * 1000000

/-- The lag limit in ns: 0 selects 1,000 µs (R273). -/
def MoveDesc.lagNs (m : MoveDesc) : Nat := (if m.mcLag = 0 then 1000 else m.mcLag) * 1000

/-- The buffer ID and slot count a BUFFER location names (R274). -/
def locBuffer (w : Nat) : Nat := bitsOf w 17 0
def locSlots (w : Nat) : Nat := bitsOf w 29 24 + 1

/-- A receiver of a MULTICAST (R278): space, device, location. -/
structure McRecv where
  sp : Nat
  dev : Nat
  loc : Nat
  raw0 : Nat
  deriving DecidableEq, Repr

/-- The receivers of a MULTICAST, read through the corral's translations (R278). -/
def State.receivers (s : State) (c : Nat) (m : MoveDesc) : List McRecv :=
  (upTo m.mcCount).map (fun i =>
    let w0 := s.vaWord c (m.mcList + 16 * i)
    { sp := bitsOf w0 63 62, dev := bitsOf w0 47 32, loc := s.vaWord c (m.mcList + 16 * i + 8), raw0 := w0 })

/-- The BUFFER operands of a MOVE outside a tandem: buffer ID, slots, whether the MOVE produces into it (R283). -/
def State.moveBuffers (s : State) (c : Nat) (m : MoveDesc) : List (Nat × Nat × Bool) :=
  (if m.srcSp = 1 then [(locBuffer m.src, locSlots m.src, false)] else [])
    ++ (if m.kind = 2 then ((s.receivers c m).filter (fun r => r.sp = 1)).map (fun r => (locBuffer r.loc, locSlots r.loc, true))
        else if m.dstSp = 1 then [(locBuffer m.dst, locSlots m.dst, true)] else [])

/-- A DRAIN descriptor or stage record (R314). -/
structure DrainDesc where
  base : Nat
  count : Nat
  seg : Nat
  ccode : Nat
  wide : Bool
  prodSeq : Nat
  prodQueue : Nat
  dest : Nat
  rows : Nat
  stride : Nat
  limit : Nat
  deriving DecidableEq, Repr

/-- Read a DRAIN descriptor (R314). -/
def drainDescOf (d : List Word) : DrainDesc :=
  let w := dw d 2
  { base := bitsOf w 63 52, count := bitsOf w 51 40, seg := bitsOf w 39 34, ccode := bitsOf w 33 31, wide := bitAt w 30,
    prodSeq := bitsOf (dw d 3) 63 32, prodQueue := bitsOf (dw d 3) 31 16, dest := bitsOf (dw d 4) 56 0,
    rows := bitsOf (dw d 5) 63 32, stride := bitsOf (dw d 5) 31 0, limit := dw d 6 }

/-- C of a DRAIN (R314). -/
def DrainDesc.cols (x : DrainDesc) : Nat := 8 * 2 ^ x.ccode

/-- Bytes and positions of one entry of a DRAIN. -/
def DrainDesc.bytes (x : DrainDesc) : Nat := if x.wide then 8 else 4
def DrainDesc.w (x : DrainDesc) : Nat := if x.wide then 2 else 1

/-- The segments a DRAIN names on each stall (R126). -/
def DrainDesc.segs (x : DrainDesc) : Nat := cdiv (x.rows * x.cols * x.w) 256

/-- A CTX_SAVE or CTX_RESTORE descriptor (R315). -/
structure CtxDesc where
  stall : Nat
  count : Nat
  seg : Nat
  segs : Nat
  image : Nat
  limit : Nat
  deriving DecidableEq, Repr

/-- Read a CTX_SAVE or CTX_RESTORE descriptor (R315). -/
def ctxDescOf (d : List Word) : CtxDesc :=
  let w := dw d 2
  { stall := bitsOf w 63 52, count := bitsOf w 51 40, seg := bitsOf w 39 34, segs := bitsOf w 33 27,
    image := bitsOf (dw d 3) 56 0, limit := dw d 4 }

/-- A hand-over entry (R287). -/
structure HandDesc where
  prod : Nat
  cons : Nat
  slots : Nat
  buffer : Nat
  deriving DecidableEq, Repr

/-- Read a hand-over entry (R287). -/
def handDescOf (w0 : Nat) : HandDesc :=
  { prod := bitsOf w0 63 61, cons := bitsOf w0 60 58, slots := bitsOf w0 29 24 + 1, buffer := bitsOf w0 17 0 }

/-- STAGES, HCOUNT and TABLE of a TANDEM (R285). -/
def tanStages (d : List Word) : Nat := bitsOf (dw d 2) 63 60
def tanHands (d : List Word) : Nat := bitsOf (dw d 2) 59 56
def tanTable (d : List Word) : Nat := bitsOf (dw d 3) 56 0

/-- The stage records of a TANDEM, read through the corral's translations (R285). -/
def State.stageRecords (s : State) (c : Nat) (d : List Word) : List (List Word) :=
  (upTo (tanStages d)).map (fun i => bytesWords 16 (s.vaBytes c (tanTable d + 128 * i) 128))

/-- The raw words of the hand-over table. -/
def State.handWords (s : State) (c : Nat) (d : List Word) : List (Nat × Nat) :=
  (upTo (tanHands d)).map (fun i =>
    let a := tanTable d + 128 * tanStages d + 16 * i
    (s.vaWord c a, s.vaWord c (a + 8)))

/-- The binding of channel `ch` of a stage record: its hand-over when enabled (R286). -/
def stageBind (r : List Word) (out : Bool) (ch : Nat) : Option Nat :=
  let f := dw r 1 / 2 ^ (4 * ch + (if out then 16 else 0)) % 16
  if bitAt f 3 then some (f % 8) else none

/-- AFTER of a stage record (R286). -/
def stageAfter (r : List Word) : Nat := bitsOf (dw r 1) 63 56

/-! ## Stalls and resources of a command -/

/-- The stalls of a VECTOR command, by rank (R231, R234). -/
def State.vecStalls (s : State) (c : Nat) (x : VecDesc) : List Nat := ((s.corralStalls c).drop x.base).take x.count

/-- The stalls one descriptor or stage record uses (R562); a TANDEM uses those of its stages. -/
def State.stallsOne (s : State) (c : Nat) (d : List Word) : List Nat :=
  match descClass d with
  | 1 =>
    let x := matDescOf d
    match matFmtsOf x with
    | some f => s.gangStalls c x.gangBase (gangsUsed x f)
    | none => []
  | 2 => s.vecStalls c (vecDescOf d)
  | 4 => let x := drainDescOf d; s.gangStalls c x.base x.count
  | 7 => let x := ctxDescOf d; (upTo x.count).map (· + x.stall)
  | 8 => let x := ctxDescOf d; (upTo x.count).map (· + x.stall)
  | _ => []

/-- The stalls of a command with its stage records. -/
def State.stallsUsed (s : State) (c : Nat) (d : List Word) (stages : List (List Word)) : List Nat :=
  if descClass d = 5 then stages.flatMap (s.stallsOne c) else s.stallsOne c d

/-- What a command requests in one request (R146, R233, R258, R291). `free` counts contexts taken from the free ones of the
corral, `banks` the stalls on which it needs a bank, `slots` hand-over slots as stall × 64 + slot, `rings` its manual-ring
operands. -/
structure Need where
  segs : List Nat
  ctxs : List Nat
  free : Nat
  slots : List Nat
  banks : List Nat
  wins : List WinLease
  rings : List (Nat × Nat × Bool)
  deriving DecidableEq, Repr

/-- Nothing. -/
def Need.none : Need := { segs := [], ctxs := [], free := 0, slots := [], banks := [], wins := [], rings := [] }

/-- Two requests together. -/
def Need.join (a b : Need) : Need :=
  { segs := a.segs ++ b.segs, ctxs := a.ctxs ++ b.ctxs, free := a.free + b.free, slots := a.slots ++ b.slots,
    banks := a.banks ++ b.banks, wins := a.wins ++ b.wins, rings := a.rings ++ b.rings }

/-- Segments `seg … seg + n − 1` of a list of stalls. -/
def segKeys (stalls : List Nat) (seg n : Nat) : List Nat := stalls.flatMap (fun st => (upTo n).map (fun i => st * 64 + seg + i))

/-- The last members of `n` gangs from `g0`. -/
def State.lastMembers (s : State) (c g0 n : Nat) : List Nat := (upTo n).map (fun i => s.lastMember c (g0 + i))

/-- What one descriptor or stage record requests. `tandem` says that it is a stage, whose BUFFER operands are channels. -/
def State.needOne (s : State) (c : Nat) (tandem : Bool) (d : List Word) : Need :=
  match descClass d with
  | 1 =>
    let x := matDescOf d
    match matFmtsOf x with
    | some f =>
      if matIsNoop x then Need.none
      else { Need.none with segs := segKeys (s.lastMembers c x.gangBase (gangsUsed x f)) x.ctl.seg (footSegs x f)
                            free := 3 * gangsUsed x f }
    | none => Need.none
  | 2 =>
    let x := vecDescOf d
    if x.count = 0 ∨ x.plen = 0 then Need.none
    else
      let st := s.vecStalls c x
      { Need.none with
        banks := st
        wins := st.flatMap (fun k =>
          { stall := k, prog := true, lo := x.pstart, hi := x.pstart + x.plen, excl := x.pload }
            :: (x.wins.filter winEn).map (fun w =>
              { stall := k, prog := false, lo := winBase w, hi := winBase w + winLen w, excl := winWr w })) }
  | 3 =>
    let m := moveDescOf d
    { Need.none with ctxs := [m.ctx], rings := if tandem then [] else s.moveBuffers c m }
  | 4 =>
    let x := drainDescOf d
    if x.rows = 0 ∨ x.count = 0 then Need.none
    else { Need.none with segs := segKeys (s.lastMembers c x.base x.count) x.seg x.segs, free := x.count }
  | 7 => let x := ctxDescOf d; { Need.none with segs := segKeys ((upTo x.count).map (· + x.stall)) x.seg x.segs, free := x.count }
  | 8 => let x := ctxDescOf d; { Need.none with segs := segKeys ((upTo x.count).map (· + x.stall)) x.seg x.segs, free := x.count }
  | _ => Need.none

/-- The slots of a buffer as keys stall × 64 + slot: its ID is the first of them (R280). -/
def bufferKeys (b n : Nat) : List Nat := (upTo n).map (· + b)

/-- What a command requests (R146, R233, R258, R291). -/
def State.needOf (s : State) (c : Nat) (d : List Word) (stages : List (List Word)) (hands : List HandDesc) : Need :=
  if descClass d = 5 then
    stages.foldl (fun n r => n.join (s.needOne c true r))
      { Need.none with slots := hands.flatMap (fun h => bufferKeys h.buffer h.slots) }
  else s.needOne c false d

/-- The need of a waiting descriptor: a TANDEM's tables are read as they stand. -/
def State.descNeed (s : State) (c : Nat) (d : List Word) : Need :=
  s.needOf c d (s.stageRecords c d) ((s.handWords c d).map (fun w => handDescOf w.1))

end Sys2Proof.Machine
end

