-- ==== Sys2Proof/Machine/Check.lean ====
section
/-!
DEFINITION. The admission checks of every class (R173, R232, R276, R288, R311 to R317, R640) in order; the first failing check
decides (R308).
-/

namespace Sys2Proof.Machine

/-- What admission finds: a rejection with its tandem stage, a no-op, or a command to run. -/
inductive Adm where
  | reject (r : Reject) (stage : Nat)
  | noop
  | go
  deriving DecidableEq, Repr

/-- The lowest set bit of `w` in `[hi:lo]`, as a byte offset of the descriptor word `wi` (R321). -/
def firstBit (w wi hi lo : Nat) : Nat :=
  match ((upTo (hi + 1 - lo)).map (· + lo)).find? (fun i => bitAt w i) with
  | some i => 8 * wi + i / 8
  | none => 8 * wi + lo / 8

/-- A reserved bit range of descriptor word `wi` holds something (R15). -/
def resv (d : List Word) (n wi hi lo : Nat) : Bool × Reject :=
  (bitsOf (dw d wi) hi lo != 0, ⟨E_FIELD_RESERVED, n, firstBit (dw d wi) wi hi lo⟩)

/-- Words `a … b` of a descriptor are all reserved (R312). -/
def resvWords (d : List Word) (n a b : Nat) : List (Bool × Reject) := (upTo (b + 1 - a)).map (fun i => resv d n (a + i) 63 0)

/-- Header checks (R311): number 0. -/
def State.headerChecks (s : State) (c : Nat) (d : List Word) : List (Bool × Reject) :=
  let w0 := dw d 0
  let w1 := dw d 1
  let cls := descClass d
  [ resv d 0 0 53 32,
    (if cls = 6 then decide (3 ≤ descSub d) else descSub d != 0, ⟨E_FIELD_RESERVED, 0, 7⟩),
    (cls == 0 || decide (12 ≤ cls), ⟨E_FIELD_RESERVED, 0, 7⟩),
    (bitAt w0 55 && !((s.reg .CFG_EPOCH 0 0).bit 32 && s.fld .CFG_EPOCH 0 0 31 0 == bitsOf w0 31 0), ⟨E_CFG_EPOCH, 0, 0⟩),
    (bitAt w1 47 && !s.owns c .tether (bitsOf w1 46 32), ⟨E_CORRAL_ACCESS, 0, 12⟩),
    (bitAt w1 63 && !s.owns c .tether (bitsOf w1 62 48), ⟨E_CORRAL_ACCESS, 0, 14⟩) ]

/-- The corral as MATRIX admission sees it (R176). -/
def State.corralView (s : State) (c : Nat) : CorralView :=
  { len := s.gangLen c, shapes := (match s.corral c with | some d => d.shapes | none => 0), gangs := (s.gangHeads c).length,
    available := fun g => ((gangMembers ((s.gangHeads c).getD g 0) (s.gangLen c)).all (fun st => s.inService st)) }

/-- A read of a structure at admission that fails gives the check's own number with byte 0xFF (R640). -/
def State.readCheck (s : State) (c n va len : Nat) : Bool × Reject :=
  match s.rangeErr c false va len with
  | some (_, e) => (true, ⟨e.err, n, 0xFF⟩)
  | none => (false, ⟨0, n, 0xFF⟩)

/-- Check 17 of MATRIX: the reduction group entry (R512). -/
def State.groupCheck (s : State) (x : MatDesc) : List (Bool × Reject) :=
  if x.ctl.partCount ≤ 1 then []
  else
    let a := s.fld .RNL_RGROUP_BASE 0 0 56 4 * 16 + 16 * x.ctl.rgroup
    let list := bitsOf (s.rdWord a) 56 0
    let count := bitsOf (s.rdWord (a + 8)) 63 52
    let dev (i : Nat) : Nat := leNat (s.rdBytes (list + 2 * i) 2)
    let bad (p n : Nat) : Option Nat :=
      if hbmTop < p + n ∨ !s.hbmServed p then some E_ADDR_UNMAPPED else if (s.badIn p n).isSome then some E_HBM_UNCORR else none
    [ ((bad a 16).isSome, ⟨(bad a 16).getD 0, 17, 0xFF⟩),
      ((bad list (2 * count)).isSome, ⟨(bad list (2 * count)).getD 0, 17, 0xFF⟩),
      (count != x.ctl.partCount, ⟨E_FIELD_RANGE, 17, 0xFF⟩),
      ((upTo (count - 1)).any (fun i => decide (dev (i + 1) < dev i)), ⟨E_FIELD_RANGE, 17, 0xFF⟩),
      (dev x.ctl.partIndex != s.devId, ⟨E_FIELD_RANGE, 17, 0xFF⟩) ]

/-- Admission of MATRIX (R173, R640). `inCh` and `outCh` say that a stage binds IN0 and OUT0, and so ignores A_BASE, A_STRIDE or
C_BASE, C_STRIDE (R289). -/
def State.admMatrix (s : State) (c : Nat) (d : List Word) (inCh outCh tandem : Bool) : Adm :=
  let x := matDescOf d
  let keep (p : Bool × Reject) : Bool :=
    !(inCh && (p.2.byte == 40 || p.2.byte == 68)) && !(outCh && (p.2.byte == 56 || p.2.byte == 64))
  match firstReject ((matCheck1 d).filter keep) with
  | some r => .reject r 0
  | none =>
    match matFmtsOf x with
    | none => .reject ⟨E_FIELD_RESERVED, 1, 19⟩ 0
    | some f =>
      let sp := sparseChecks x f
      let mc := matChecks d (s.corralView c)
      let early := (mc ++ sp).filter keep
      -- the checks in the order of their numbers
      let ordered := (upTo 14).flatMap (fun n => early.filter (fun p => p.2.check == n))
      let stalls := s.gangStalls c x.gangBase (gangsUsed x f)
      let late : List (Bool × Reject) := if matIsNoop x then [] else
        [(s.stallsShut stalls, ⟨E_CFG_QUARANTINE, 15, 0xFE⟩)]
        ++ (if x.aEnc = 0 then [] else (x.aAux % 64 != 0, ⟨E_OPERAND_ALIGN, 16, 104⟩) :: s.readCheck c 16 x.aAux 64
              :: streamHdrCheck x (s.vaRd c))
        ++ s.groupCheck x
        ++ [(!tandem && decide ((s.owned .context c).length < 3 * gangsUsed x f), ⟨E_STREAM_CONTEXTS, 18, 0xFE⟩)]
      match firstReject (ordered ++ late) with
      | some r => .reject r 0
      | none => if matIsNoop x then .noop else .go

/-- Admission of VECTOR (R232, R640). -/
def State.admVector (s : State) (c : Nat) (d : List Word) : Adm :=
  let x := vecDescOf d
  let rng (b : Nat) : Reject := ⟨E_FIELD_RANGE, 1, b⟩
  let wins := [6, 7, 8, 9]
  let c1 : List (Bool × Reject) :=
    [resv d 1 2 14 0, (x.plen == 0xFFF, rng 18), (x.count == 0xFFF, rng 21), resv d 1 3 63 57, resv d 1 5 31 0]
    ++ wins.flatMap (fun i => [(winLen (dw d i) == 0x7FFFF, rng (8 * i)), resv d 1 i 31 19, resv d 1 i 61 50])
  match firstReject c1 with
  | some r => .reject r 0
  | none =>
    if x.count = 0 ∨ x.plen = 0 then .noop
    else
      let stalls := s.vecStalls c x
      let c2 : List (Bool × Reject) :=
        [(decide (2048 < x.pstart + x.plen), ⟨E_FIELD_RANGE, 2, 18⟩)]
        ++ wins.map (fun i =>
          let w := dw d i
          (winEn w && (decide (262144 < winBase w + winLen w) || winBase w % 64 != 0 || winLen w % 64 != 0),
            ⟨E_FIELD_RANGE, 2, 8 * i⟩))
        ++ [ (x.pload && x.progAddr % 512 != 0, ⟨E_OPERAND_ALIGN, 3, 24⟩),
             (decide ((s.corralStalls c).length < x.base + x.count), ⟨E_FIELD_RANGE, 4, 21⟩),
             (!x.pload && stalls.any (fun st =>
                let q := smGet (fun _ => SeqSt.idle) s.seqs st
                (upTo x.plen).any (fun i => !smGet (fun _ => false) q.verified (x.pstart + i))), ⟨E_VEC_PROGRAM, 5, 0xFE⟩),
             (stalls.any (fun st => !s.inService st), ⟨E_STALL_UNAVAILABLE, 6, 21⟩),
             (s.stallsShut stalls, ⟨E_CFG_QUARANTINE, 8, 0xFE⟩) ]
      match firstReject c2 with
      | some r => .reject r 0
      | none => .go

/-- Reserved bits of a location word (R274): in a tandem a BUFFER location names a channel. -/
def locCheck (d : List Word) (wi sp : Nat) (tandem : Bool) : List (Bool × Reject) :=
  if sp = 1 then
    if tandem then [resv d 1 wi 63 2] else [resv d 1 wi 23 18, resv d 1 wi 63 30]
  else [resv d 1 wi 63 57]

/-- Check 1 of MOVE: reserved bits and encodings, space combinations, all-ones lengths and counts (R273 to R276). -/
def moveCheck1 (d : List Word) (tandem : Bool) : List (Bool × Reject) :=
  let m := moveDescOf d
  let res (b : Nat) : Reject := ⟨E_FIELD_RESERVED, 1, b⟩
  let rng (b : Nat) : Reject := ⟨E_FIELD_RANGE, 1, b⟩
  let combo : Bool :=
    m.srcSp == 3 || m.dstSp == 3 || (m.kind == 2 && m.dstSp != 0) || (m.kind == 0 && m.srcSp == 2 && m.dstSp == 2)
      || (m.kind == 1 && (m.tabSp == 1 || m.linSp == 2))
  [resv d 1 2 23 0, (combo, res 23), (decide (3 ≤ m.kind), res 23)]
  ++ locCheck d 3 m.srcSp tandem
  ++ (if m.kind = 2 then [resv d 1 4 63 0] else locCheck d 4 m.dstSp tandem)
  ++ [ (m.kind != 1 && m.len == 2 ^ 64 - 1, rng 40),
       (m.kind == 1 && m.len != 0, res 40),
       resv d 1 6 15 0,
       (m.kind != 1 && m.rows == 0xFFFFFFFF, rng 52),
       (m.kind == 1 && m.rows != 0, res 52),
       (m.srcStride == 2 ^ 64 - 1, rng 56),
       (m.kind == 1 && m.tabIsSrc && m.srcStride != 0, res 56),
       (m.dstStride == 2 ^ 64 - 1, rng 64),
       (m.kind == 1 && !m.tabIsSrc && m.dstStride != 0, res 64) ]
  ++ (if m.kind = 2 then
        [resv d 1 9 63 57, resv d 1 10 15 0, (m.mcCount == 0xFFFF, rng 86), (decide (4096 < m.mcCount), rng 86), resv d 1 11 63 57]
      else [resv d 1 9 63 0, resv d 1 10 63 0, resv d 1 11 63 0])
  ++ (if m.kind = 1 then [] else resvWords d 1 12 15)

/-- Check 2 of MOVE for an INDEXED move: the gather/scatter block (R210). -/
def indexedCheck (d : List Word) : List (Bool × Reject) :=
  let m := moveDescOf d
  let res : Reject := ⟨E_FIELD_RESERVED, 2, 0xFF⟩
  let rng : Reject := ⟨E_FIELD_RANGE, 2, 0xFF⟩
  let combining := decide (2 ≤ m.op)
  [ (m.count == 2 ^ 64 - 1, rng),
    (bitsOf (dw d 13) 62 57 != 0 || bitsOf (dw d 15) 54 48 != 0, res),
    (decide (5 ≤ m.op), res),
    (!combining && m.fmt != 0, res),
    (combining && !(m.fmt == 0 || m.fmt == 1 || m.fmt == 3 || m.fmt == 11), res),
    (m.sgn && !(combining && m.fmt == 11), res),
    (m.rowBytes == 0xFFFFFFFF, rng),
    (decide (m.tabStride < m.rowBytes), rng),
    (combining && m.rowBytes % (fmtBits (fmtOfCode m.fmt) / 8) != 0, rng) ]

/-- Check 2 of MOVE for a MULTICAST: the receiver list (R278). -/
def State.receiverCheck (s : State) (c : Nat) (m : MoveDesc) (tandem : Bool) : List (Bool × Reject) :=
  s.readCheck c 2 m.mcList (16 * m.mcCount) ::
  (s.receivers c m).flatMap (fun r =>
    [ (r.sp == 3 || bitsOf r.raw0 61 48 != 0 || bitsOf r.raw0 31 0 != 0 || (r.sp != 2 && r.dev != 0)
        || (if r.sp = 1 then (if tandem then r.loc / 4 != 0 else bitsOf r.loc 23 18 != 0 || bitsOf r.loc 63 30 != 0) else bitsOf r.loc 63 57 != 0),
        ⟨E_FIELD_RESERVED, 2, 0xFF⟩) ])

/-- End of an extent of rows (R277). -/
def extentEnd (base rows stride len : Nat) : Nat := if rows = 0 then base else base + (rows - 1) * stride + len

/-- Two extents overlap as address intervals. -/
def extentsMeet (a b : Nat × Nat) : Bool := decide (a.1 < b.2) && decide (b.1 < a.2)

/-- Check 3 of MOVE: extents (R277), buffers (R280) and the totals of paddock rings (R353). -/
def State.extentCheck (s : State) (c : Nat) (m : MoveDesc) (tandem : Bool) : List (Bool × Reject) :=
  let rng (b : Nat) : Reject := ⟨E_FIELD_RANGE, 3, b⟩
  let top := 2 ^ 57
  let srcExt := (m.src, extentEnd m.src m.rows m.srcStride m.len)
  let dstExt := (m.dst, extentEnd m.dst m.rows m.dstStride m.len)
  let tabExt := (m.tabBase, extentEnd m.tabBase m.tabRows m.tabStride m.rowBytes)
  let linExt := (m.linBase, extentEnd m.linBase m.count m.linStride m.rowBytes)
  let bufs := if tandem then [] else s.moveBuffers c m
  (match m.kind with
   | 1 =>
     [ (decide (top < tabExt.2), rng (if m.tabIsSrc then 24 else 32)),
       (m.linSp == 0 && decide (top < linExt.2), rng (if m.tabIsSrc then 32 else 24)),
       (m.op == 0 && decide (1 < m.count) && decide (m.linStride < m.rowBytes) && m.linSp == 0, rng 64),
       (m.tabSp == 0 && m.linSp == 0 && extentsMeet tabExt linExt, rng 24) ]
   | 2 =>
     [ (m.srcSp != 1 && decide (top < srcExt.2), rng 24),
       (decide (1 < m.rows) && decide (m.dstStride < m.len), rng 64),
       ((s.receivers c m).any (fun r => r.sp != 1 && decide (top < extentEnd r.loc m.rows m.dstStride m.len)), rng 0xFF) ]
   | _ =>
     [ (m.srcSp != 1 && decide (top < srcExt.2), rng 24),
       (m.dstSp != 1 && decide (top < dstExt.2), rng 32),
       (decide (1 < m.rows) && decide (m.dstStride < m.len) && m.dstSp != 1, rng 64),
       (m.srcSp == 0 && m.dstSp == 0 && extentsMeet srcExt dstExt, rng 24) ])
  ++ bufs.flatMap (fun b =>
    [ (decide (196608 ≤ b.1) || decide (64 < b.1 % 64 + b.2.1), rng (if b.2.2 then 32 else 24)),
      ((allPdkRings s.cfg.frames).any (fun p => p.2.2.1 == b.1 && p.2.2.2 == b.2.1) && m.total % 8 != 0, rng 40) ])

/-- Check 5 of MOVE: ownership of CTX and of every buffer's stall; a buffer that overlaps a paddock ring without being it, or that is the
ring of a paddock the corral does not own (R34, R353). -/
def State.moveOwnCheck (s : State) (c : Nat) (m : MoveDesc) (tandem : Bool) : List (Bool × Reject) :=
  let bufs := if tandem then [] else s.moveBuffers c m
  (!s.owns c .context m.ctx, ⟨E_CORRAL_ACCESS, 5, 21⟩) ::
  bufs.flatMap (fun b =>
    let r : Reject := ⟨E_CORRAL_ACCESS, 5, if b.2.2 then 32 else 24⟩
    [ (!s.owns c .stall (b.1 / 64), r),
      ((allPdkRings s.cfg.frames).any (fun p => bufOverlap p.2.2.1 p.2.2.2 b.1 b.2.1
          && !(p.2.2.1 == b.1 && p.2.2.2 == b.2.1 && p.2.1 != b.2.2 && s.owns c .paddock p.1)), r) ])

/-- A MOVE with nothing to move (R276): of an INDEXED move, whose LENGTH and ROWS are zero, COUNT alone decides (R210). -/
def MoveDesc.isNoop (m : MoveDesc) : Bool :=
  if m.kind = 1 then m.count == 0 else m.len == 0 || m.rows == 0 || (m.kind == 2 && m.mcCount == 0)

/-- Admission of MOVE (R276, R640). -/
def State.admMove (s : State) (c : Nat) (d : List Word) (tandem : Bool) : Adm :=
  let m := moveDescOf d
  match firstReject (moveCheck1 d tandem) with
  | some r => .reject r 0
  | none =>
    if m.isNoop then .noop
    else
      let rest : List (Bool × Reject) :=
        (if m.kind = 1 then indexedCheck d else if m.kind = 2 then s.receiverCheck c m tandem else [])
        ++ s.extentCheck c m tandem
        ++ [ (m.kind == 2 && m.mcList % 16 != 0, ⟨E_OPERAND_ALIGN, 4, 72⟩),
             (m.kind == 2 && m.mcReport % 8 != 0, ⟨E_OPERAND_ALIGN, 4, 88⟩),
             (m.kind == 1 && m.idxAddr % (if m.idx64 then 8 else 4) != 0, ⟨E_OPERAND_ALIGN, 4, 104⟩) ]
        ++ s.moveOwnCheck c m tandem
        ++ [ ((if tandem then [] else s.moveBuffers c m).any (fun b =>
               s.regionShut (s.stallRegion (b.1 / 64))
                 || (allPdkRings s.cfg.frames).any (fun p => p.2.2.1 == b.1 && s.regionShut (s.pdkRegion p.1))),
              ⟨E_CFG_QUARANTINE, 6, 0xFE⟩) ]
      match firstReject rest with
      | some r => .reject r 0
      | none => .go

/-- Admission of DRAIN (R314, R640). -/
def State.admDrain (s : State) (c q seq : Nat) (d : List Word) (outCh tandem : Bool) : Adm :=
  let x := drainDescOf d
  let c1 : List (Bool × Reject) :=
    [ resv d 1 2 29 0, (decide (5 ≤ x.ccode), ⟨E_FIELD_RESERVED, 1, 19⟩), (x.count == 0xFFF, ⟨E_FIELD_RANGE, 1, 21⟩),
      resv d 1 3 15 0, resv d 1 4 63 57, (x.stride == 0xFFFFFFFF, ⟨E_FIELD_RANGE, 1, 40⟩),
      (x.rows == 0xFFFFFFFF, ⟨E_FIELD_RANGE, 1, 44⟩) ] ++ resvWords d 1 7 15
  match firstReject c1 with
  | some r => .reject r 0
  | none =>
    if x.rows = 0 ∨ x.count = 0 then .noop
    else
      let stalls := s.gangStalls c x.base x.count
      let c2 : List (Bool × Reject) :=
        [ (decide (64 * 256 < 256 * x.seg + x.rows * x.cols * x.w), ⟨E_FIELD_RANGE, 2, 20⟩),
          (decide ((s.gangHeads c).length < x.base + x.count), ⟨E_FIELD_RANGE, 2, 21⟩),
          -- DESIGN CHOICE (log 120): R97 names the error and no check number
          ((upTo x.count).any (fun g => !(s.corralView c).available (x.base + g)), ⟨E_GANG_UNAVAILABLE, 2, 21⟩),
          (!outCh && decide (x.limit < (x.rows - 1) * x.stride + x.count * x.cols * x.bytes), ⟨E_FIELD_RANGE, 2, 48⟩),
          (x.prodQueue == q && decide ((x.prodSeq + 2 ^ 32 - seq % 2 ^ 32) % 2 ^ 32 < 2 ^ 31), ⟨E_DRAIN_ORDER, 3, 26⟩),
          (!s.owns c .queue x.prodQueue, ⟨E_CORRAL_ACCESS, 4, 26⟩),
          (s.stallsShut stalls, ⟨E_CFG_QUARANTINE, 5, 0xFE⟩),
          (!tandem && decide ((s.owned .context c).length < x.count), ⟨E_STREAM_CONTEXTS, 6, 0xFE⟩) ]
      match firstReject c2 with
      | some r => .reject r 0
      | none => .go

/-- Admission of CTX_SAVE and CTX_RESTORE (R315, R640). -/
def State.admCtx (s : State) (c : Nat) (d : List Word) : Adm :=
  let x := ctxDescOf d
  let c1 : List (Bool × Reject) :=
    [ resv d 1 2 26 0, (x.segs == 0x7F, ⟨E_FIELD_RANGE, 1, 19⟩), (x.count == 0xFFF, ⟨E_FIELD_RANGE, 1, 21⟩),
      resv d 1 3 63 57 ] ++ resvWords d 1 5 15
  match firstReject c1 with
  | some r => .reject r 0
  | none =>
    if x.count = 0 ∨ x.segs = 0 then .noop
    else
      let stalls := (upTo x.count).map (· + x.stall)
      let c2 : List (Bool × Reject) :=
        [ (decide (64 < x.segs), ⟨E_FIELD_RANGE, 2, 19⟩),
          (decide (64 < x.seg + x.segs), ⟨E_FIELD_RANGE, 2, 19⟩),
          (decide (3072 < x.stall + x.count), ⟨E_FIELD_RANGE, 2, 21⟩),
          (decide (x.limit < 64 + 1664 * x.count * x.segs), ⟨E_FIELD_RANGE, 2, 32⟩),
          (x.image % 64 != 0, ⟨E_OPERAND_ALIGN, 3, 24⟩),
          (stalls.any (fun st => !s.owns c .stall st), ⟨E_CORRAL_ACCESS, 4, 21⟩),
          (s.stallsShut stalls, ⟨E_CFG_QUARANTINE, 5, 0xFE⟩),
          (decide ((s.owned .context c).length < x.count), ⟨E_STREAM_CONTEXTS, 6, 0xFE⟩) ]
      match firstReject c2 with
      | some r => .reject r 0
      | none => .go

/-- From a list of checks. -/
def admOf (l : List (Bool × Reject)) : Adm := match firstReject l with | some r => .reject r 0 | none => .go

/-- Admission of TETHER (R313, R640). -/
def State.admTether (s : State) (c : Nat) (d : List Word) : Adm :=
  admOf ([resv d 1 2 63 15, resv d 1 4 31 0] ++ resvWords d 1 5 15
    ++ [(!s.owns c .tether (bitsOf (dw d 2) 14 0), ⟨E_CORRAL_ACCESS, 2, 16⟩)])

/-- Admission of FENCE (R640). -/
def admFence (d : List Word) : Adm := admOf (resvWords d 1 2 15)

/-- The lead of a hitch: RNL_IDENT.LEAD (R499, R522). -/
def State.isLead (s : State) : Bool := (s.reg .RNL_IDENT 0 0).bit 36

/-- Is a queue's entry in walk mode, or PRIV (R302)? -/
def entryWalk (q : QueueSt) : Bool := bitAt (dw q.entry 2) 39
def entryPriv (q : QueueSt) : Bool := bitAt (dw q.entry 2) 38

/-- A queue. -/
def State.queue (s : State) (q : Nat) : QueueSt := smGet (fun _ => QueueSt.idle) s.queues q

/-- Replace a queue. -/
def State.setQueue (s : State) (q : Nat) (v : QueueSt) : State :=
  { s with queues := smSet (fun _ => QueueSt.idle) s.queues q v }

/-- Admission of RESYNC (R316, R640). -/
def State.admResync (s : State) (q : Nat) (d : List Word) : Adm :=
  admOf ([resv d 1 2 61 0, (decide (2 ≤ bitsOf (dw d 2) 63 62), ⟨E_FIELD_RESERVED, 1, 23⟩), resv d 1 3 63 57]
    ++ resvWords d 1 5 15
    ++ [ (!entryPriv (s.queue q), ⟨E_CORRAL_ACCESS, 2, 0xFE⟩),
         (bitsOf (dw d 2) 63 62 == 1 && !s.isLead, ⟨E_CFG_ROLE, 3, 23⟩) ])

/-- Admission of STEP (R317, R640). -/
def State.admStep (s : State) (c q : Nat) (d : List Word) : Adm :=
  let target := bitsOf (dw d 2) 63 48
  let count := bitsOf (dw d 2) 47 32
  match firstReject ([resv d 1 2 30 0, (count == 0xFFFF, ⟨E_FIELD_RANGE, 1, 20⟩)] ++ resvWords d 1 3 15) with
  | some r => .reject r 0
  | none =>
    if target = q ∨ !s.owns c .queue target ∨ !entryWalk (s.queue target) ∨ (s.queue target).phase = .disabled then
      .reject ⟨E_WALK_STATE, 2, 22⟩ 0
    else if count = 0 then .noop else .go

/-- Admission of a tandem's stage by its class (R288). -/
def State.admStage (s : State) (c q seq : Nat) (r : List Word) : Adm :=
  match descClass r with
  | 1 => s.admMatrix c r (stageBind r false 0).isSome (stageBind r true 0).isSome true
  | 2 => s.admVector c r
  | 3 => s.admMove c r true
  | _ => s.admDrain c q seq r (stageBind r true 0).isSome true

/-- Check 1 of TANDEM on its tables (R285 to R287): reserved bits, encodings, counts, buffer ranges. DESIGN CHOICE (log 120): SPRED_ADDR and TABLE that
are not aligned break it as reserved encodings, for R640 gives check 1 no alignment code. -/
def State.tandemTables (s : State) (c : Nat) (d : List Word) : List (Bool × Reject) :=
  let n := tanStages d
  let res : Reject := ⟨E_FIELD_RESERVED, 1, 0xFF⟩
  let rng : Reject := ⟨E_FIELD_RANGE, 1, 0xFF⟩
  let recs := s.stageRecords c d
  let hands := s.handWords c d
  s.readCheck c 1 (tanTable d) (128 * n + 16 * tanHands d) ::
  ((upTo n).flatMap (fun i =>
    let r := recs.getD i []
    let w0 := dw r 0
    [ (bitsOf w0 58 57 != 0 || bitsOf (dw r 1) 55 32 != 0, res),
      (descClass r == 0 || decide (5 ≤ descClass r), res),
      (descClass r == 1 && bitAt w0 59, res),
      (stageAfter r / 2 ^ i != 0, res),
      (bitAt w0 59 && bitsOf w0 56 0 % 8 != 0, res) ])
  ++ hands.flatMap (fun h =>
    let x := handDescOf h.1
    [ (bitsOf h.1 57 30 != 0 || bitsOf h.1 23 18 != 0 || h.2 != 0, res),
      (decide (x.cons ≤ x.prod), rng),
      (decide (196608 ≤ x.buffer) || decide (64 < x.buffer % 64 + x.slots), rng) ]))

/-- Times a hand-over is bound in a list of stages: (stage, channel). -/
def boundAt (recs : List (List Word)) (out : Bool) (h : Nat) : List (Nat × Nat) :=
  (upTo recs.length).flatMap (fun i => ((upTo 4).filter (fun ch => stageBind (recs.getD i []) out ch == some h)).map (fun ch => (i, ch)))

/-- The channels a MOVE stage's BUFFER operands name (R274, R288). -/
def moveChannel (r : List Word) (out : Bool) : Option Nat :=
  let m := moveDescOf r
  if out then (if m.dstSp = 1 then some (m.dst % 4) else none) else (if m.srcSp = 1 then some (m.src % 4) else none)

/-- The output channels of a MOVE stage: its destination's, or those of a MULTICAST's BUFFER receivers (R274, R278). -/
def State.moveOuts (s : State) (c : Nat) (r : List Word) : List Nat :=
  let m := moveDescOf r
  if m.kind = 2 then sortAsc (((s.receivers c m).filter (fun x => x.sp = 1)).map (fun x => x.loc % 4))
  else match moveChannel r true with | some ch => [ch] | none => []

/-- Check 2 of TANDEM: bindings (R288), and the buffers' stalls, whose E_CORRAL_ACCESS R34 and R353 ask for and R640 gives no number.
DESIGN CHOICE (log 120): number 2, after the bindings. -/
def State.tandemBinds (s : State) (c : Nat) (d : List Word) : List (Bool × Reject) :=
  let b : Reject := ⟨E_TANDEM_BIND, 2, 0xFF⟩
  let recs := s.stageRecords c d
  let hands := (s.handWords c d).map (fun w => handDescOf w.1)
  let hn := hands.length
  let hand (i : Nat) : HandDesc := hands.getD i (handDescOf 0)
  ((upTo hn).map (fun h =>
    let outs := boundAt recs true h
    let ins := boundAt recs false h
    (!(outs.map (·.1) == [(hand h).prod] && ins.map (·.1) == [(hand h).cons]), b)))
  ++ recs.map (fun r => ((upTo 4).any (fun ch =>
      ((stageBind r true ch).map (fun h => decide (hn ≤ h))).getD false
        || ((stageBind r false ch).map (fun h => decide (hn ≤ h))).getD false), b))
  ++ [((upTo hn).any (fun i => (upTo i).any (fun j =>
      bufOverlap (hand i).buffer (hand i).slots (hand j).buffer (hand j).slots)), b)]
  ++ recs.flatMap (fun r =>
    let ins := (upTo 4).filter (fun ch => (stageBind r false ch).isSome)
    let outs := (upTo 4).filter (fun ch => (stageBind r true ch).isSome)
    match descClass r with
    | 2 =>
      let x := vecDescOf r
      let st := (s.vecStalls c x).headD 0
      let onStall (h : Option Nat) : Bool := match h with | some h => (hand h).buffer / 64 == st | none => true
      [ ((!ins.isEmpty || !outs.isEmpty) && x.count != 1, b),
        (!((upTo 4).all (fun ch => onStall (stageBind r false ch) && onStall (stageBind r true ch))), b) ]
    | 1 =>
      let x := matDescOf r
      let f := matFmtsOf x
      let slots := match stageBind r false 0 with | some h => (hand h).slots | none => 0
      [ ((stageBind r false 0).isSome &&
          (shapeKP x.shape != 1 || decide (8 * s.gangLen c * density x.wSparse < x.k) || x.aEnc != 0 || x.kgroup || x.aStride != 0
            || (match f with | some f => decide (slots * 4096 < 2 * packedBytes f.a.fmt x.k) | none => false)), b),
        ((stageBind r true 0).isSome && x.ctl.disp != 1, b),
        (ins.any (· != 0) || outs.any (· != 0), b) ]
    | 4 => [(!ins.isEmpty || outs.any (· != 0), b)]
    | _ =>
      [ (!(ins == (match moveChannel r false with | some ch => [ch] | none => []))
          || !(outs == s.moveOuts c r), b) ])
  ++ hands.flatMap (fun h =>
    [ (!s.owns c .stall (h.buffer / 64), ⟨E_CORRAL_ACCESS, 2, 0xFF⟩),
      ((allPdkRings s.cfg.frames).any (fun p => bufOverlap p.2.2.1 p.2.2.2 h.buffer h.slots), ⟨E_CORRAL_ACCESS, 2, 0xFF⟩) ])

/-- The first stage that its class's checks reject, with the offset byte of a structure in memory (R288, R640). -/
def State.tandemStages (s : State) (c q seq : Nat) : Nat → List (List Word) → Adm
  | _, [] => .go
  | i, r :: t =>
    match s.admStage c q seq r with
    | .reject x _ => .reject { x with byte := if x.code = E_CFG_QUARANTINE ∨ x.code = E_STREAM_CONTEXTS then 0xFE else 0xFF } i
    | _ => s.tandemStages c q seq (i + 1) t

/-- Admission of TANDEM (R285 to R288, R640). -/
def State.admTandem (s : State) (c q seq : Nat) (d : List Word) : Adm :=
  let n := tanStages d
  let h := tanHands d
  let rng (b : Nat) : Reject := ⟨E_FIELD_RANGE, 1, b⟩
  match firstReject ([ resv d 1 2 55 0, (decide (9 ≤ h), rng 23), (decide (9 ≤ n), rng 23), resv d 1 3 63 57,
      (tanTable d % 512 != 0, ⟨E_FIELD_RESERVED, 1, 24⟩) ] ++ resvWords d 1 4 15) with
  | some r => .reject r 0
  | none =>
    if n = 0 then .noop
    else
      match firstReject (s.tandemTables c d) with
      | some r => .reject r 0
      | none =>
        match firstReject (s.tandemBinds c d) with
        | some r => .reject r 0
        | none =>
          match s.tandemStages c q seq 0 (s.stageRecords c d) with
          | .reject r i => .reject r i
          | _ =>
            let need := s.descNeed c d
            if (s.owned .context c).length < need.free + need.ctxs.length then .reject ⟨E_STREAM_CONTEXTS, 4, 0xFE⟩ 0 else .go

/-- All checks of a descriptor after its fetch (R308, R640). -/
def State.admission (s : State) (c q seq : Nat) (d : List Word) : Adm :=
  match firstReject (s.headerChecks c d) with
  | some r => .reject r 0
  | none =>
    match descClass d with
    | 1 => s.admMatrix c d false false false
    | 2 => s.admVector c d
    | 3 => s.admMove c d false
    | 4 => s.admDrain c q seq d false false
    | 5 => s.admTandem c q seq d
    | 6 => s.admTether c d
    | 7 => s.admCtx c d
    | 8 => s.admCtx c d
    | 9 => admFence d
    | 10 => s.admResync q d
    | _ => s.admStep c q d

/-- What admission reads from memory for a descriptor or a stage record, by virtual address (R640). -/
def ownReads (d : List Word) : List (Nat × Nat) :=
  match descClass d with
  | 1 => if (matDescOf d).aEnc = 0 then [] else [((matDescOf d).aAux, 64)]
  | 3 => if (moveDescOf d).kind = 2 then [((moveDescOf d).mcList, 16 * (moveDescOf d).mcCount)] else []
  | _ => []

/-- What admission reads for a descriptor: of a TANDEM its tables, then what its stages name. -/
def State.admissionReads (s : State) (c : Nat) (d : List Word) : List (Nat × Nat) :=
  if descClass d = 5 then (tanTable d, 128 * tanStages d + 16 * tanHands d) :: (s.stageRecords c d).flatMap ownReads else ownReads d

/-- The uncorrectable word in the reduction group entry or list that a MATRIX names (R512). -/
def State.groupBad (s : State) (d : List Word) : Option Nat :=
  if descClass d ≠ 1 ∨ (matDescOf d).ctl.partCount ≤ 1 then none
  else
    let a := s.fld .RNL_RGROUP_BASE 0 0 56 4 * 16 + 16 * (matDescOf d).ctl.rgroup
    (s.badIn a 16).orElse (fun _ => s.badIn (bitsOf (s.rdWord a) 56 0) (2 * bitsOf (s.rdWord (a + 8)) 63 52))

/-- A read of admission that met an uncorrectable word is counted and logged (R460, R640). -/
def State.logReads (s : State) (c : Nat) (d : List Word) (code : Nat) : State :=
  if code ≠ E_HBM_UNCORR ∧ code ≠ E_XLATE_FAULT then s
  else
    match s.rangesErr c false (s.admissionReads c d) with
    | some e => s.logAccess 0 c e
    | none =>
      match (d :: (if descClass d = 5 then s.stageRecords c d else [])).findSome? s.groupBad with
      | some w => s.logUncorr 0 w
      | none => s

end Sys2Proof.Machine
end

