-- ==== Sys2Proof/Machine/Units.lean ====
section
/-!
DEFINITION. Transfer units at the HBM controllers (R259 to R262, R458, R463): the controllers and pseudo-channels, the arrival of a unit,
and the units of the accesses that streams, ports and the device itself make (R588).
-/

namespace Sys2Proof.Machine

/-- A controller. -/
def State.ctrl (s : State) (st c : Nat) : CtrlSt := smGet (fun _ => CtrlSt.idle) s.hbm.ctrls (st * 16 + c)

/-- Replace a controller. -/
def State.setCtrl (s : State) (st c : Nat) (v : CtrlSt) : State :=
  { s with hbm := { s.hbm with ctrls := smSet (fun _ => CtrlSt.idle) s.hbm.ctrls (st * 16 + c) v } }

/-- A pseudo-channel by its global number (R450). -/
def State.pch (s : State) (g : Nat) : PcSt := smGet (fun _ => PcSt.idle) s.hbm.pcs g

/-- Replace a pseudo-channel. -/
def State.setPch (s : State) (g : Nat) (v : PcSt) : State :=
  { s with hbm := { s.hbm with pcs := smSet (fun _ => PcSt.idle) s.hbm.pcs g v } }

/-- A bank is being refreshed (R457). -/
def State.bankBusy (s : State) (g bank : Nat) : Bool := smGet (fun _ => false) s.hbm.busy (g * 64 + bank)

/-- A pseudo-channel leaves self-refresh; its scrub walk goes on. -/
def State.srExit (s : State) (g : Nat) (waking : Bool) : State :=
  let p := s.pch g
  if !p.inSr then s
  else
    let st := g / 32
    let s1 := s.setPch g { p with inSr := false, waking := waking }
    let s2 := (s1.setFld .HBM_SR_STATE st 0 (g % 32) (g % 32) 0).setFld .HBM_SCRUB_STATUS st 0 (g % 32) (g % 32) 0
    s2.bump .HBM_CNT st 9 1

/-- A unit arrives at its controller (R262, R463): one for an address that is not served is refused and counted. A partly covered
word of a write is read first (R261). A pseudo-channel in self-refresh wakes (R458). -/
def State.arriveUnit (s : State) (st c : Nat) (u : HbmUnit) : State :=
  let pa := u.addr.toNat
  if s.stackOf pa ≠ st ∨ s.ctrlOf pa ≠ c then s
  else if s.stackState st ≠ 2 then s.bump .HBM_CNT st 10 1
  else
    let g := s.pcOf pa
    let s1 := s.srExit g false
    let s2 := s1.setPch g { s1.pch g with usedAt := s.time }
    let k := s2.ctrl st c
    let new : List HbmUnit :=
      match u.cls, u.partialWord with
      | .write, true => [{ u with src := .streamRead, partialWord := false }, u]
      | .remote, true => [{ u with partialWord := false }, u]
      | .read, _ => [{ u with partialWord := false }]
      | _, false => [u]
    s2.setCtrl st c { k with waiting := k.waiting ++ new }

/-! ## The accesses that units carry (R259, R340) -/

/-- An access to `[pa, pa + n)` meets a word with a single-bit error: one that it reads, or reads to merge, is delivered corrected and
counted; one that it writes is rewritten (R459). -/
def State.touchSoft (s : State) (write : Bool) (pa n w : Nat) : State :=
  if pa + n ≤ w ∨ w + 32 ≤ pa then s
  else
    let whole := decide (pa ≤ w) && decide (w + 32 ≤ pa + n)
    let s1 : State := if write then { s with hbm := { s.hbm with soft := s.hbm.soft.erase w } } else s
    if write && whole then s1 else (s1.bump .HBM_CNT (s.stackOf w) 5 1).raise0 .hbm (s.stackOf w) 0

/-- A unit of `n` bytes goes to the controller its address lies at (R260). -/
def State.postUnit (s : State) (u : HbmUnit) (write : Bool) (n : Nat) : State :=
  let pa := u.addr.toNat
  (s.hbm.soft.foldl (fun t w => t.touchSoft write pa n w) s).arriveUnit (s.stackOf pa) (s.ctrlOf pa) u

/-- The unit of an access to `[a, a + n)` of HBM. -/
def State.unitAt (s : State) (src : UnitSource) (corral : Option Nat) (write : Bool) (a n : Nat) : State :=
  s.postUnit { src := src, corral := corral.map (BitVec.ofNat 8), addr := BitVec.ofNat 39 a
               partialWord := write && partialWrite a n } write n

/-- A block of trace, capture or replay at `[a, a + 512)` is one unit (R357, R359, R556). -/
def State.blockUnit (s : State) (src : UnitSource) (corral : Option Nat) (write : Bool) (a : Nat) : State := s.unitAt src corral write a 512

/-- The reads of the entries that a walk brings into the caches (R267, R588). DESIGN CHOICE (log 137): an entry that a walk has used
is not read again before the caches may lose it. -/
def State.walkUnits (s : State) (corral : Option Nat) (new : List CachedEntry) : State :=
  new.foldl (fun t k => t.unitAt .walk corral false k.addr 8) s

/-- The units a piece of an access costs (R259, R261). -/
def pieceUnits (write : Bool) (va n : Nat) : Nat := if write && partialWrite va n then 2 else 1

/-- One piece of an access that is made: a unit at HBM, charged to its stream; an access to paddock RAM that is not of aligned 8-byte
words is counted (R340). Stall memory is not charged (R259). The caches keep the entries its translation used (R268). -/
def State.usePiece (s0 : State) (src : UnitSource) (corral : Nat) (write : Bool) (va n : Nat) : State × Nat :=
  match s0.translate corral va write with
  | .fail _ _ => (s0, 0)
  | .ok pa =>
    let who := if corral < 256 then some corral else none
    let s := (s0.cacheWalk corral va).walkUnits who (s0.newEntries corral va)
    match placeOf pa with
    | .hbm => (s.unitAt src who write pa n, pieceUnits write va n)
    | .pdk _ _ => (if ramWhole pa n ∨ write then s else s.bump .DBG_BAD_REG_ACCESS 0 0 1, 0)
    | _ => (s, 0)

/-- The pieces of an access. -/
def State.usePieces (s : State) (src : UnitSource) (corral : Nat) (write : Bool) : List (Nat × Nat) → Nat → State × Nat
  | [], k => (s, k)
  | (va, n) :: t, k => let r := s.usePiece src corral write va n; r.1.usePieces src corral write t (k + r.2)

/-- An access of a port to this device's memory (R262). -/
def State.portAccess (s : State) (src : UnitSource) (corral : Nat) (write : Bool) (va n : Nat) : State :=
  (s.usePieces src corral write (unitPieces va n) 0).1

/-- The device writes a record, a report or a card at a virtual address of a corral (R309, R588). -/
def State.putOwn (s : State) (corral va : Nat) (bs : List Byte) : State := (s.vaWrite corral va bs).portAccess .record corral true va bs.length

end Sys2Proof.Machine
end

