-- ==== Sys2Proof/Machine/Finish.lean ====
section
/-!
DEFINITION. How commands end: counter latches and latch records (R559 to R563), completion records (R308 to R310, R318 to R321),
tethers (R322), the end of a command, and faults (R592 to R598).
-/

namespace Sys2Proof.Machine

/-! ## Look-up -/

/-- A command in flight. -/
def State.cmd (s : State) (q seq : Nat) : Option Cmd := s.cmds.find? (fun c => c.queue == q && c.seq == seq)

/-- Replace a command in flight. -/
def State.setCmd (s : State) (c : Cmd) : State :=
  { s with cmds := s.cmds.map (fun x => if x.queue == c.queue && x.seq == c.seq then c else x) }

/-- Remove a command. -/
def State.dropCmd (s : State) (q seq : Nat) : State :=
  { s with cmds := s.cmds.filter (fun x => !(x.queue == q && x.seq == seq)) }

/-- A stream context. -/
def State.ctx (s : State) (i : Nat) : StreamCtx := smGet (fun _ => StreamCtx.idle) s.ctxs i

/-- Replace a stream context. -/
def State.setCtx (s : State) (i : Nat) (v : StreamCtx) : State := { s with ctxs := smSet (fun _ => StreamCtx.idle) s.ctxs i v }

/-- The sequencer of a stall. -/
def State.seqr (s : State) (st : Nat) : SeqSt := smGet (fun _ => SeqSt.idle) s.seqs st

/-- Replace the sequencer of a stall. -/
def State.setSeqr (s : State) (st : Nat) (v : SeqSt) : State := { s with seqs := smSet (fun _ => SeqSt.idle) s.seqs st v }

/-- The discard that runs in a corral, if any (R594). -/
def State.discard (s : State) (c : Nat) : Option Discard := smGet (fun _ => none) s.svc.discards c

/-- A queue pair. -/
def State.qp (s : State) (i : Nat) : QpSt := smGet (fun _ => QpSt.idle) s.qps i

/-- Replace a queue pair. -/
def State.setQp (s : State) (i : Nat) (v : QpSt) : State := { s with qps := smSet (fun _ => QpSt.idle) s.qps i v }

/-! ## Latches (R559 to R563) -/

/-- A register of the GEN and COUNT layout (R122). -/
def isCounterReg (r : Reg) : Bool := (regInfo r).fields.map (fun f => (f.hi, f.lo)) == [(63, 48), (47, 0)]

/-- Latch the counter at a register address: its value, and GEN one higher (R559); all ones where there is no counter. -/
def State.latchAt (s : State) (a : Nat) : Word × State :=
  match regAt a with
  | some p =>
    if isCounterReg p.reg then
      let v := s.reg p.reg p.inst p.idx
      (s.countNow p, s.setReg p.reg p.inst p.idx (v.put 63 48 (v.fld 63 48 + 1)))
    else (BitVec.allOnes 64, s)
  | none => (BitVec.allOnes 64, s)

/-- Latch one selector for a command whose lowest stall is `first`: a command with no stall latches nothing (R562). -/
def State.latchSel (s : State) (first : Option Nat) (i : Nat) : Word × State :=
  let w := s.reg .DBG_LATCH_SEL 0 i
  match first with
  | some f =>
    if w.bit 63 then s.latchAt (w.fld 56 3 * 8 + (if w.bit 62 then f * 0x1000 else 0)) else (BitVec.allOnes 64, s)
  | none => (BitVec.allOnes 64, s)

/-- Latch selectors `i …` in order. -/
def State.latchFrom (s : State) (first : Option Nat) : List Nat → List Word × State
  | [] => ([], s)
  | i :: t =>
    let r := s.latchSel first i
    let u := r.2.latchFrom first t
    (r.1 :: u.1, u.2)

/-- All latches of one boundary of a command (R561): none while the corral's latch ring is disabled. -/
def State.latchAll (s : State) (corral : Nat) (first : Option Nat) : List Word × State :=
  if (s.reg .DBG_LATCH_RING 0 corral).bit 63 then s.latchFrom first (upTo 8) else ([], s)

/-- The lowest stall of a list. -/
def lowest (l : List Nat) : Option Nat := (sortAsc l).head?

/-- Write a latch record (R563). -/
def State.latchRecord (s : State) (c : Cmd) (code : Nat) (first : Option Nat) (ends : List Word) : State :=
  let ring := s.reg .DBG_LATCH_RING 0 c.corral
  if !ring.bit 63 then s
  else
    let j := (s.reg .DBG_LATCH_INDEX 0 c.corral).toNat
    let a := ring.fld 56 9 * 512 + 256 * (j % 2 ^ ring.fld 62 58)
    let starts := if c.latch.isEmpty then List.replicate 8 (BitVec.allOnes 64) else c.latch
    let ws : List Word :=
      [ BitVec.ofNat 64 (c.queue * 2 ^ 48 + code % 2 ^ 16 * 2 ^ 32 + descClass c.desc * 2 ^ 28),
        BitVec.ofNat 64 (c.seq * 2 ^ 32 + (match first with | some f => 2 ^ 12 + f | none => 0)),
        BitVec.ofNat 64 j, BitVec.ofNat 64 c.startTime, BitVec.ofNat 64 s.time, 0, 0, 0 ]
      ++ starts ++ ends ++ List.replicate 8 0
    let s1 := if a + 256 ≤ hbmTop ∧ s.hbmServed a then (s.wr a (wordsBytes ws)).unitAt .record (some c.corral) true a 256 else s
    s1.setReg .DBG_LATCH_INDEX 0 c.corral (BitVec.ofNat 64 (j + 1))

/-! ## Host ports (R294) -/

def State.hostPort (s : State) (p : Nat) : HostPort := smGet (fun _ => HostPort.idle) s.hostPorts p
def State.setHostPort (s : State) (p : Nat) (v : HostPort) : State :=
  { s with hostPorts := smSet (fun _ => HostPort.idle) s.hostPorts p v }

/-- Is a port's priority paused by a PFC frame? Every frame a port sends has the priority HST_PORT_CFG.PCP (R329). -/
def State.portPaused (s : State) (p : Nat) : Bool :=
  decide (s.time < smGet (fun _ => 0) (s.hostPort p).paused (s.fld .HST_PORT_CFG p 0 23 21))

/-- The headers of the packets a port sends (R295, R298, R329): tagged VLAN_ID where VLAN_EN is 1, PCP and DSCP from HST_PORT_CFG,
and ECT(0). DESIGN CHOICE (log 105): R329 gives every packet the port's DSCP and R298 gives a queue pair's packets its TCLASS; the
spec does not say which one the DSCP field bears, so both stand in the header. -/
def State.frameHdr (s : State) (p : Nat) (tclass : Option Nat) : FrameHdr :=
  let c := s.reg .HST_PORT_CFG p 0
  { port := p, vlan := if c.bit 44 then some (c.fld 43 32) else none, pcp := c.fld 23 21, dscp := c.fld 31 26,
    tclass := tclass.map (fun t => t / 4 * 4 + 2), ecn := 2 }

/-- Send packets on a host port; while its priority is paused they wait (R294). -/
def State.portSend (s : State) (p : Nat) (m : WireMsg) (n : Nat) : State :=
  if s.portPaused p ∨ !(s.hostPort p).txq.isEmpty then
    s.setHostPort p { s.hostPort p with txq := (s.hostPort p).txq ++ [(m, n)] }
  else { s with sent := m :: s.sent }.bump .HST_CNT p 1 n

/-- Send a message of `n` packets on a queue pair, with its traffic class (R298). -/
def State.hostSend (s : State) (i : Nat) (m : WireMsg) (n : Nat) : State :=
  s.portSend (i / 2048) (.framed (s.frameHdr (i / 2048) (some (bitsOf (dw (s.qp i).entry 0) 55 48))) m) n

/-! ## Requests of the device on a queue pair (R296, R298) -/

/-- PMTU of a queue pair in bytes (R298, R299). -/
def qpMtu (p : QpSt) : Nat :=
  match bitsOf (dw p.entry 0) 58 56 with | 4 => 2048 | 5 => 4096 | _ => 1024

/-- Packets of a message. -/
def packetsOf (mtu len : Nat) : Nat := max 1 (cdiv len mtu)

/-- Issue an RDMA WRITE on a queue pair; none where it is not in RTS. -/
def State.postWrite (s : State) (i addr rkey : Nat) (data : List Byte) (queue : Nat) : Option State :=
  let p := s.qp i
  if p.phase ≠ .rts then none
  else
    let n := packetsOf (qpMtu p) data.length
    let r : Request := { write := true, psn := p.sqPsn, addr := addr, rkey := rkey, len := data.length, data := data,
                         queue := queue, sentAt := s.time, tries := 0 }
    let s1 := s.setQp i { p with sqPsn := (p.sqPsn + n) % 2 ^ 24, outstanding := p.outstanding ++ [r] }
    some (s1.hostSend i (.roceWrite i p.sqPsn addr rkey data) n)

/-- A queue pair may issue another RDMA READ: at most 8 stand unanswered (R296). -/
def QpSt.mayRead (p : QpSt) : Bool := decide ((p.outstanding.filter (fun r => !r.write)).length < 8)

/-- Issue an RDMA READ on a queue pair; none where it is not in RTS. -/
def State.postRead (s : State) (i addr rkey len queue : Nat) : Option State :=
  let p := s.qp i
  if p.phase ≠ .rts then none
  else
    let n := packetsOf (qpMtu p) len
    let r : Request := { write := false, psn := p.sqPsn, addr := addr, rkey := rkey, len := len, data := [],
                         queue := queue, sentAt := s.time, tries := 0 }
    let s1 := s.setQp i { p with sqPsn := (p.sqPsn + n) % 2 ^ 24, outstanding := p.outstanding ++ [r] }
    some (s1.hostSend i (.roceRead i p.sqPsn addr rkey len) 1)

/-! ## Queue entries (R302) -/

def entryRingHost (q : QueueSt) : Bool := bitAt (dw q.entry 2) 63
def entryCrHost (q : QueueSt) : Bool := bitAt (dw q.entry 2) 62
def entryRingLog (q : QueueSt) : Nat := bitsOf (dw q.entry 2) 61 57
def entryCrLog (q : QueueSt) : Nat := bitsOf (dw q.entry 2) 56 52
def entryMax (q : QueueSt) : Nat := bitsOf (dw q.entry 2) 47 40
def entryQpx (q : QueueSt) : Nat := bitsOf (dw q.entry 2) 12 0
def entryRingRkey (q : QueueSt) : Nat := bitsOf (dw q.entry 3) 63 32
def entryCrRkey (q : QueueSt) : Nat := bitsOf (dw q.entry 3) 31 0

/-- Subtraction of 32-bit indices (R305). -/
def sub32 (a b : Nat) : Nat := (a + 2 ^ 32 - b % 2 ^ 32) % 2 ^ 32

/-- The corral of a queue, 0xFF where it is held. -/
def State.queueCorral (s : State) (q : Nat) : Nat := (s.owner .queue q).getD 0xFF

/-- A queue becomes STOPPED (R310): a queue that is being disabled goes on being disabled. -/
def State.stopQueue (s : State) (q code : Nat) : State :=
  let v := s.queue q
  let s1 := s.setQueue q { v with phase := if v.phase = .disabling then .disabling else .stopped, error := code, waiter := none }
  s1.raise .hst (entryQpx v / 2048) 3 code q (s.owner .queue q)

/-- A DISABLING queue becomes DISABLED when no command is left and every record is written, or cannot be (R303, R310). -/
def State.settleDisable (s : State) (q : Nat) : State :=
  let v := s.queue q
  if v.phase = .disabling ∧ !(s.cmds.any (fun c => c.queue == q)) ∧ (v.held.isEmpty ∨ v.error ≠ 0) then
    s.setQueue q { v with phase := .disabled, held := [], inflight := 0, waiter := none, fetched := none }
  else s

/-- Write the oldest held record of a queue if its slot is free (R309). -/
def State.writeRecord (s : State) (q : Nat) : State :=
  let v := s.queue q
  match v.held with
  | [] => s
  | r :: rest =>
    let size := 2 ^ entryCrLog v
    if v.error ≠ 0 ∨ ¬ sub32 v.written v.ci < size then s
    else
      let k := v.written
      let phase := (sub32 k v.start / size + 1) % 2
      let ws := match r.words with | w :: t => w.put 0 0 phase :: t | [] => []
      let bytes := wordsBytes ws
      let done : QueueSt := { v with held := rest, written := (k + 1) % 2 ^ 32, inflight := v.inflight - b2n r.frees }
      let at_ := (dw v.entry 1) + 64 * (k % size)
      if entryCrHost v then
        match s.postWrite (entryQpx v) (at_ + 8) (entryCrRkey v) (bytes.drop 8) q with
        | some s1 =>
          match s1.postWrite (entryQpx v) at_ (entryCrRkey v) (bytes.take 8) q with
          | some s2 => s2.setQueue q done
          | none => s1.stopQueue q E_HOST_ACCESS
        | none => s.stopQueue q E_HOST_ACCESS
      else
        let c := s.queueCorral q
        match s.rangeErr c true at_ 64 with
        | some e => (s.logAccess 0 c e).stopQueue q E_XLATE_FAULT
        | none => (s.putOwn c at_ bytes).setQueue q done

/-- Write as many held records of a queue as may be written (R309). -/
def State.flushRecords (s : State) (q : Nat) : Nat → State
  | 0 => s.settleDisable q
  | n + 1 => (s.writeRecord q).flushRecords q n

/-- Produce a record (R309). -/
def State.produce (s : State) (q : Nat) (words : List Word) (frees : Bool) : State :=
  let v := s.queue q
  let s1 := s.setQueue q { v with held := v.held ++ [{ words := words, frees := frees }], recs := (v.recs + 1) % 2 ^ 32 }
  s1.flushRecords q (v.held.length + 1)

/-- A saturating 32-bit count (R77). -/
def sat32 (n : Nat) : Nat := min n 0xFFFFFFFF

/-- Word 4 of a record: FIRST_INVALID (R78, R319). -/
def firstWord (k : Counts) : Nat :=
  match k.first with
  | none => 2 ^ 64 - 1
  | some (m, n, vec) => if vec then m % 2 ^ 64 else m % 2 ^ 32 * 2 ^ 32 + n % 2 ^ 16 * 2 ^ 16

/-- Words 2 to 7 of a DONE record by class (R319). -/
def doneBody (cls : Nat) (k : Counts) (moved units tether time : Nat) : List Nat :=
  let counts := [sat32 k.invalid * 2 ^ 32 + sat32 k.zinf, sat32 k.overflow * 2 ^ 32 + sat32 k.flush]
  match cls with
  | 3 => counts ++ [moved, units, 0, time]
  | 4 => [0, 0, moved, 0, 0, time]
  | 7 => [0, 0, moved, 0, 0, time]
  | 8 => [0, 0, moved, 0, 0, time]
  | 10 => [0, 0, moved, 0, 0, time]
  | 6 => [tether, 0, 0, 0, 0, time]
  | 9 => [0, 0, 0, 0, 0, time]
  | 11 => [0, 0, 0, 0, 0, time]
  | 0 => [0, 0, 0, 0, 0, time]
  | 12 => [0, 0, 0, 0, 0, time]
  | 13 => [0, 0, 0, 0, 0, time]
  | 14 => [0, 0, 0, 0, 0, time]
  | 15 => [0, 0, 0, 0, 0, time]
  | _ =>
    counts ++ [firstWord k, sat32 k.skipK * 2 ^ 32 + sat32 k.skipRows,
      sat32 k.skipGangs * 2 ^ 32 + (match k.first with | some (_, _, v) => b2n v * 2 ^ 31 | none => 0)
        + k.firstStage % 8 * 2 ^ 28, time]

/-- A DONE record without PHASE (R318, R319). -/
def doneRecord (cls queue seq code detail stage : Nat) (k : Counts) (moved units tether time : Nat) : List Word :=
  ([1 * 2 ^ 60 + cls % 16 * 2 ^ 56 + stage % 8 * 2 ^ 53 + queue % 2 ^ 16 * 2 ^ 32 + code % 2 ^ 16 * 2 ^ 16,
    seq % 2 ^ 32 * 2 ^ 32 + detail % 2 ^ 32] ++ doneBody cls k moved units tether time).map (BitVec.ofNat 64)

/-- A FAULT record without PHASE (R270, R318); `dev` is this device's ID, whose walk failed unless `remote` names another. -/
def faultRecord (dev : Nat) (c : Cmd) (ctx : Nat) (x : StreamCtx) (time : Nat) (remote : Option Nat) : List Word :=
  [2 * 2 ^ 60 + descClass c.desc * 2 ^ 56 + x.stage % 8 * 2 ^ 53 + c.queue * 2 ^ 32 + E_XLATE_FAULT * 2 ^ 16,
   c.seq * 2 ^ 32, x.faultVa % 2 ^ 57, x.pos,
   x.cause * 2 ^ 61 + b2n x.wr * 2 ^ 60 + x.level * 2 ^ 57 + ctx * 2 ^ 40 + x.stage * 2 ^ 37 + c.corral * 2 ^ 24, time,
   (match remote with | some d => 2 ^ 16 + d | none => dev), 0].map (BitVec.ofNat 64)

/-! ## Tethers (R322) -/

/-- The value of a tether. -/
def State.tether (s : State) (t : Nat) : Word := smGet (fun _ => 0) s.tethers t

/-- Is a descriptor's own wait satisfied by a value (R308, R311)? -/
def waitMet (d : List Word) (v : Nat) : Bool := decide (bitsOf (dw d 1) 31 0 ≤ v)

/-- The descriptor waits on this tether. -/
def waitsOn (d : List Word) (t : Nat) : Bool := bitAt (dw d 1) 63 && bitsOf (dw d 1) 62 48 == t

/-- A waiter whose tether wait is over goes on: a DRAIN to its producer, everything else to the request for its grant. -/
def passTether (d : List Word) (noop : Bool) : WaitStage := if descClass d = 4 ∧ !noop then .producer else .grant

/-- Wake the head waiters and TETHER WAIT commands that a new value satisfies (R322). -/
def State.wakeTether (s : State) (t : Nat) (v : Nat) : State :=
  { s with
    queues := s.queues.map (fun e =>
      match e.2.waiter with
      | some w =>
        if w.at_ = .tether ∧ waitsOn w.desc t ∧ waitMet w.desc v then
          (e.1, { e.2 with waiter := some { w with at_ := passTether w.desc w.noop, stamp := s.time, since := s.time } })
        else e
      | none => e)
    cmds := s.cmds.map (fun c =>
      if descClass c.desc = 6 ∧ descSub c.desc = 0 ∧ bitsOf (dw c.desc 2) 14 0 = t ∧ c.released = 0
          ∧ (dw c.desc 3) ≤ v then { c with released := 1, tether := v } else c) }

/-- Give a tether a new value and evaluate every waiter on it (R322). -/
def State.setTether (s : State) (t : Nat) (v : Word) : State :=
  ({ s with tethers := smSet (fun _ => 0) s.tethers t v }).wakeTether t v.toNat

/-- Add to a tether, modulo 2^64 (R322). -/
def State.addTether (s : State) (t : Nat) (n : Word) : State := s.setTether t (s.tether t + n)

/-! ## The end of a command -/

/-- A bank is freed (R237). -/
def State.freeBank (s : State) (b : BankRef) : State :=
  let q := s.seqr b.stall
  let q1 := if q.active = some (b.bank == 1) then { q with last := b.bank == 1, lastPc := (q.bank (b.bank == 1)).pc } else q
  s.setSeqr b.stall (q1.setBank (b.bank == 1) { q1.bank (b.bank == 1) with phase := .free, wait := .none, windows := [] })

/-- Manual rings after a partner has ended (R283, R284): a failed partner breaks the ring. -/
def ringsAfter (l : List ManualRing) (q seq : Nat) (ok : Bool) : List ManualRing :=
  (l.map (fun r =>
    if r.producer = some (q, seq) then { r with prodDone := true, broken := r.broken || !ok }
    else if r.consumer = some (q, seq) then { r with consDone := true, broken := r.broken || !ok } else r)).filter
    (fun r => !((r.prodDone && r.consDone) || (r.broken && (r.prodDone || r.producer.isNone) && (r.consDone || r.consumer.isNone))))

/-- Commands whose manual-ring partner has failed fail with E_STREAM_STALL at once (R284). -/
def breakPartners (rings : List ManualRing) (cmds : List Cmd) : List Cmd :=
  cmds.map (fun c =>
    if c.phase = .running ∧ rings.any (fun r => r.broken && (r.producer == some (c.queue, c.seq) || r.consumer == some (c.queue, c.seq)))
    then { c with phase := .failing E_STREAM_STALL 0 0 } else c)

/-- A paddock ring loses its partner (R353). -/
def dropPartner (q seq : Nat) (p : PdkSt) : PdkSt :=
  { p with inRing := if p.inRing.partner = some (q, seq) then { p.inRing with partner := none } else p.inRing
           outRing := if p.outRing.partner = some (q, seq) then { p.outRing with partner := none } else p.outRing }

/-- The STEP whose released unit of queue `q` has ended keeps the error of the first unit that failed (R567). -/
def noteStep (q code : Nat) : List Cmd → List Cmd
  | [] => []
  | c :: t =>
    if descClass c.desc = 11 ∧ bitsOf (dw c.desc 2) 63 48 = q then
      (if c.tether = 0 ∧ !isOkCode code then { c with tether := code } else c) :: t
    else c :: noteStep q code t

/-- Bytes a command has moved, written or restored by its end (R319): of a MOVE the bytes its stream has completed, less the linear rows
of a scatter whose index is null (R211); of a DRAIN or save that ends early what its streams have completed. -/
def State.bytesMoved (s : State) (c : Cmd) : Nat :=
  let done := (c.ctxs.map (fun i => (s.ctx i).pos)).foldl (· + ·) 0
  match descClass c.desc with
  | 3 =>
    let m := moveDescOf c.desc
    let x := s.ctx m.ctx
    let idx := x.idx.getD []
    x.pos - (if m.kind = 1 ∧ !m.tabIsSrc then
      ((upTo idx.length).map (fun r => if (idx.getD r none).isNone then min m.rowBytes (x.pos - r * m.rowBytes) else 0)).foldl (· + ·) 0 else 0)
  | 4 => max c.moved done
  | 7 => max c.moved done
  | _ => c.moved

/-- Write the lag report of a multicast that has moved anything (R279), where its address can be written. -/
def State.lagReport (s : State) (corral : Nat) (d : List Word) : State :=
  let m := moveDescOf d
  if descClass d = 3 ∧ m.kind = 2 ∧ m.mcReport ≠ 0 ∧ (s.ctx m.ctx).phase ≠ .free ∧ (s.rangeErr corral true m.mcReport (8 * m.mcCount)).isNone then
    s.putOwn corral m.mcReport (((s.ctx m.ctx).lagNow m.mcCount s.time).flatMap (leBytes 8))
  else s

/-- The lag reports of a command: its own, or those of its stages. -/
def State.lagReports (s : State) (c : Cmd) : State := (c.desc :: c.stageTabs).foldl (fun t d => t.lagReport c.corral d) s

/-- A command ends (R308, R319, R326, R561): its segments become not VALID when it failed (R150), its latch record is written,
its SIG_EN addition made when it succeeded, its record produced, and everything it held is released. -/
def State.endCmd (s0 : State) (c : Cmd) (code detail stage : Nat) (keepSegs : Bool) : State :=
  let ok := isOkCode code
  let s := s0.lagReports c
  let s1 : State := if ok || keepSegs then s else { s with acs := c.segs.foldl (fun a k => acsInvalidate a (k / 64) (k % 64)) s.acs }
  let first := lowest (s1.stallsUsed c.corral c.desc c.stageTabs)
  let l := s1.latchAll c.corral first
  let s2 := l.2.latchRecord c code first l.1
  let s3 := if ok && bitAt (dw c.desc 1) 47 then s2.addTether (bitsOf (dw c.desc 1) 46 32) 1 else s2
  let s4 := (c.ctxs.foldl (fun t i => t.setCtx i StreamCtx.idle) (c.banks.foldl (fun t b => t.freeBank b) s3)).dropCmd c.queue c.seq
  let rings := ringsAfter s4.rings c.queue c.seq ok
  let s5 : State := { s4 with rings := rings, cmds := noteStep c.queue code (breakPartners rings s4.cmds)
                              pdks := s4.pdks.map (fun e => (e.1, dropPartner c.queue c.seq e.2)) }
  let v := s5.queue c.queue
  let s6 := s5.setQueue c.queue { v with outcome := smSet (fun _ => 0) v.outcome c.seq (code + 1) }
  if ok && bitAt (dw c.desc 0) 54 then
    let v := s6.queue c.queue
    (s6.setQueue c.queue { v with inflight := v.inflight - 1 }).settleDisable c.queue
  else
    s6.produce c.queue
      (doneRecord (descClass c.desc) c.queue c.seq code detail stage c.counts (s.bytesMoved c) c.units c.tether s6.time) true

/-- A record of a command that was never admitted (R308): a rejection, or a failure while it waited. -/
def State.rejectHead (s : State) (q : Nat) (d : List Word) (code detail stage : Nat) : State :=
  let v := s.queue q
  let s1 := s.setQueue q { v with admitIx := (v.admitIx + 1) % 2 ^ 32, waiter := none, fetched := none
                                  outcome := smSet (fun _ => 0) v.outcome v.admitIx (code + 1) }
  let s2 : State := { s1 with cmds := noteStep q code s1.cmds }
  s2.produce q (doneRecord (descClass d) q v.admitIx code detail stage Counts.zero 0 0 0 s1.time) false

/-! ## Faults (R592 to R598) -/

/-- Codes that are corral faults (R598). -/
def isCorralFault (code : Nat) : Bool :=
  code == E_MEM_OUT_OF_CORRAL || code == E_CORRAL_ACCESS || code == E_STL_PARITY || code == E_STL_CHAIN || code == E_ACS_ECC
    || code == E_VEC_ECC || code == E_HBM_UNCORR || code == E_NET_TIMEOUT || code == E_LINK_DOWN || code == E_LINK_RETRY
    || code == E_LINK_UNREACHABLE || code == E_DEVICE_REMOVED

/-- Record a fault of a corral (R593, R594, R596): its FAULTS entry, and the discard of the corral's work in flight unless one
runs already. `raiser` is the command that raised it, with the DETAIL and stage of its record. -/
def State.fault (s : State) (corral code queue : Nat) (raiser : Option (Nat × Nat × Nat)) (repair : List (Nat × Nat)) : State :=
  let e : FaultEntry := { time := s.time, code := code, queue := queue, corral := corral }
  let s1 : State := { s with svc := { s.svc with faults := (e :: s.svc.faults).take 32 } }
  match s1.discard corral with
  | some d =>
    { s1 with svc := { s1.svc with discards := smSet (fun _ => none) s1.svc.discards corral
                                                 (some { d with repair := d.repair ++ repair, joined := d.joined ++ [(code, queue)] }) } }
  | none =>
    let d : Discard := { code := code, queue := queue, instant := s.time, repair := repair, joined := [] }
    let log := smGet (fun _ => CorralLog.idle) s1.svc.corrals corral
    { s1 with
      svc := { s1.svc with
        discards := smSet (fun _ => none) s1.svc.discards corral (some d)
        corrals := smSet (fun _ => CorralLog.idle) s1.svc.corrals corral { log with lastCode := code, lastTime := s.time } }
      cmds := s1.cmds.map (fun c =>
        if c.corral = corral then
          match raiser with
          | some (seq, detail, stage) =>
            if c.queue = queue ∧ c.seq = seq then { c with phase := .failing code detail stage }
            else { c with phase := .discarding code queue }
          | none => { c with phase := .discarding code queue }
        else c) }

/-- The counts of a VECTOR command or stage, summed over its banks (R77, R78). -/
def State.vecCounts (s : State) (k : Counts) (l : List BankRef) (stage : Nat) : Counts :=
  l.foldl (fun (k : Counts) b =>
    let v := ((s.seqr b.stall).bank (b.bank == 1)).counts
    let k1 := { k with invalid := k.invalid + v.invalid, zinf := k.zinf + v.zinf, overflow := k.overflow + v.overflow }
    match v.first with
    | none => k1
    | some n =>
      match k.first with
      | some (a, _, true) => if k.firstStage < stage ∨ (k.firstStage = stage ∧ a ≤ n) then k1 else { k1 with first := some (n, 0, true), firstStage := stage }
      | some (_, _, false) => if k.firstStage ≤ stage then k1 else { k1 with first := some (n, 0, true), firstStage := stage }
      | none => { k1 with first := some (n, 0, true), firstStage := stage }) k

/-- The counts of a command that fails at `stage`, as far as its banks have run (R81). -/
def State.countsAtFail (s : State) (c : Cmd) (stage : Nat) : Counts :=
  s.vecCounts c.counts (c.banks.filter (fun b =>
    let k := (s.seqr b.stall).bank (b.bank == 1)
    k.queue == c.queue && k.seq == c.seq && k.stage == stage)) stage

/-- A command fails (R598): as a corral fault, or alone. -/
def State.failCmd (s : State) (c : Cmd) (code detail stage : Nat) : State :=
  let c1 := { c with counts := s.countsAtFail c stage }
  if c.phase ≠ .running then s
  else if isCorralFault code then (s.setCmd c1).fault c.corral code c.queue (some (c.seq, detail, stage)) []
  else s.setCmd { c1 with phase := .failing code detail stage }

/-- A failed access fails its command with the access's error, and an uncorrectable word is logged (R460). -/
def State.failAccess (s : State) (c : Cmd) (code stage : Nat) (badWord : Option Nat) : State :=
  match badWord with
  | some w => (s.logUncorr 0 w).failCmd c code 0 stage
  | none => s.failCmd c code 0 stage

end Sys2Proof.Machine
end

