-- ==== Sys2Proof/Machine/Route.lean ====
section
/-!
DEFINITION. Requests to other devices: the choice of a port (R503, R609), transmission on a rein port (R486 to R489), and the
trackers of outstanding requests (R439, R440).
-/

namespace Sys2Proof.Machine

/-! ## Coordinates and roles (R497, R498) -/

/-- A rein port's protocol state. -/
def State.port (s : State) (i : Nat) : PortSt := smGet (fun _ => PortSt.idle) s.rein.ports i

/-- Replace a rein port's protocol state. -/
def State.setPort (s : State) (i : Nat) (v : PortSt) : State :=
  { s with rein := { s.rein with ports := smSet (fun _ => PortSt.idle) s.rein.ports i v } }

/-- RNL_PORT_STATUS.STATE (R493): 0 OFF, 1 DOWN, 2 TRAINING, 3 ALIGNING, 4 INIT, 5 UP, 6 MISWIRED, 7 FAILED. -/
def State.portState (s : State) (i : Nat) : Nat := s.fld .RNL_PORT_STATUS i 0 3 0

/-- A port new packets may take: UP, and not being drained (R503, R607). -/
def State.portUsable (s : State) (i : Nat) : Bool := s.portState i == 5 && !(s.port i).drain

def State.portRole (s : State) (i : Nat) : Nat := s.fld .RNL_PORT_CFG i 0 62 61
def State.portDim (s : State) (i : Nat) : Nat := s.fld .RNL_PORT_CFG i 0 60 59
def State.portDir (s : State) (i : Nat) : Nat := s.fld .RNL_PORT_CFG i 0 58 58
def State.portMember (s : State) (i : Nat) : Nat := s.fld .RNL_PORT_CFG i 0 57 57

/-- The coordinate of a position in a dimension: position is x + 4y + 16z (R497). -/
def coordOf (p dim : Nat) : Nat := p / 4 ^ dim % 4

/-- The size of a dimension of this device's hitch; 0 before enumeration. -/
def State.dimSize (s : State) (dim : Nat) : Nat :=
  match dim with
  | 0 => s.fld .RNL_IDENT 0 0 47 45
  | 1 => s.fld .RNL_IDENT 0 0 44 42
  | _ => s.fld .RNL_IDENT 0 0 41 39

def State.ownPos (s : State) : Nat := s.fld .RNL_IDENT 0 0 53 48
def State.ownHitch (s : State) : Nat := s.fld .RNL_IDENT 0 0 63 54

/-- A position names a device of the hitch's torus (R497). -/
def State.posNames (s : State) (p : Nat) : Bool := (upTo 3).all (fun d => decide (coordOf p d < s.dimSize d))

/-- A position that holds no admitted device (R608); a device that has no mask takes every position as present. -/
def State.posAbsent (s : State) (p : Nat) : Bool := s.svc.presence != 0 && !bitAt s.svc.presence p

/-- A position with its coordinate in one dimension replaced. -/
def withCoord (p dim c : Nat) : Nat := p - coordOf p dim * 4 ^ dim + c * 4 ^ dim

/-- The positions that `n` hops from coordinate `c` pass in a dimension of size `d`, up or down. -/
def hopPositions (p dim d n : Nat) (down : Bool) : List Nat :=
  (upTo n).map (fun i =>
    let k := (i + 1) % d
    withCoord p dim ((coordOf p dim + (if down then d - k else k)) % d))

/-- The direction taken in a dimension to reach a coordinate: 0 + or 1 −, turned round where an absent position is in the way
(R503, R609); none where both ways are barred. -/
def State.torusDir (s : State) (dim target : Nat) : Option Nat :=
  let d := s.dimSize dim
  let p := s.ownPos
  let r := (target + d - coordOf p dim) % d
  let clear (down : Bool) : Bool :=
    (hopPositions p dim d (if down then d - r else r) down).all (fun x => !s.posAbsent x)
  let first := !decide (r ≤ d / 2)
  if clear first then some (b2n first) else if clear (!first) then some (b2n (!first)) else none

/-- The torus port of a dimension, direction and member (R498). -/
def State.torusPort (s : State) (dim dir member : Nat) : Option Nat :=
  (upTo 16).find? (fun i => s.portRole i == 1 && s.portDim i == dim && s.portDir i == dir && s.portMember i == member)

/-- The global port of a number. -/
def State.globalPort (s : State) (g : Nat) : Option Nat :=
  (upTo 16).find? (fun i => s.portRole i == 2 && s.fld .RNL_PORT_CFG i 0 56 55 == g)

/-- Entry h of the global route table (R502, R522). -/
def State.groute (s : State) (h : Nat) : Nat := s.fld .RNL_GROUTE 0 (h / 4) (16 * (h % 4) + 15) (16 * (h % 4))

/-- Where a packet goes next (R503). -/
inductive Hop where
  | here
  | out (port ghops b : Nat)
  | removed
  | fail (code : Nat)
  deriving DecidableEq, Repr

/-- The next hop within the hitch toward position `p` (R503, R609). `lastDim` is the dimension of the last torus hop. -/
def State.torusHop (s : State) (p src dst ghops b : Nat) (lastDim : Option Nat) : Hop :=
  match (upTo 3).find? (fun d => coordOf p d != coordOf s.ownPos d) with
  | none => .here
  | some dim =>
    match s.torusDir dim (coordOf p dim) with
    | none => .fail E_LINK_UNREACHABLE
    | some dir =>
      let b1 := if lastDim = some dim then b else 0
      let m := (src + dst) % 2
      let up (m : Nat) : Option Nat :=
        match s.torusPort dim dir m with | some i => if s.portUsable i then some i else none | none => none
      match up m with
      | some i => .out i ghops b1
      | none => match up (1 - m) with | some i => .out i ghops b1 | none => .fail E_LINK_DOWN

/-- The next hop of a packet (R503, R609): `b` is its dateline bit and `lastDim` the dimension of its last torus hop, both as it
stands at this device. -/
def State.nextHop (s : State) (src dst ghops b : Nat) (lastDim : Option Nat) : Hop :=
  let h := dst / 64
  let own := s.ownPos
  let within (p : Nat) : Hop :=
    if !s.posNames p ∧ p ≠ own then .fail E_LINK_UNREACHABLE
    else if p = own then .here
    else if s.posAbsent p then
      (if s.isLead then .removed else if own = 0 ∨ s.svc.leadLost then .fail E_LINK_UNREACHABLE else s.torusHop 0 src dst ghops b lastDim)
    else s.torusHop p src dst ghops b lastDim
  if h ≠ s.ownHitch then
    let e := s.groute h
    if !bitAt e 15 then .fail E_LINK_UNREACHABLE
    else if own = bitsOf e 14 9 then
      match s.globalPort (bitsOf e 8 7) with
      | some i => if s.portUsable i then .out i (ghops + 1) 0 else .fail E_LINK_DOWN
      | none => .fail E_LINK_DOWN
    else
      match within (bitsOf e 14 9) with
      | .here => .fail E_LINK_UNREACHABLE
      | x => x
  else within (dst % 64)

/-- The next hop of a RELAY packet: an absent position is routed to as though it were present (R526). -/
def State.relayHop (s : State) (src dst ghops b : Nat) (lastDim : Option Nat) : Hop :=
  if dst / 64 = s.ownHitch ∧ s.posAbsent (dst % 64) then
    ({ s with svc := { s.svc with presence := s.svc.presence ||| 2 ^ (dst % 64) } } : State).nextHop src dst ghops b lastDim
  else s.nextHop src dst ghops b lastDim

/-! ## Transmission (R486 to R489) -/

def T_READ : Nat := 1
def T_READ_DATA : Nat := 2
def T_WRITE : Nat := 3
def T_WRITE_ACK : Nat := 4
def T_TETHER_OP : Nat := 5
def T_TETHER_RSP : Nat := 6
def T_ERROR : Nat := 7
def T_TREE : Nat := 8
def T_TIME : Nat := 9
def T_ENUM : Nat := 10
def T_RELAY : Nat := 11

/-- The class of a packet type (R491): 0 REQ, 1 RSP, 2 TREE, 3 MGMT; none where the type is reserved. -/
def typeClass (t : Nat) : Option Nat :=
  match t with
  | 1 => some 0 | 3 => some 0 | 5 => some 0
  | 2 => some 1 | 4 => some 1 | 6 => some 1 | 7 => some 1
  | 8 => some 2
  | 9 => some 3 | 10 => some 3 | 11 => some 3
  | _ => none

/-- The VC of a packet of a class (R489, R503). -/
def vcOf (cls ghops b : Nat) : Nat := match cls with | 2 => 16 | 3 => 17 | c => 8 * c + 2 * ghops + b

/-- Bytes of a packet on the link (R490). -/
def pktBytes (p : TypedPkt) : Nat := 24 + p.pkt.payload.length

/-- Credits of a VC when they are full, in 16-byte units (R489). -/
def vcFull (vc : Nat) : Nat := if vc < 16 then 256 else 1024

/-- Credits a port holds on a VC. -/
def PortSt.credit (p : PortSt) (vc : Nat) : Nat := smGet vcFull p.credits vc

/-- The bytes of a packet on the link (R490). -/
def TypedPkt.bytes (t : TypedPkt) : List Byte :=
  let p := t.pkt
  leBytes 8 (p.dst.toNat * 2 ^ 48 + p.src.toNat * 2 ^ 32 + t.typ % 16 * 2 ^ 28 + p.vc.toNat * 2 ^ 23 + p.ghops.toNat * 2 ^ 21 + p.len.toNat * 2 ^ 10)
    ++ leBytes 8 (p.corral.toNat * 2 ^ 56 + p.tag.toNat * 2 ^ 40 + p.gen.toNat * 2 ^ 32 + p.srcIndex.toNat * 2 ^ 26 + p.srcRouter.toNat * 2 ^ 16
      + p.code.toNat)
    ++ leBytes 8 p.addr.toNat ++ p.payload

/-- A body of a flit: 244 bytes, those that no packet fills zero (R487). -/
def bodyOf (bs : List Byte) : List Byte := bs.take 244 ++ List.replicate (244 - bs.length) 0

/-- The flits that carry a packet's bytes from `bs` on (R486, R487); `starts` says that the packet's header starts with them. -/
def pktFlits (seq : Nat) (p : TypedPkt) (bs : List Byte) (starts : Bool) : List RetryFlit :=
  let n := cdiv bs.length 244
  (upTo n).map (fun j =>
    { seq := (seq + j) % 4096, body := bodyOf (bs.drop (244 * j)), used := min 244 (bs.length - 244 * j)
      nextPkt := if j = 0 ∧ starts then 0 else 0xFF, pkts := if j + 1 = n then [p] else [], tries := 0 })

/-- Bytes of a packet that the body of the port's last flit takes (R487): the flit has not gone out, and at least 8 bytes are free. -/
def PortSt.roomFor (k : PortSt) (p : TypedPkt) : Nat :=
  match k.retry.getLast? with
  | some f => if k.tx.wait.contains f.seq ∧ f.tries = 0 ∧ f.used + 8 ≤ 244 then min (244 - f.used) (pktBytes p) else 0
  | none => 0

/-- Flits that a packet adds to the retry buffer. -/
def PortSt.newFlits (k : PortSt) (p : TypedPkt) : Nat := cdiv (pktBytes p - k.roomFor p) 244

/-- A flit that goes on with the first `n` bytes of a packet (R486, R487). -/
def RetryFlit.goOn (f : RetryFlit) (p : TypedPkt) (n : Nat) : RetryFlit :=
  { f with body := bodyOf (f.body.take f.used ++ p.bytes.take n), used := f.used + n
           nextPkt := if f.nextPkt = 0xFF then f.used else f.nextPkt, pkts := if n = pktBytes p then f.pkts ++ [p] else f.pkts }

/-- The retry buffer with a packet added: packets follow each other in the bodies back to back (R487). -/
def PortSt.packed (k : PortSt) (p : TypedPkt) : List RetryFlit :=
  let n := k.roomFor p
  let old := match k.retry.getLast? with
    | some f => if n = 0 then k.retry else k.retry.dropLast ++ [f.goOn p n]
    | none => []
  old ++ pktFlits k.txSeq p (p.bytes.drop n) (n == 0)

/-- What held a packet in a port's receive buffer has accepted its bytes: their credits go back to the peer (R489). -/
def State.accepted (s : State) (p : TypedPkt) : State :=
  match p.via with
  | none => s
  | some (i, vc) =>
    s.setPort i { s.port i with
      owed := smSet (fun _ => 0) (s.port i).owed vc (smGet (fun _ => 0) (s.port i).owed vc + cdiv (pktBytes p) 16) }

/-- Start one waiting packet (R487 to R489): it spends its credits, its bytes enter the retry buffer's flits, of which new ones take the
next SEQ values, and they leave the buffer that they came from. -/
def State.startPkt (s0 : State) (i : Nat) (p : TypedPkt) : State :=
  let s := s0.accepted p
  let k := s.port i
  let n := k.newFlits p
  let vc := p.pkt.vc.toNat
  let s1 := s.setPort i { k with
    txSeq := (k.txSeq + n) % 4096, retry := k.packed { p with via := none }, ackAt := if k.retry.isEmpty then s.time else k.ackAt
    tx := { k.tx with wait := k.tx.wait ++ (upTo n).map (fun j => (k.txSeq + j) % 4096) }
    credits := smSet vcFull k.credits vc (k.credit vc - cdiv (pktBytes p) 16) }
  { s1 with sent := .rein i p.typ p.pkt :: s1.sent }.bump .RNL_CNT i 0 n

/-- Send every waiting packet of a port that may start, in order within each VC (R488, R489). -/
def State.pumpPort (s : State) (i : Nat) : List Nat → List TypedPkt → State
  | _, [] => s
  | blocked, p :: t =>
    let k := s.port i
    let vc := p.pkt.vc.toNat
    if s.portState i = 5 ∧ !blocked.contains vc ∧ k.retry.length + k.newFlits p ≤ 512
        ∧ cdiv (pktBytes p) 16 ≤ k.credit vc then
      ((s.setPort i { k with txq := k.txq.erase p }).startPkt i p).pumpPort i blocked t
    else s.pumpPort i (vc :: blocked) t

/-- Hand a packet to a port's transmit queues. -/
def State.queuePkt (s : State) (i : Nat) (p : TypedPkt) : State :=
  let k := s.port i
  let s1 := s.setPort i { k with txq := k.txq ++ [p] }
  s1.pumpPort i [] (s1.port i).txq

/-- A packet of a type with its addresses, before it has a route. -/
def mkPkt (dst src corral tag gen code : Nat) (addr : Word) (len : Nat) (payload : List Byte) : ReinPkt :=
  { dst := BitVec.ofNat 16 dst, src := BitVec.ofNat 16 src, vc := 0, ghops := 0, len := BitVec.ofNat 11 len,
    corral := BitVec.ofNat 8 corral, tag := BitVec.ofNat 16 tag, gen := BitVec.ofNat 8 gen, srcIndex := 0, srcRouter := 0,
    code := BitVec.ofNat 16 code, addr := addr, payload := payload }

/-- Send a packet that this device originates (R503): none, or the code with which it fails at its source. -/
def State.sendPkt (s : State) (typ : Nat) (p : ReinPkt) : State × Option Nat :=
  match typeClass typ with
  | none => (s, none)
  | some cls =>
    match s.nextHop p.src.toNat p.dst.toNat 0 0 none with
    | .out i g b =>
      (s.queuePkt i { typ := typ, pkt := { p with ghops := BitVec.ofNat 2 g, vc := BitVec.ofNat 5 (vcOf cls g b) } }, none)
    | .fail code => (s, some code)
    | .removed => (s, some E_DEVICE_REMOVED)
    | .here => (s, some E_LINK_UNREACHABLE)

/-! ## Trackers (R439, R440) -/

/-- The request a tag stands for. -/
def State.tracked (s : State) (die tag : Nat) : Option TrackedReq := smGet (fun _ => none) s.noc.reqs (die * 65536 + tag)

/-- The generation of a tag. -/
def State.tagGen (s : State) (die tag : Nat) : Nat := smGet (fun _ => 0) s.noc.gens (die * 65536 + tag)

/-- A tag of a die is in no use. -/
def State.tagFree (s : State) (die tag : Nat) : Bool :=
  (s.tracked die tag).isNone && (smGet (fun _ => none) s.noc.held (die * 65536 + tag)).isNone

/-- The lowest free tag of a die at or above `t`. -/
def State.lowTag (s : State) (die : Nat) : Nat → Nat → Nat
  | 0, t => t
  | n + 1, t => if s.tagFree die t then t else s.lowTag die n (t + 1)

/-- Track a request (R439). -/
def State.track (s : State) (die : Nat) (mk : Nat → TrackedReq) : State × Nat × Nat :=
  let tag := s.lowTag die (s.noc.reqs.length + s.noc.held.length) 0
  let gen := s.tagGen die tag
  ({ s with noc := { s.noc with reqs := smSet (fun _ => none) s.noc.reqs (die * 65536 + tag) (some (mk gen)) } }, tag, gen)

/-- Release a tag. -/
def State.untrack (s : State) (die tag : Nat) : State :=
  { s with noc := { s.noc with reqs := smSet (fun _ => none) s.noc.reqs (die * 65536 + tag) none } }

/-- The deadline interval of a request, ns (R439, R443). -/
def State.nocTimeout (s : State) (die : Nat) (remote : Bool) : Nat :=
  (if remote then s.fld .NOC_TIMEOUT die 0 51 32 else s.fld .NOC_TIMEOUT die 0 19 0) * 1000

/-- Issue one request of a command to another device: the request is tracked and its packet sent; the code of a failure at the
source (R439, R491, R503). -/
def State.request (s : State) (c : Cmd) (ctx typ dev recv addr len dest : Nat) (data : List Byte) : State × Option Nat :=
  let die := ctx / 32768
  let lim := s.nocTimeout die true
  let t := s.track die (fun g =>
    { gen := g, deadline := s.time + lim, timeout := lim, queue := c.queue, seq := c.seq, corral := c.corral, remote := some dev,
      kind := typ, addr := addr, len := len, dest := dest, ctx := ctx, recv := recv })
  let p := mkPkt dev s.devId c.corral t.2.1 t.2.2 0 (BitVec.ofNat 64 addr) len data
  -- the die that tracks the request is where its response returns: SRC_ROUTER lies on it (R490)
  let r := t.1.sendPkt typ { p with srcRouter := BitVec.ofNat 10 (384 * (die / 2) + 16 * (die % 2)) }
  match r.2 with
  | none => (r.1, none)
  | some e => (r.1.untrack die t.2.1, some e)

/-- Requests a stream has outstanding at other devices (R439). -/
def State.outstanding (s : State) (q seq ctx : Nat) (kind : Nat) : List TrackedReq :=
  s.noc.reqs.filterMap (fun e => match e.2 with
    | some r => if r.queue = q ∧ r.seq = seq ∧ r.ctx = ctx ∧ r.kind = kind ∧ r.remote.isSome then some r else none
    | none => none)

/-- Tags a die has free (R21, R282). -/
def State.freeTags (s : State) (die : Nat) : Nat :=
  65536 - ((s.noc.reqs.filter (fun e => e.1 / 65536 == die)).length + (s.noc.held.filter (fun e => e.1 / 65536 == die)).length)

end Sys2Proof.Machine
end

