-- ==== Sys2Proof/Machine/Vector.lean ====
section
/-!
DEFINITION. What each vector instruction does to its bank and to its stall's memory (chapter 07): the effects of R223, the
numerics of R225 to R229, predication (R221) and the confinement of accesses to windows (R235).
-/

namespace Sys2Proof.Machine

/-- What an instruction does: the bank after it, bytes stored at stall-memory offsets in order, elements computed and
converted (R253), the error that fails the command (0 for none), a taken branch's target, and whether it is HALT. -/
structure VOut where
  bank : BankSt
  writes : List (Nat × List Byte)
  lanes : Nat
  converts : Nat
  fail : Nat
  jump : Option Nat
  halt : Bool
  deriving DecidableEq, Repr

/-- Registers changed and nothing else. -/
def VOut.regs (b : BankSt) : VOut :=
  { bank := b, writes := [], lanes := 0, converts := 0, fail := 0, jump := none, halt := false }

/-- The command fails (R235). -/
def VOut.failed (b : BankSt) (code : Nat) : VOut :=
  { bank := b, writes := [], lanes := 0, converts := 0, fail := code, jump := none, halt := false }

/-- The effect of an instruction on a bank, given what stall memory holds. -/
abbrev VEff := VIns → (Nat → Byte) → BankSt → VOut

/-- IMM sign-extended to 64 bits (R222). -/
def sextImm (i : VIns) : Word := i.imm.signExtend 64

/-- S[A]. -/
def srcA (i : VIns) (b : BankSt) : Word := b.sreg i.a.toNat

/-- S[B]. -/
def srcB (i : VIns) (b : BankSt) : Word := b.sreg i.b.toNat

/-- A scalar result into S[D]. -/
def toSD (i : VIns) (b : BankSt) (v : Word) : VOut := VOut.regs (b.setS i.d.toNat v)

/-- Element `l` of a register at width `w` (R219). -/
def elemAt (v : BitVec 1024) (w l : Nat) : Nat := v.toNat / 2 ^ (w * l) % 2 ^ w

/-- The register whose element `l` at width `w` is `f l` (R219). -/
def vecBuild (w : Nat) (f : Nat → Nat) : BitVec 1024 :=
  BitVec.ofNat 1024 ((upTo (1024 / w)).foldl (fun acc l => acc + f l % 2 ^ w * 2 ^ (w * l)) 0)

/-- The lane is active (R221). -/
def laneOn (m : BitVec 128) (l : Nat) : Bool := m.getLsbD l

/-- The number of active lanes below `n`. -/
def lanesOn (m : BitVec 128) (n : Nat) : Nat := ((upTo n).filter (fun l => laneOn m l)).length

/-- One element's result and what it counts (R77): an invalid operation's cause, an overflow, an invalid conversion. -/
structure LaneRes where
  bits : Nat
  cause : Option Nat
  ovf : Bool
  badCvt : Bool
  deriving DecidableEq, Repr

/-- A result that counts nothing. -/
def LaneRes.of (n : Nat) : LaneRes := { bits := n, cause := none, ovf := false, badCvt := false }

/-- An invalid operation at a logical index (R77, R78, R81). -/
def VecCounts.bad (c : VecCounts) (cause idx : Nat) : VecCounts :=
  { c with
    invalid := c.invalid + 1
    zinf := c.zinf + b2n (cause == 1)
    illegal := c.illegal + 1
    first := some (match c.first with | none => idx | some k => min k idx) }

/-- Count one element (R77). -/
def VecCounts.lane (c : VecCounts) (idx : Nat) (r : LaneRes) : VecCounts :=
  let c1 := match r.cause with | none => c | some k => c.bad k idx
  { c1 with invalid := c1.invalid + b2n r.badCvt, overflow := c1.overflow + b2n r.ovf }

/-- The logical element index of lane `l`: S31 + l (R225). -/
def logicalIdx (b : BankSt) (l : Nat) : Nat := ((b.sreg 31).toNat + l) % 2 ^ 64

/-- An element-wise instruction of `n` lanes into V[D] from element `off` on: active lanes take `f l`, all others keep their
elements (R221). -/
def laneOp (i : VIns) (b : BankSt) (w n off : Nat) (f : Nat → LaneRes) : VOut :=
  let m := b.mreg i.msk.toNat
  let old := b.vreg i.d.toNat
  let res := (upTo n).map (fun l => (l, if laneOn m l then some (f l) else none))
  let at_ (e : Nat) : Nat :=
    if off ≤ e ∧ e < off + n then
      match (res.getD (e - off) (0, none)).2 with
      | some r => r.bits
      | none => elemAt old w e
    else elemAt old w e
  let counts := res.foldl (fun c p => match p.2 with | some r => c.lane (logicalIdx b p.1) r | none => c) b.counts
  { bank := { b.setV i.d.toNat (vecBuild w at_) with counts := counts }, writes := [], lanes := lanesOn m n, converts := 0,
    fail := 0, jump := none, halt := false }

/-- A two-operand element-wise instruction over whole registers. -/
def laneOp2 (i : VIns) (b : BankSt) (f : Nat → Nat → Nat → LaneRes) : VOut :=
  let w := elemWidth (fmtOfCode i.fd.toNat)
  let x := b.vreg i.a.toNat
  let y := b.vreg i.b.toNat
  laneOp i b w (1024 / w) 0 (fun l => f l (elemAt x w l) (elemAt y w l))

/-- A result rounded once with RNE, never flushed (R225). -/
def laneRound (f : Fmt) (newNan finOps : Bool) (v : Num) : LaneRes :=
  let r := roundFp f false newNan finOps v
  { bits := r.bits, cause := r.inv, ovf := r.ovf, badCvt := false }

/-- An integer result wrapped to the width (R225). -/
def laneInt (f : Fmt) (v : Int) : LaneRes := LaneRes.of (wrapInt (fmtBits f) v)

/-- The integer an element holds in a signedness. -/
def elemInt (f : Fmt) (sgn : Bool) (n : Nat) : Int := if sgn then signedOf (fmtBits f) n else (n % 2 ^ fmtBits f : Nat)

/-- Add, subtract or multiply two elements (R225). -/
def vecArithOp (f : Fmt) (sgn : Bool) (num : Num → Num → Num) (int : Int → Int → Int) (x y : Nat) : LaneRes :=
  if fmtIsInt f then laneInt f (int (elemInt f sgn x) (elemInt f sgn y))
  else
    let a := numOperand f false x
    let c := numOperand f false y
    laneRound f (!numIsNan a && !numIsNan c) (numIsFin a && numIsFin c) (num a c)

/-- VMIN and VMAX (R61): a NaN operand makes a NaN of cause 0x03, ties go to the first operand. -/
def vecMinMax (f : Fmt) (sgn isMax : Bool) (x y : Nat) : LaneRes :=
  let a := numOperand f sgn x
  let c := numOperand f sgn y
  if numIsNan a || numIsNan c then LaneRes.of (nanBits f 3)
  else LaneRes.of (if (if isMax then numLtTotal a c else numLtTotal c a) then y else x)

/-- The sign bit of a floating-point element. -/
def signMask (f : Fmt) : Nat := 2 ^ (fmtBits f - 1)

/-- VABS and VNEG: exact, sign-only for NaNs; integers wrap (R223, R225). -/
def vecAbs (f : Fmt) (sgn : Bool) (x : Nat) : LaneRes :=
  if fmtIsInt f then laneInt f (if elemInt f sgn x < 0 then -(elemInt f sgn x) else elemInt f sgn x)
  else LaneRes.of (x % signMask f)

/-- VNEG. -/
def vecNeg (f : Fmt) (sgn : Bool) (x : Nat) : LaneRes :=
  if fmtIsInt f then laneInt f (-(elemInt f sgn x)) else LaneRes.of (Nat.xor x (signMask f))

/-- Division (R72, R75, R225). -/
def vecDiv (f : Fmt) (x y : Nat) : LaneRes :=
  let a := numOperand f false x
  let c := numOperand f false y
  let newNan := !numIsNan a && !numIsNan c
  match a, c with
  | .nan p, .nan q => laneRound f false false (.nan (min p q))
  | .nan p, _ => laneRound f false false (.nan p)
  | _, .nan q => laneRound f false false (.nan q)
  | .inf _, .inf _ => laneRound f newNan false (.nan 7)
  | .inf n, .fin m _ _ => laneRound f newNan false (.inf (n != m))
  | .fin n _ _, .inf m => laneRound f newNan false (.fin (n != m) 0 0)
  | .fin n k e, .fin m j d =>
    if j = 0 then (if k = 0 then laneRound f newNan false (.nan 7) else laneRound f newNan false (.inf (n != m)))
    else laneRound f newNan true (exactQuot n k e m j d)

/-- Square root (R72): below −0 it is an invalid operation, of −0 it is −0. -/
def vecSqrt (f : Fmt) (x : Nat) : LaneRes :=
  match numOperand f false x with
  | .nan c => laneRound f false false (.nan c)
  | .inf n => if n then laneRound f true false (.nan 8) else laneRound f false false (.inf false)
  | .fin n m e =>
    if m = 0 then laneRound f false true (.fin n 0 0)
    else if n then laneRound f true false (.nan 8)
    else laneRound f false true (exactSqrt m e)

/-- VMADD (R38): the product rounded, then the sum rounded; the product keeps its cause code, V[D] is an operand (R73). -/
def vecMadd (f : Fmt) (sgn : Bool) (acc x y : Nat) : LaneRes × LaneRes :=
  let p := vecArithOp f sgn numMul (· * ·) x y
  if fmtIsInt f then (p, laneInt f (elemInt f sgn acc + elemInt f sgn p.bits))
  else
    let a := numOperand f false acc
    let c := numEntry f false p.bits
    (p, laneRound f (!numIsNan a && !numIsNan c) (numIsFin a && numIsFin c) (numAdd 2 a c))

/-- One scalar operation of R223, on 64-bit integers. -/
def scalarOp (op : Nat) (x y : Word) : Word :=
  match op with
  | 0x03 => x + y
  | 0x04 => x - y
  | 0x05 => x * y
  | 0x06 => x &&& y
  | 0x07 => x ||| y
  | 0x08 => x ^^^ y
  | 0x09 => x <<< (y.toNat % 64)
  | 0x0A => x >>> (y.toNat % 64)
  | _ => x.sshiftRight (y.toNat % 64)

/-- SLI: S[D] = sext(IMM). -/
def effSli : VEff := fun i _ b => toSD i b (sextImm i)

/-- SLIH: S[D] = (S[A] << 26) OR IMM. -/
def effSlih : VEff := fun i _ b => toSD i b ((srcA i b <<< 26) ||| i.imm.setWidth 64)

/-- SADD to SSRA: S[D] = S[A] op S[B]. -/
def effScalar (op : Nat) : VEff := fun i _ b => toSD i b (scalarOp op (srcA i b) (srcB i b))

/-- SADDI: S[D] = S[A] + sext(IMM). -/
def effSaddi : VEff := fun i _ b => toSD i b (srcA i b + sextImm i)

/-- Is an access of `n` bytes at `a`, aligned to `al`, inside one of the command's windows, writable when it writes (R235)? -/
def windowOk (b : BankSt) (a n al : Nat) (write : Bool) : Bool :=
  decide (a % al = 0) && b.windows.any (fun w => decide (w.1 ≤ a ∧ a + n ≤ w.1 + w.2.1) && (w.2.2 || !write))

/-- The address S[A] + sext(IMM). -/
def immAddr (i : VIns) (b : BankSt) : Nat := (srcA i b + sextImm i).toNat

/-- Bytes `a` to `a + n − 1` of stall memory. -/
def bytesAt (m : Nat → Byte) (a n : Nat) : List Byte := (upTo n).map (fun k => m (a + k))

/-- SLD: 8 bytes, 8-byte aligned. -/
def effSld : VEff := fun i m b =>
  let a := immAddr i b
  if windowOk b a 8 8 false then toSD i b (BitVec.ofNat 64 (leNat (bytesAt m a 8))) else VOut.failed b E_VEC_WINDOW

/-- SST: 8 bytes = S[B]. -/
def effSst : VEff := fun i _ b =>
  let a := immAddr i b
  if windowOk b a 8 8 true then { VOut.regs b with writes := [(a, leBytes 8 (srcB i b).toNat)] } else VOut.failed b E_VEC_WINDOW

/-- A branch: PC = IMM when its condition holds. -/
def effBranch (c : Word → Word → Bool) : VEff := fun i _ b =>
  { VOut.regs b with jump := if c (srcA i b) (srcB i b) then some i.imm.toNat else none }

/-- JMP: PC = IMM. -/
def effJmp : VEff := fun i _ b => { VOut.regs b with jump := some i.imm.toNat }

/-- HALT. -/
def effHalt : VEff := fun _ _ b => { VOut.regs b with halt := true }

/-- Bytes that a VLD reads or a VST writes under a packing code, and the bits of one element there (R52, R223). -/
def packBits (c : Nat) : Nat := if c = 7 ∨ c = 8 then 6 else if c = 9 ∨ c = 14 then 4 else 8

/-- VLD: 128 elements of 8, 6 or 4 bits into byte lanes (R221, R223). -/
def effVld : VEff := fun i m b =>
  let a := immAddr i b
  let pb := packBits i.fs.toNat
  if windowOk b a (16 * pb) 64 false then
    let raw := leNat (bytesAt m a (16 * pb))
    { laneOp i b 8 128 0 (fun l => LaneRes.of (raw / 2 ^ (pb * l) % 2 ^ pb)) with lanes := 0 }
  else VOut.failed b E_VEC_WINDOW

/-- VST: the inverse of VLD; an inactive lane leaves its bits in stall memory (R221, R223). -/
def effVst : VEff := fun i m b =>
  let a := immAddr i b
  let pb := packBits i.fd.toNat
  if windowOk b a (16 * pb) 64 true then
    let raw := leNat (bytesAt m a (16 * pb))
    let mask := b.mreg i.msk.toNat
    let v := b.vreg i.d.toNat
    let new := (upTo 128).foldl (fun acc l =>
      acc + (if laneOn mask l then elemAt v 8 l % 2 ^ pb else raw / 2 ^ (pb * l) % 2 ^ pb) * 2 ^ (pb * l)) 0
    { VOut.regs b with writes := [(a, leBytes (16 * pb) new)] }
  else VOut.failed b E_VEC_WINDOW

/-- The group of an index-driven access: 32 elements, or 16 for a 64-bit FD (R229). -/
def idxGroup (w : Nat) : Nat := if w = 64 then 16 else 32

/-- The first element of the data register that the group covers (R229). -/
def idxPart (i : VIns) (w : Nat) : Nat := if w = 16 then 32 * (i.imm.toNat % 2) else 0

/-- The stall-memory offset lane `l` of an index-driven access names (R229). -/
def idxAddr (i : VIns) (b : BankSt) (w l : Nat) : Nat :=
  ((srcA i b).toNat + elemAt (b.vreg i.b.toNat) 32 l * (w / 8)) % 2 ^ 64

/-- S[A] is aligned and every active lane lies in a window (R229, R235). -/
def idxOk (i : VIns) (b : BankSt) (w : Nat) (write : Bool) : Bool :=
  let m := b.mreg i.msk.toNat
  decide ((srcA i b).toNat % (w / 8) = 0) &&
    (upTo (idxGroup w)).all (fun l => !laneOn m l || windowOk b (idxAddr i b w l) (w / 8) (w / 8) write)

/-- VLDX: gather within stall memory (R229). -/
def effVldx : VEff := fun i m b =>
  let w := elemWidth (fmtOfCode i.fd.toNat)
  if idxOk i b w false then
    { laneOp i b w (idxGroup w) (idxPart i w) (fun l => LaneRes.of (leNat (bytesAt m (idxAddr i b w l) (w / 8)))) with lanes := 0 }
  else VOut.failed b E_VEC_WINDOW

/-- VSTX: scatter within stall memory; stores in increasing lane, so the highest lane wins (R229). -/
def effVstx : VEff := fun i _ b =>
  let w := elemWidth (fmtOfCode i.fd.toNat)
  let mask := b.mreg i.msk.toNat
  let v := b.vreg i.d.toNat
  if idxOk i b w true then
    { VOut.regs b with
      writes := ((upTo (idxGroup w)).filter (fun l => laneOn mask l)).map
        (fun l => (idxAddr i b w l, leBytes (w / 8) (elemAt v w (idxPart i w + l)))) }
  else VOut.failed b E_VEC_WINDOW

/-- VADD, VSUB and VMUL (R225). -/
def effArith (num : Num → Num → Num) (int : Int → Int → Int) : VEff := fun i _ b =>
  laneOp2 i b (fun _ x y => vecArithOp (fmtOfCode i.fd.toNat) i.ss num int x y)

/-- VMADD: counts of both operations (R38, R77). -/
def effVmadd : VEff := fun i _ b =>
  let f := fmtOfCode i.fd.toNat
  let w := elemWidth f
  let x := b.vreg i.a.toNat
  let y := b.vreg i.b.toNat
  let z := b.vreg i.d.toNat
  let m := b.mreg i.msk.toNat
  let o := laneOp i b w (1024 / w) 0 (fun l => (vecMadd f i.ss (elemAt z w l) (elemAt x w l) (elemAt y w l)).2)
  let cnt := (upTo (1024 / w)).foldl (fun (c : VecCounts) l =>
    if laneOn m l then c.lane (logicalIdx b l) (vecMadd f i.ss (elemAt z w l) (elemAt x w l) (elemAt y w l)).1 else c) o.bank.counts
  { o with bank := { o.bank with counts := cnt } }

/-- VMIN and VMAX. -/
def effMinMax (isMax : Bool) : VEff := fun i _ b =>
  laneOp2 i b (fun _ x y => vecMinMax (fmtOfCode i.fd.toNat) i.ss isMax x y)

/-- VABS. -/
def effVabs : VEff := fun i _ b => laneOp2 i b (fun _ x _ => vecAbs (fmtOfCode i.fd.toNat) i.ss x)

/-- VNEG. -/
def effVneg : VEff := fun i _ b => laneOp2 i b (fun _ x _ => vecNeg (fmtOfCode i.fd.toNat) i.ss x)

/-- VDIV. -/
def effVdiv : VEff := fun i _ b => laneOp2 i b (fun _ x y => vecDiv (fmtOfCode i.fd.toNat) x y)

/-- VSQRT. -/
def effVsqrt : VEff := fun i _ b => laneOp2 i b (fun _ x _ => vecSqrt (fmtOfCode i.fd.toNat) x)

/-- One part of a complex product with every count it makes (R225): the two products exact, one rounding. -/
def cmulPart (f : Fmt) (p q s t : Nat) (sub : Bool) : LaneRes × List Nat :=
  let a := numOperand f false p
  let c := numOperand f false q
  let d := numOperand f false s
  let e := numOperand f false t
  let x := numMul a c
  let y := numMul d e
  let z := numAdd 2 x (if sub then numNeg y else y)
  let fin := numIsFin a && numIsFin c && numIsFin d && numIsFin e
  let bad := (if numIsNan x && !numIsNan a && !numIsNan c then [1] else [])
    ++ (if numIsNan y && !numIsNan d && !numIsNan e then [1] else [])
    ++ (if numIsNan z && !numIsNan x && !numIsNan y then [2] else [])
  let r := laneRound f false fin z
  (r, bad)

/-- CMUL: complex multiply, one rounding per part (R225). -/
def effCmul : VEff := fun i _ b =>
  let f := fmtOfCode i.fd.toNat
  let w := elemWidth f
  let x := b.vreg i.a.toNat
  let y := b.vreg i.b.toNat
  let m := b.mreg i.msk.toNat
  let part (l : Nat) : LaneRes × List Nat :=
    let c := l / 2
    let ar := elemAt x w (2 * c)
    let ai := elemAt x w (2 * c + 1)
    let br := elemAt y w (2 * c)
    let bi := elemAt y w (2 * c + 1)
    if l % 2 = 0 then cmulPart f ar br ai bi true else cmulPart f ar bi ai br false
  let o := laneOp i b w (1024 / w) 0 (fun l => (part l).1)
  let cnt := (upTo (1024 / w)).foldl (fun (c : VecCounts) l =>
    if laneOn m l then (part l).2.foldl (fun c k => c.bad k (logicalIdx b l)) c else c) o.bank.counts
  { o with bank := { o.bank with counts := cnt } }

/-- VCMP: bit l of MK[D] for active lanes below the lane count; higher bits zero (R101, R221). -/
def effVcmp : VEff := fun i _ b =>
  let f := fmtOfCode i.fs.toNat
  let w := elemWidth f
  let n := 1024 / w
  let x := b.vreg i.a.toNat
  let y := b.vreg i.b.toNat
  let m := b.mreg i.msk.toNat
  let old := b.mreg (i.d.toNat % 8)
  let bitv (l : Nat) : Bool :=
    if laneOn m l then predNum (i.imm.toNat % 8) (numOperand f i.ss (elemAt x w l)) (numOperand f i.ss (elemAt y w l))
    else laneOn old l
  let new := BitVec.ofNat 128 ((upTo n).foldl (fun acc l => acc + b2n (bitv l) * 2 ^ l) 0)
  { VOut.regs (b.setM (i.d.toNat % 8) new) with lanes := lanesOn m n }

/-- VSEL: reads MK as data (R221, R223). -/
def effVsel : VEff := fun i _ b =>
  let w := elemWidth (fmtOfCode i.fd.toNat)
  let m := b.mreg i.msk.toNat
  let x := b.vreg i.a.toNat
  let y := b.vreg i.b.toNat
  { VOut.regs (b.setV i.d.toNat (vecBuild w (fun l => if laneOn m l then elemAt x w l else elemAt y w l))) with lanes := 1024 / w }

/-- VAND to VSHR: bitwise on elements; shifts by V[B] mod width (R223). -/
def effBits (op : Nat → Nat → Nat → Nat) : VEff := fun i _ b =>
  let w := elemWidth (fmtOfCode i.fd.toNat)
  laneOp2 i b (fun _ x y => LaneRes.of (op w x y % 2 ^ w))

/-- VPOPC. -/
def effVpopc : VEff := fun i _ b =>
  let w := elemWidth (fmtOfCode i.fd.toNat)
  laneOp2 i b (fun _ x _ => LaneRes.of (popcount w x))

/-- VIOTA: S[A] + l. -/
def effViota : VEff := fun i _ b =>
  let w := elemWidth (fmtOfCode i.fd.toNat)
  laneOp i b w (1024 / w) 0 (fun l => LaneRes.of (((srcA i b).toNat + l) % 2 ^ w))

/-- VBCAST: the low bits of S[A]. -/
def effVbcast : VEff := fun i _ b =>
  let w := elemWidth (fmtOfCode i.fd.toNat)
  laneOp i b w (1024 / w) 0 (fun _ => LaneRes.of ((srcA i b).toNat % 2 ^ w))

/-- One conversion (R65 to R68): a NaN source carries cause 0x03. -/
def cvtElem (fd fs : Fmt) (sd ss : Bool) (rd : Rounding) (x : Nat) : LaneRes :=
  let v := match numOperand fs ss x with | .nan _ => Num.nan 3 | u => u
  let r := convert fd sd rd v
  { bits := r.bits, cause := none, ovf := r.ovf, badCvt := r.inv }

/-- VCVT: the group of the wider format, part IMM[2:0] of the narrower register (R226). -/
def effVcvt : VEff := fun i _ b =>
  let fd := fmtOfCode i.fd.toNat
  let fs := fmtOfCode i.fs.toNat
  let wd := elemWidth fd
  let ws := elemWidth fs
  let n := 1024 / max wd ws
  let p := i.imm.toNat % 8
  let so := if ws < wd then p * n else 0
  let doff := if wd < ws then p * n else 0
  let x := b.vreg i.a.toNat
  let o := laneOp i b wd n doff (fun l =>
    cvtElem fd fs i.sd i.ss (roundingOf i.rnd.toNat b.seed (logicalIdx b l)) (elemAt x ws (so + l) % 2 ^ fmtBits fs))
  { o with converts := o.lanes }

/-- VCVTMX: blocks of 32 elements; active elements only; scales into S[B] (R55, R221, R227). -/
def effVcvtmx : VEff := fun i _ b =>
  let fd := fmtOfCode i.fd.toNat
  let fs := fmtOfCode i.fs.toNat
  let w := elemWidth fs
  let nb := if w = 32 then 1 else 2
  let part := i.imm.toNat % (if w = 32 then 4 else 2)
  let base := 32 * nb * part
  let m := b.mreg i.msk.toNat
  let x := b.vreg i.a.toNat
  let old := b.vreg i.d.toNat
  let blocks := (upTo nb).map (fun q =>
    let act := ((upTo 32).map (fun k => 32 * q + k)).filter (fun l => laneOn m l)
    let mx := if act.isEmpty then { scale := 0x7F, elems := [], ovf := 0 }
      else mxConvert fd (act.map (fun l =>
        (roundingOf i.rnd.toNat b.seed (logicalIdx b l), numOperand fs false (elemAt x w l))))
    (act, mx))
  let elems : List (Nat × Nat) := blocks.flatMap (fun p => p.1.zip p.2.elems)
  let new := vecBuild 8 (fun e => ((elems.find? (fun p => base + p.1 == e)).map (·.2)).getD (elemAt old 8 e))
  let scales := (upTo nb).foldl (fun acc q => acc + ((blocks.map (fun p => p.2.scale)).getD q 0) * 2 ^ (8 * q)) 0
  let ovf := blocks.foldl (fun acc p => acc + p.2.ovf) 0
  let b1 := (b.setV i.d.toNat new).setS i.b.toNat (BitVec.ofNat 64 scales)
  { VOut.regs { b1 with counts := { b1.counts with overflow := b1.counts.overflow + ovf } } with
    lanes := elems.length, converts := elems.length }

/-- The identity of a vector reduction: 0 add, 1 minimum, 2 maximum (R59, R228). -/
def vecIdentity (kind : Nat) (f : Fmt) (sgn : Bool) : Nat :=
  match fpShape f with
  | some sh =>
    match kind with
    | 0 => signMask f
    | 1 => infBits sh false
    | _ => infBits sh true
  | none =>
    let n := fmtBits f
    match kind with
    | 0 => 0
    | 1 => if sgn then 2 ^ (n - 1) - 1 else 2 ^ n - 1
    | _ => if sgn then 2 ^ (n - 1) else 0

/-- A node of a vector reduction: its pattern, the winning lane, its first lane, and the invalid operations and overflows
made below it. -/
structure RedNode where
  bits : Nat
  lane : Nat
  first : Nat
  bad : List (Nat × Nat)
  ovf : Nat
  deriving DecidableEq, Repr

/-- Combine two nodes of the fixed tree (R104, R141, R228); NaNs inside the tree keep their causes (R73). -/
def redNode (kind : Nat) (f : Fmt) (sgn : Bool) (x y : RedNode) : RedNode :=
  let keep (r : Nat) (lane : Nat) (bad : List (Nat × Nat)) (o : Nat) : RedNode :=
    { bits := r, lane := lane, first := x.first, bad := x.bad ++ y.bad ++ bad, ovf := x.ovf + y.ovf + o }
  match kind with
  | 0 =>
    if fmtIsInt f then keep (wrapInt (fmtBits f) (elemInt f sgn x.bits + elemInt f sgn y.bits)) 0 [] 0
    else
      let a := numEntry f false x.bits
      let c := numEntry f false y.bits
      let r := laneRound f (!numIsNan a && !numIsNan c) (numIsFin a && numIsFin c) (numAdd 2 a c)
      keep r.bits 0 (match r.cause with | some k => [(k, x.first)] | none => []) (b2n r.ovf)
  | _ =>
    let isMax := kind == 2
    let a := numEntry f sgn x.bits
    let c := numEntry f sgn y.bits
    match a, c with
    | .nan p, .nan q => keep (nanBits f (min p q)) (min x.lane y.lane) [] 0
    | .nan p, _ => keep (nanBits f p) (min x.lane y.lane) [] 0
    | _, .nan q => keep (nanBits f q) (min x.lane y.lane) [] 0
    | _, _ =>
      let yWins := if isMax then numLtTotal a c else numLtTotal c a
      let xWins := if isMax then numLtTotal c a else numLtTotal a c
      if yWins then keep y.bits y.lane [] 0
      else if xWins then keep x.bits x.lane [] 0
      else keep x.bits (min x.lane y.lane) [] 0

/-- VREDADD, VREDMIN and VREDMAX (R228). -/
def effRed (kind : Nat) : VEff := fun i _ b =>
  let f := fmtOfCode i.fd.toNat
  let w := elemWidth f
  let n := 1024 / w
  let m := b.mreg i.msk.toNat
  let x := b.vreg i.a.toNat
  let leaf (l : Nat) : RedNode :=
    if laneOn m l then
      let e := elemAt x w l
      let e' := if !fmtIsInt f && numIsNan (numOperand f false e) then nanBits f 3 else e
      { bits := e', lane := l, first := l, bad := [], ovf := 0 }
    else { bits := vecIdentity kind f i.ss, lane := 0xFFFFFFFF, first := l, bad := [], ovf := 0 }
  match fixedTree (redNode kind f i.ss) ((upTo n).map leaf) with
  | none => VOut.regs b
  | some r =>
    let lane := if r.bits % 2 ^ w = vecIdentity kind f i.ss then 0xFFFFFFFF else r.lane
    let laneBits := if kind ≠ 0 ∧ i.imm.toNat % 2 = 1 then lane * 2 ^ (if w = 64 then 64 else 32) else 0
    let cnt := r.bad.foldl (fun (c : VecCounts) p => c.bad p.1 (logicalIdx b p.2)) b.counts
    { VOut.regs { b.setV i.d.toNat (BitVec.ofNat 1024 (r.bits % 2 ^ w + laneBits)) with
        counts := { cnt with overflow := cnt.overflow + r.ovf } } with lanes := lanesOn m n }

/-- VCOMPRESS: masked elements to the low end, the count to S[B] (R229). -/
def effVcompress : VEff := fun i _ b =>
  let w := elemWidth (fmtOfCode i.fd.toNat)
  let m := b.mreg i.msk.toNat
  let x := b.vreg i.a.toNat
  let es := ((upTo (1024 / w)).filter (fun l => laneOn m l)).map (fun l => elemAt x w l)
  { VOut.regs ((b.setV i.d.toNat (vecBuild w (fun l => es.getD l 0))).setS i.b.toNat (BitVec.ofNat 64 es.length)) with
    lanes := es.length }

/-! ## Expert dispatch (R214 to R216, R241, R242) -/

/-- The dispatch block (R241). -/
structure DispBlock where
  scores : Nat
  out : Nat
  bf16 : Bool
  k : Nat
  e : Nat
  t : Nat
  cap : Nat
  deriving DecidableEq, Repr

/-- Read the four words of a dispatch block; none where it breaks a stated range (R241). -/
def dispBlockOf (ws : List Word) : Option DispBlock :=
  let w0 := dwN ws 0
  let w1 := dwN ws 1
  let w2 := dwN ws 2
  let w3 := dwN ws 3
  let k := bitsOf w2 51 48
  let e := bitsOf w2 44 32
  let t := bitsOf w2 31 0
  let cap := bitsOf w3 20 0
  if bitsOf w0 63 57 ≠ 0 ∨ bitsOf w1 63 57 ≠ 0 ∨ bitsOf w2 63 53 ≠ 0 ∨ bitsOf w2 47 45 ≠ 0 ∨ bitsOf w3 63 21 ≠ 0 then none
  else if k = 0 ∨ 8 < k ∨ e = 0 ∨ 4096 < e ∨ e < k ∨ cap = 0 ∨ 1048576 < cap ∨ t = 0xFFFFFFFF ∨ w1 % 512 ≠ 0 then none
  else some { scores := w0, out := w1, bf16 := bitAt w2 52, k := k, e := e, t := t, cap := cap }
where
  /-- Word `n` of the block. -/
  dwN (ws : List Word) (n : Nat) : Nat := (ws.getD n 0).toNat

/-- The bytes of one score. -/
def DispBlock.bytes (x : DispBlock) : Nat := if x.bf16 then 2 else 4

/-- The scores of a token, given a reader of the matrix. -/
def dispScores (x : DispBlock) (rd : Nat → Nat → Nat) (t : Nat) : List (Nat × Nat) :=
  (upTo x.e).map (fun e => (e, rd (x.scores + (t * x.e + e) * x.bytes) x.bytes))

/-- The value of a score. -/
def dispNum (x : DispBlock) (s : Nat) : Num := numOperand (if x.bf16 then .bf16 else .fp32) false s

/-- Put an expert in its place among the picks: larger scores first, equal scores to the lower expert (R214). -/
def dispInsert (x : DispBlock) (p : Nat × Nat) : List (Nat × Nat) → List (Nat × Nat)
  | [] => [p]
  | q :: t => if numLtTotal (dispNum x q.2) (dispNum x p.2) then p :: q :: t else q :: dispInsert x p t

/-- The picks of a token: at most k experts, never a NaN (R214). -/
def dispPicks (x : DispBlock) (ss : List (Nat × Nat)) : List (Nat × Nat) :=
  ((ss.filter (fun p => !numIsNan (dispNum x p.2))).foldl (fun acc p => dispInsert x p acc) []).take x.k

/-- The tokens assigned to each expert in increasing token, with their gates (R215). -/
def dispAssigned (x : DispBlock) (rd : Nat → Nat → Nat) (e : Nat) : List (Nat × Nat) :=
  (upTo x.t).filterMap (fun t =>
    ((dispPicks x (dispScores x rd t)).find? (fun p => p.1 == e)).map (fun p =>
      (t, if x.bf16 then p.2 * 65536 else p.2)))

/-- NaN scores of the matrix (R214, R216). -/
def dispNans (x : DispBlock) (rd : Nat → Nat → Nat) : Nat :=
  (upTo x.t).foldl (fun acc t => acc + ((dispScores x rd t).filter (fun p => numIsNan (dispNum x p.2))).length) 0

/-- The offset of the slot table from OUT (R216). -/
def dispTable (x : DispBlock) : Nat := 512 * ((64 + 8 * x.e + 511) / 512)

/-- Everything DISPATCH writes, as (address, bytes) (R216). -/
def dispWrites (x : DispBlock) (rd : Nat → Nat → Nat) : List (Nat × List Byte) :=
  let asg := (upTo x.e).map (fun e => dispAssigned x rd e)
  let dropped := asg.foldl (fun acc l => acc + (l.length - x.cap)) 0
  let head := leBytes 8 dropped ++ leBytes 8 (dispNans x rd) ++ List.replicate 48 0
    ++ (asg.map (fun l => leBytes 8 (min l.length x.cap))).flatten
  (x.out, head ++ List.replicate (dispTable x - head.length) 0)
    :: (upTo x.e).map (fun e =>
        let l := (asg.getD e []).take x.cap
        (x.out + dispTable x + 8 * (e * x.cap),
          (l.map (fun p => leBytes 8 (p.1 + p.2 * 2 ^ 32))).flatten
            ++ (List.replicate (x.cap - l.length) (leBytes 8 0xFFFFFFFF)).flatten))

/-- The logical indices of NaN scores count as invalid operations of the ranks that read them (R214). -/
def dispRankNans (x : DispBlock) (rd : Nat → Nat → Nat) (rank n : Nat) : Nat :=
  let t0 := rank * x.t / n
  let t1 := (rank + 1) * x.t / n
  (upTo (t1 - t0)).foldl (fun acc k => acc + ((dispScores x rd (t0 + k)).filter (fun p => numIsNan (dispNum x p.2))).length) 0

end Sys2Proof.Machine
end

