-- ==== Sys2Proof/Machine/Admit.lean ====
section
/-!
DEFINITION. Admission, leases and the start of commands: the scoreboard (R146 to R149, R233, R258, R280, R283, R291), walk mode
(R566 to R568), the loop of R308, and the rows of every opcode class.
-/

namespace Sys2Proof.Machine

/-! ## The scoreboard -/

/-- Two leases of R233 conflict. -/
def winsMeet (a b : WinLease) : Bool :=
  a.stall == b.stall && a.prog == b.prog && decide (a.lo < b.hi) && decide (b.lo < a.hi) && (a.excl || b.excl)

/-- Two lists of keys share one. -/
def keysMeet (a b : List Nat) : Bool := a.any (fun k => b.contains k)

/-- The slots a list of manual-ring operands covers. -/
def ringKeys (l : List (Nat × Nat × Bool)) : List Nat := l.flatMap (fun r => bufferKeys r.1 r.2.1)

/-- Two manual-ring operands stand in each other's way: their slots overlap, and they are not the two partners of one ring. A paddock ring
has one partner at a time (R283, R353). -/
def ringsMeet (a b : Nat × Nat × Bool) : Bool :=
  bufOverlap a.1 a.2.1 b.1 b.2.1 && !(a.1 == b.1 && a.2.1 == b.2.1 && a.2.2 != b.2.2)

/-- Two requests conflict on some key (R147, R233). -/
def needsMeet (a b : Need) : Bool :=
  keysMeet a.segs b.segs || keysMeet a.ctxs b.ctxs || keysMeet a.slots (b.slots ++ ringKeys b.rings) || keysMeet (ringKeys a.rings) b.slots
    || a.rings.any (fun x => b.rings.any (ringsMeet x)) || a.wins.any (fun x => b.wins.any (winsMeet x))

/-- Does a tandem have a stage that runs (R568)? -/
def tandemIdle (c : Cmd) : Bool := descClass c.desc == 5 && c.stages.all (fun x => x == .unreleased || x == .idle || x == .done || x == .skipped)

/-- A CTX_SAVE of a PRIV queue may share the segments that an idle tandem of a walk-mode queue leases (R568). -/
def State.maySnoop (s : State) (q : Nat) (d : List Word) (holder : Cmd) : Bool :=
  descClass d == 7 && entryPriv (s.queue q) && entryWalk (s.queue holder.queue) && tandemIdle holder
    && s.queueCorral q == holder.corral

/-- A manual-ring operand may start (R283, R353): it is the partner of a paddock ring that has none, it opens a ring on slots that
are free, or it is the missing partner of the ring that is open there. -/
def State.ringFree (s : State) (r : Nat × Nat × Bool) : Bool :=
  match (allPdkRings s.cfg.frames).find? (fun p => p.2.2.1 == r.1 && p.2.2.2 == r.2.1) with
  | some p =>
    let k := smGet (fun _ => PdkSt.idle0) s.pdks p.1
    if p.2.1 then k.outRing.partner.isNone else k.inRing.partner.isNone
  | none =>
    !s.cmds.any (fun c => keysMeet c.slots (bufferKeys r.1 r.2.1)) &&
    match s.rings.filter (fun x => bufOverlap x.buffer x.slots r.1 r.2.1) with
    | [] => true
    | [x] => if r.2.2 then x.producer.isNone else x.consumer.isNone
    | _ => false

/-- Banks of a stall that hold no command. -/
def freeBanks (q : SeqSt) : Nat := b2n (q.bank0.phase == .free) + b2n (q.bank1.phase == .free)

/-- Stalls on which a holder leases a segment of a request of queue `q` (R147). -/
def State.leasedStalls (s : State) (q : Nat) (d : List Word) (n : Need) : List Nat :=
  s.cmds.flatMap (fun c => if s.maySnoop q d c then [] else (n.segs.filter (fun k => c.segs.contains k)).map (· / 64))

/-- Stalls on which a holder of some key conflicts with a request of queue `q` (R147). -/
def State.heldStalls (s : State) (q : Nat) (d : List Word) (n : Need) : List Nat :=
  sortAsc (s.leasedStalls q d n ++ s.cmds.flatMap (fun c =>
        ((n.slots ++ ringKeys n.rings).filter (fun k => c.slots.contains k)).map (· / 64)
        ++ (n.wins.filter (fun w => c.windows.any (winsMeet w))).map (·.stall))
    ++ n.banks.filter (fun st => freeBanks (s.seqr st) == 0)
    ++ (n.rings.filter (fun r => !s.ringFree r)).map (fun r => r.1 / 64)
    ++ (n.slots.filter (fun k => s.rings.any (fun r => decide (r.buffer ≤ k ∧ k < r.buffer + r.slots)))).map (· / 64))

/-- A context that no command holds. -/
def State.ctxFree (s : State) (i : Nat) : Bool := !s.cmds.any (fun c => c.ctxs.contains i)

/-- The waiters older than a request: queue, corral and need (R147). -/
def State.olderWaiters (s : State) (q stamp : Nat) : List (Nat × Nat × Need) :=
  s.queues.filterMap (fun e =>
    match e.2.waiter with
    | some w =>
      if w.at_ = .grant ∧ !w.noop ∧ e.1 ≠ q ∧ (w.stamp < stamp ∨ (w.stamp = stamp ∧ e.1 < q)) then
        some (e.1, s.queueCorral e.1, s.descNeed (s.queueCorral e.1) w.desc)
      else none
    | none => none)

/-- Free contexts of a corral that a request may take: free, and named by no waiter before it (R258). -/
def State.freeCtxs (s : State) (c : Nat) (older : List (Nat × Nat × Need)) (own : List Nat) : List Nat :=
  (s.owned .context c).filter (fun i => s.ctxFree i && !own.contains i && !older.any (fun o => o.2.2.ctxs.contains i))

/-- May a request be granted now (R147)? -/
def State.grantable (s : State) (q stamp : Nat) (d : List Word) (n : Need) : Bool :=
  let c := s.queueCorral q
  let older := s.olderWaiters q stamp
  (s.heldStalls q d n).isEmpty
    && n.ctxs.all (fun i => s.ctxFree i)
    && n.rings.all (fun r => s.ringFree r)
    && !older.any (fun o => needsMeet n o.2.2)
    && n.banks.all (fun st => decide ((older.map (fun o => o.2.2.banks.count st)).foldl (· + ·) (n.banks.count st) ≤ freeBanks (s.seqr st)))
    && (n.free == 0 || decide (n.free + ((older.filter (fun o => o.2.1 == c)).map (fun o => o.2.2.free)).foldl (· + ·) 0
          ≤ (s.freeCtxs c older n.ctxs).length))

/-- Count a request's first refusal on each stall where a segment of it was leased (R147, R168). -/
def State.countRefusal (s : State) (q : Nat) : State :=
  let v := s.queue q
  match v.waiter with
  | some w =>
    if w.at_ = .grant ∧ !w.refused ∧ !w.noop then
      let n := s.descNeed (s.queueCorral q) w.desc
      if s.grantable q w.stamp w.desc n then s
      else
        let s1 := (sortAsc (s.leasedStalls q w.desc n)).foldl (fun t st => t.bump .ACS_CONFLICT_COUNT st 0 1) s
        s1.setQueue q { v with waiter := some { w with refused := true, since := s.time } }
    else s
  | none => s

/-- Stalls a waiter waits on: a conflicting holder, or an older conflicting waiter (R149). -/
def State.waitStalls (s : State) (q stamp : Nat) (d : List Word) (n : Need) : List Nat :=
  sortAsc (s.heldStalls q d n ++ (s.olderWaiters q stamp).flatMap (fun o =>
    (n.segs.filter (fun k => o.2.2.segs.contains k)).map (· / 64)
      ++ ((n.slots ++ ringKeys n.rings).filter (fun k => (o.2.2.slots ++ ringKeys o.2.2.rings).contains k)).map (· / 64)
      ++ (n.wins.filter (fun w => o.2.2.wins.any (winsMeet w))).map (·.stall)
      ++ n.banks.filter (fun st => o.2.2.banks.contains st)))

/-- The smallest non-zero ACS_LEASE_LIMIT of a list of stalls, in ns: the register counts µs (R149, R167). -/
def State.leaseLimit (s : State) (stalls : List Nat) : Option Nat :=
  (sortAsc ((stalls.map (fun st => s.fld .ACS_LEASE_LIMIT st 0 31 0)).filter (fun l => l != 0))).head?.map (· * 1000)

/-! ## Walk mode (R566 to R568) -/

/-- A unit of a walk-mode queue that has been released and has neither completed nor settled. A stage that has executed waits
only for room in a hand-over: it has settled when its consumer is not released (R567). -/
def unitOpen (v : QueueSt) (cmds : List Cmd) (q : Nat) : Bool :=
  v.walkUnits != 0
    || (match v.waiter with | some w => w.at_ != .walk | none => false)
    || cmds.any (fun c => c.queue == q &&
        (if descClass c.desc = 5 ∧ c.stages.contains .unreleased then
          (upTo c.stages.length).any (fun i =>
            match c.stages.getD i .done with
            | .unreleased => false
            | .done => false
            | .skipped => false
            | .executed => !c.hands.any (fun h => h.prod == i && !h.backlog.isEmpty && c.stages.getD h.cons .done == .unreleased)
            | _ => true)
        else true))

/-- The stages after one unit of a tandem has been released: the next one, or all (R566). -/
def releaseStages (grain : Bool) : List StageSt → List StageSt
  | [] => []
  | .unreleased :: t => .idle :: (if grain then t else t.map (fun x => if x = .unreleased then .idle else x))
  | x :: t => x :: releaseStages grain t

/-- The oldest STEP in flight that targets a queue and still has units to release. -/
def stepFor (q : Nat) (cmds : List Cmd) : Option Cmd :=
  match cmds.find? (fun c => descClass c.desc == 11 && bitsOf (dw c.desc 2) 63 48 == q && c.phase == .running) with
  | some c => if c.released = 0 then none else some c
  | none => none

/-- The banks of stages that walk mode has released leave STOPPED (R237, R566). -/
def State.freeStopped (s : State) (c : Cmd) : List BankRef → State
  | [] => s
  | r :: t =>
    let q := s.seqr r.stall
    let k := q.bank (r.bank == 1)
    (if k.phase = .stopped ∧ c.stages.getD k.stage .done ≠ .unreleased then
      s.setSeqr r.stall (q.setBank (r.bank == 1) { k with phase := .loading }) else s).freeStopped c t

/-- Release the next unit of a walk-mode queue when the one before it has completed or settled (R566). -/
def State.walkPump (s : State) (q : Nat) : State :=
  let v := s.queue q
  match stepFor q s.cmds with
  | none => s
  | some st =>
    if unitOpen v s.cmds q then s
    else
      let grain := bitAt (dw st.desc 2) 31
      let s1 := s.setCmd { st with released := st.released - 1 }
      match s1.cmds.find? (fun c => c.queue == q && descClass c.desc == 5 && c.stages.contains .unreleased) with
      | some t => let u := { t with stages := releaseStages grain t.stages }; (s1.setCmd u).freeStopped u u.banks
      | none => s1.setQueue q { v with walkUnits := 1, walkGrain := grain }

/-! ## Starting a command -/

/-- A bank as R234 initialises it; the tandem channel registers S9 + c and S13 + c describe bound rings (R289). -/
def bankFor (x : VecDesc) (q seq stage rank : Nat) (chans : List (Nat × Nat × Nat)) (phase : BankPhase) : BankSt :=
  let b0 : BankSt :=
    { BankSt.idle with
      phase := phase, pc := x.pstart, queue := q, seq := seq, stage := stage, rank := rank, stalls := x.count, pstart := x.pstart,
      plen := x.plen, limit := x.limit, seed := x.seed, haltInv := x.haltInv
      windows := (x.wins.filter winEn).map (fun w => (winBase w, winLen w, winWr w)) }
  let b1 := (b0.setS 1 (BitVec.ofNat 64 rank)).setS 2 (BitVec.ofNat 64 x.count)
  let b2 := (upTo 6).foldl (fun b i => b.setS (3 + i) (x.args.getD i 0)) b1
  chans.foldl (fun b c => b.setS c.1 (BitVec.ofNat 64 (c.2.1 % 64 * 4096 + c.2.2 * 2 ^ 32))) b2

/-- The channel registers of a VECTOR stage: register, buffer ID, ring bytes (R289). -/
def chanRegs (r : List Word) (hands : List HandDesc) : List (Nat × Nat × Nat) :=
  (upTo 4).flatMap (fun ch =>
    (match stageBind r false ch with
     | some h => [(9 + ch, (hands.getD h (handDescOf 0)).buffer, (hands.getD h (handDescOf 0)).slots * 4096)]
     | none => [])
    ++ (match stageBind r true ch with
     | some h => [(13 + ch, (hands.getD h (handDescOf 0)).buffer, (hands.getD h (handDescOf 0)).slots * 4096)]
     | none => []))

/-- A bank becomes ACTIVE. DESIGN CHOICE (log 133): it is a switch that STL_SEQ_SWITCHES counts whenever the last ACTIVE bank was the other one,
whether or not that one still holds a command (R238, R248). -/
def State.makeActive (s : State) (st : Nat) (b : Bool) : State :=
  let q := s.seqr st
  (if b = q.last then s else s.bump .STL_SEQ_SWITCHES st 0 1).setSeqr st
    ({ q with last := b }.setBank b { q.bank b with phase := .active })

/-- Put a command in the lowest FREE bank of a stall (R233, R234): ACTIVE where it may issue at once and no bank is, READY where one is;
a bank of a tandem's stage is LOADING until its stage begins, STOPPED while walk mode holds the stage (R237, R566). -/
def State.takeBank (s : State) (st : Nat) (mk : BankPhase → BankSt) (hold : Option BankPhase) : State × Nat :=
  let q := s.seqr st
  let b := !(q.bank0.phase == .free)
  let s1 := s.setSeqr st (q.setBank b (mk (hold.getD .ready)))
  (if hold.isNone ∧ q.active.isNone then s1.makeActive st b else s1, b2n b)

/-- Load a program range on one stall and check it (R224): true where every instruction is legal. -/
def State.loadProgram (s : State) (st pstart : Nat) (ws : List Word) (legal : Bool) : State :=
  let q := s.seqr st
  let p := (upTo ws.length).foldl (fun (a : SeqSt) i =>
    { a with prog := smSet (fun _ => 0) a.prog (pstart + i) (ws.getD i 0)
             verified := smSet (fun _ => false) a.verified (pstart + i) legal }) q
  s.setSeqr st p

/-- Give the banks of one VECTOR descriptor or stage; answer the bank references and the code of a failed program load. -/
def State.startVector (s : State) (c q seq stage : Nat) (d : List Word) (hands : List HandDesc) (hold : Option BankPhase) :
    State × List BankRef × Nat :=
  let x := vecDescOf d
  let stalls := s.vecStalls c x
  let r := (upTo stalls.length).foldl (fun (a : State × List BankRef) i =>
    let st := stalls.getD i 0
    let t := a.1.takeBank st (bankFor x q seq stage i (chanRegs d hands)) hold
    (t.1, a.2 ++ [{ stall := st, bank := t.2, rank := i }])) (s, [])
  if x.pload then
    match s.rangeErr c false x.progAddr (8 * x.plen) with
    | some e => (r.1.logAccess 0 c e, r.2, e.2.err)
    | none =>
      let ws := bytesWords x.plen (s.vaBytes c x.progAddr (8 * x.plen))
      let legal := ws.all (fun w => vinsLegal (vinsOf w))
      let s1 := stalls.foldl (fun t st => t.loadProgram st x.pstart ws legal) r.1
      if legal then (s1, r.2, 0)
      else (stalls.foldl (fun t st => t.raise .vec st 5 E_VEC_ILLEGAL q (some c)) s1, r.2, E_VEC_ILLEGAL)
  else (r.1, r.2, 0)

/-- Open or join the manual ring of one operand (R283), or become the partner of a paddock ring (R353); false where the partners
differ. -/
def State.startRing (s : State) (q seq total : Nat) (r : Nat × Nat × Bool) : State × Bool :=
  match (allPdkRings s.cfg.frames).find? (fun p => p.2.2.1 == r.1 && p.2.2.2 == r.2.1) with
  | some p =>
    let k := smGet (fun _ => PdkSt.idle0) s.pdks p.1
    let k1 := if p.2.1 then { k with outRing := { k.outRing with partner := some (q, seq) } }
              else { k with inRing := { k.inRing with partner := some (q, seq) } }
    ({ s with pdks := smSet (fun _ => PdkSt.idle0) s.pdks p.1 k1 }, true)
  | none =>
    match s.rings.find? (fun x => bufOverlap x.buffer x.slots r.1 r.2.1) with
    | none =>
      ({ s with rings := s.rings ++ [{ buffer := r.1, slots := r.2.1, total := total,
                                       producer := if r.2.2 then some (q, seq) else none,
                                       consumer := if r.2.2 then none else some (q, seq),
                                       prodDone := false, consDone := false, broken := false, p := 0, c := 0 }] }, true)
    | some x =>
      if x.buffer = r.1 ∧ x.slots = r.2.1 ∧ x.total = total then
        ({ s with rings := s.rings.map (fun y =>
            if y.buffer = x.buffer then
              (if r.2.2 then { y with producer := some (q, seq) } else { y with consumer := some (q, seq) })
            else y) }, true)
      else (s, false)

/-- The resident check of ACCUMULATE (R129): every footprint segment VALID with the command's WIDE, FMT and SIGNED. -/
def State.residentOk (s : State) (c : Nat) (d : List Word) : Bool :=
  let x := matDescOf d
  match matFmtsOf x with
  | none => true
  | some f =>
    x.ctl.init != 1 || matIsNoop x ||
      (segKeys (s.lastMembers c x.gangBase (gangsUsed x f)) x.ctl.seg (footSegs x f)).all (fun k =>
        let g := acsSeg s.acs (k / 64) (k % 64)
        g.valid && g.wide == accWide f && g.fmt == fmtCode f.acc && g.sgn == f.accSgn)

/-- The resident check of a DRAIN (R152, R314): VALID, the producer's, and of the width named. -/
def State.drainResident (s : State) (c : Nat) (x : DrainDesc) : Bool :=
  (segKeys (s.lastMembers c x.base x.count) x.seg x.segs).all (fun k =>
    let g := acsSeg s.acs (k / 64) (k % 64)
    g.valid && g.prodQueue == x.prodQueue && g.prodSeq == x.prodSeq && g.wide == x.wide)

/-- The outcome of a producer: its error code once its end has been taken (R152). -/
def State.producer (s : State) (q seq : Nat) : Option Nat :=
  match smGet (fun _ => 0) (s.queue q).outcome seq with
  | 0 => none
  | n + 1 => some n

/-- The first stage of a tandem that fails its resident check (R129). -/
def State.tandemResident (s : State) (c : Nat) : Nat → List (List Word) → Option Nat
  | _, [] => none
  | i, r :: t => if descClass r = 1 ∧ !s.residentOk c r then some i else s.tandemResident c (i + 1) t

/-- Start the stages' banks of a tandem (R291); `held` says that walk mode holds the stages after the first (R566). -/
def State.startStages (s : State) (c q seq : Nat) (hands : List HandDesc) (held : Bool) : Nat → List (List Word) → State × List BankRef × Nat
  | _, [] => (s, [], 0)
  | i, r :: t =>
    if descClass r = 2 then
      let a := s.startVector c q seq i r hands (some (if held && decide (0 < i) then .stopped else .loading))
      let b := a.1.startStages c q seq hands held (i + 1) t
      (b.1, a.2.1 ++ b.2.1, if a.2.2 ≠ 0 then a.2.2 else b.2.2)
    else s.startStages c q seq hands held (i + 1) t

/-- Contexts given to a command become ACTIVE (R257, R258). -/
def State.activate (s : State) (q seq : Nat) (l : List Nat) : State :=
  l.foldl (fun t i => t.setCtx i { StreamCtx.idle with phase := .active, queue := q, seq := seq, advanced := s.time }) s

/-- Fetch the descriptor at ADMIT of a host ring by RDMA READ (R296, R308); it waits while the queue pair has 8 outstanding. -/
def State.fetchNext (s : State) (q : Nat) : State :=
  let v := s.queue q
  if v.phase = .enabled ∧ entryRingHost v ∧ v.admitIx ≠ v.pi ∧ v.fetched.isNone ∧ v.waiter.isNone
      ∧ !((s.qp (entryQpx v)).outstanding.any (fun r => !r.write && r.queue == q))
      ∧ ((s.qp (entryQpx v)).phase = .rts → (s.qp (entryQpx v)).mayRead) then
    match s.postRead (entryQpx v) (dw v.entry 0 + 128 * (v.admitIx % 2 ^ entryRingLog v)) (entryRingRkey v) 128 q with
    | some t => t
    | none => s.stopQueue q E_HOST_ACCESS
  else s

/-- Queues whose READ had to wait for one of a queue pair's 8 go on (R296). -/
def State.refetch (s : State) (i : Nat) : State :=
  (s.queues.filter (fun e => entryRingHost e.2 && entryQpx e.2 == i)).foldl (fun t e => t.fetchNext e.1) s

/-- The command at the head of a queue is granted and starts (R147, R308): ADMIT and INFLIGHT advance, the start boundary is
latched (R561), and its class's part at the grant happens. -/
def State.startCmd (s : State) (q : Nat) (w : Waiter) : State :=
  let v := s.queue q
  let c := s.queueCorral q
  let seq := v.admitIx
  let d := w.desc
  let stages := if descClass d = 5 then s.stageRecords c d else []
  let hands := if descClass d = 5 then (s.handWords c d).map (fun x => handDescOf x.1) else []
  let n := if w.noop then Need.none else s.needOf c d stages hands
  let ctxs := n.ctxs ++ (s.freeCtxs c (s.olderWaiters q w.stamp) n.ctxs).take n.free
  let l := s.latchAll c (lowest (s.stallsUsed c d stages))
  let s1 := l.2.setQueue q { v with admitIx := (seq + 1) % 2 ^ 32, inflight := v.inflight + 1, waiter := none, fetched := none }
  let walk := entryWalk v
  let m := moveDescOf d
  let isWait := descClass d == 6 && descSub d == 0
  let tv := (s.tether (bitsOf (dw d 2) 14 0)).toNat
  let base : Cmd :=
    { queue := q, seq := seq, corral := c, desc := d, phase := .running, startTime := s.time, segs := n.segs, ctxs := ctxs,
      slots := n.slots, banks := [], windows := n.wins, halts := 0, counts := Counts.zero
      stages := (upTo stages.length).map (fun i => if walk && w.staged && decide (0 < i) then .unreleased else .idle)
      hands := hands.map (fun h =>
        { prod := h.prod, cons := h.cons, stall := h.buffer / 64, slot := h.buffer % 64, bytes := h.slots * 4096, p := 0, c := 0,
          closed := false, ending := false, backlog := [], got := [] })
      stageTabs := stages, latch := l.1, moved := 0, units := 0
      tether := if isWait && decide (dw d 3 ≤ tv) then tv else 0
      released := if isWait then b2n (decide (dw d 3 ≤ tv)) else if descClass d = 11 then bitsOf (dw d 2) 47 32 else 0
      owner := 0, inactive := decide (descClass d = 1), freed := [], masks := [], fold := FoldSt.start }
  let s2 : State := (s1.activate q seq ctxs)
  let s3 : State := { s2 with cmds := s2.cmds ++ [base] }
  if w.noop then (s3.endCmd base OK_NOOP 0 0 true).fetchNext q
  else
    let t : State :=
      match descClass d with
      | 1 => if s.residentOk c d then s3 else s3.endCmd base E_ACC_RESIDENT (Reject.detail ⟨E_ACC_RESIDENT, 13, 0xFE⟩) 0 true
      | 2 =>
        let a := s3.startVector c q seq 0 d [] none
        let b := { base with banks := a.2.1 }
        if a.2.2 = 0 then a.1.setCmd b else (a.1.setCmd b).failCmd b a.2.2 0 0
      | 3 =>
        n.rings.foldl (fun t r =>
          let a := t.startRing q seq m.total r
          if a.2 then a.1 else a.1.failCmd base E_STREAM_MISMATCH 0 0) s3
      | 4 => if s.drainResident c (drainDescOf d) then s3 else s3.failCmd base E_DRAIN_STALE 0 0
      | 5 =>
        match s.tandemResident c 0 stages with
        | some i => s3.endCmd base E_ACC_RESIDENT (Reject.detail ⟨E_ACC_RESIDENT, 13, 0xFE⟩) i true
        | none =>
          let a := s3.startStages c q seq hands (walk && w.staged) 0 stages
          let b := { base with banks := a.2.1 }
          if a.2.2 = 0 then a.1.setCmd b else (a.1.setCmd b).failCmd b a.2.2 0 0
      | 11 => s3.walkPump (bitsOf (dw d 2) 63 48)
      | _ => s3
    t.fetchNext q

/-! ## The loop of R308 -/

/-- The class rows of the opcode table. -/
inductive ClassRow where
  | matrix | vector | moveCopy | moveMulticast | gather | scatter | scatterAdd | scatterMin | scatterMax | drain | tandem
  | tetherWait | tetherSignal | tetherAdd | ctxSave | ctxRestore | fence | resync | step
  deriving DecidableEq, Repr

/-- The row a descriptor belongs to, none where its encoding belongs to no class. -/
def rowOf (d : List Word) : Option ClassRow :=
  match descClass d with
  | 1 => some .matrix
  | 2 => some .vector
  | 3 =>
    match (moveDescOf d).kind with
    | 0 => some .moveCopy
    | 2 => some .moveMulticast
    | 1 =>
      match (moveDescOf d).op with
      | 0 => some .gather | 1 => some .scatter | 2 => some .scatterAdd | 3 => some .scatterMin | 4 => some .scatterMax
      | _ => none
    | _ => none
  | 4 => some .drain
  | 5 => some .tandem
  | 6 => match descSub d with | 0 => some .tetherWait | 1 => some .tetherSignal | 2 => some .tetherAdd | _ => none
  | 7 => some .ctxSave
  | 8 => some .ctxRestore
  | 9 => some .fence
  | 10 => some .resync
  | 11 => some .step
  | _ => none

/-- A record slot is free (R308). -/
def State.slotFree (s : State) (q : Nat) : Bool :=
  let v := s.queue q
  decide (sub32 v.recs v.ci + (s.cmds.filter (fun c => c.queue == q)).length < 2 ^ entryCrLog v)

/-- A FENCE of the queue has not completed: nothing later is admitted (R324). -/
def State.fenced (s : State) (q : Nat) : Bool := s.cmds.any (fun c => c.queue == q && descClass c.desc == 9)

/-- May the queue take its next descriptor (R308)? Admission of a corral is paused while a discard runs there (R594). -/
def State.canAdmit (s : State) (q : Nat) : Bool :=
  let v := s.queue q
  v.phase == .enabled && v.admitIx != v.pi && decide (v.inflight < entryMax v) && s.slotFree q && !s.fenced q
    && (s.discard (s.queueCorral q)).isNone

/-- The descriptor at ADMIT: from HBM, or as an RDMA READ has brought it (R308). A ring address that fails stops the queue
(R310). -/
def State.headDesc (s : State) (q : Nat) : Option (List Word) × State :=
  let v := s.queue q
  match v.waiter with
  | some w => (some w.desc, s)
  | none =>
    if entryRingHost v then (v.fetched, s.fetchNext q)
    else
      let c := s.queueCorral q
      let a := dw v.entry 0 + 128 * (v.admitIx % 2 ^ entryRingLog v)
      match s.rangeErr c false a 128 with
      | some e => (none, (s.logAccess 0 c e).stopQueue q E_XLATE_FAULT)
      | none => (some (bytesWords 16 (s.vaBytes c a 128)), s.portAccess .fetch c false a 128)

/-- What a descriptor waits for after its checks (R308): its tether, its producer, or the grant. Classes that take no lease start
at once (R313, R316). -/
def State.enqueue (s : State) (q : Nat) (d : List Word) (noop staged : Bool) : State :=
  let v := s.queue q
  let met := !bitAt (dw d 1) 63 || waitMet d (s.tether (bitsOf (dw d 1) 62 48)).toNat
  let stage : WaitStage := if met then passTether d noop else .tether
  let w : Waiter := { desc := d, at_ := stage, noop := noop, staged := staged, stamp := s.time, since := s.time,
                      prodDone := false, refused := false }
  let plain := noop || decide (descClass d = 6 ∨ descClass d = 9 ∨ descClass d = 10 ∨ descClass d = 11)
  if met && plain then s.startCmd q w
  else (s.setQueue q { v with waiter := some w, headSince := s.time }).countRefusal q

/-- Check the descriptor at the head of a queue (R308). -/
def State.checkHead (s : State) (q : Nat) (d : List Word) (staged : Bool) : State :=
  let v := s.queue q
  match s.admission (s.queueCorral q) q v.admitIx d with
  | .reject r stage => ((s.logReads (s.queueCorral q) d r.code).rejectHead q d r.code r.detail stage).fetchNext q
  | .noop => s.enqueue q d true staged
  | .go => s.enqueue q d false staged

/-- A class row: the descriptor at ADMIT is read and checked when it is of this row, or of no row at all (R308). In walk mode it
waits for a STEP first (R566). -/
def State.admitRow (s : State) (q : Nat) (row : ClassRow) : State :=
  let s0 := s.walkPump q
  let v := s0.queue q
  let atWalk := match v.waiter with | some w => w.at_ == .walk | none => true
  if !s0.canAdmit q || !atWalk then s
  else
    match s0.headDesc q with
    | (none, t) => t
    | (some d, t) =>
      if rowOf d ≠ some row ∧ (rowOf d).isSome then s
      else if entryWalk v && v.walkUnits == 0 then
        t.setQueue q { v with waiter := some { desc := d, at_ := .walk, noop := false, staged := false, stamp := 0, since := s.time,
                                               prodDone := false, refused := false }, headSince := s.time }
      else
        (t.setQueue q { v with walkUnits := 0, waiter := none }).checkHead q d v.walkGrain

/-! ## The grant and its limit -/

/-- LEASE_GRANT: a waiting DRAIN whose producer has completed requests its lease, or fails with it (R152, R153); a request that
may be granted is granted (R147). -/
def State.grantRow (s : State) (q : Nat) : State :=
  let v := s.queue q
  match v.waiter with
  | none => s
  | some w =>
    if (s.discard (s.queueCorral q)).isSome ∨ v.phase ≠ .enabled then s
    else
      match w.at_ with
      | .producer =>
        let x := drainDescOf w.desc
        match s.producer x.prodQueue x.prodSeq with
        | none => s
        | some code =>
          if isOkCode code then
            (s.setQueue q { v with waiter := some { w with at_ := .grant, prodDone := true, stamp := s.time, since := s.time } }).countRefusal q
          else (s.rejectHead q w.desc E_DRAIN_PRODUCER 0 0).fetchNext q
      | .grant =>
        if w.noop ∨ s.grantable q w.stamp w.desc (s.descNeed (s.queueCorral q) w.desc) then s.startCmd q w
        else s.countRefusal q
      | _ => s

/-- LEASE_WAIT_TIMEOUT: a command that has waited longer than its limit fails (R149). -/
def State.leaseTimeoutRow (s : State) (q : Nat) : State :=
  let v := s.queue q
  match v.waiter with
  | none => s
  | some w =>
    let n := s.descNeed (s.queueCorral q) w.desc
    let stalls := s.waitStalls q w.stamp w.desc n
    match s.leaseLimit stalls with
    | none => s
    | some lim =>
      if w.at_ = .grant ∧ w.refused ∧ v.phase = .enabled ∧ lim < s.time - w.since then
        let s1 := stalls.foldl (fun t st => t.raise .acs st 2 E_ACC_LEASE_WAIT q (s.owner .queue q)) s
        (s1.rejectHead q w.desc E_ACC_LEASE_WAIT 0 0).fetchNext q
      else s

end Sys2Proof.Machine
end

