-- ==== Sys2Proof/Machine/Streams.lean ====
section
/-!
DEFINITION. The streams of commands (R256 to R261, R269): their accesses in logical order, the first one that fails, and what each
class's streams read and write (R151 to R160, R180 to R187, R211 to R213, R275).
-/

namespace Sys2Proof.Machine

/-- One access of a stream: the index of its context among the command's contexts, its logical position, direction, address and
length. -/
structure Acc where
  ctx : Nat
  pos : Nat
  write : Bool
  va : Nat
  n : Nat
  deriving DecidableEq, Repr

/-- A failed access: context index, position, lowest address of the failing unit, direction, cause. -/
structure AccFail where
  ctx : Nat
  pos : Nat
  va : Nat
  write : Bool
  err : MemErr
  deriving DecidableEq, Repr

/-- The position of context `i` of a command: the bytes it has completed (R256). -/
def State.ctxPos (s : State) (c : Cmd) (i : Nat) : Nat := match c.ctxs[i]? with | some k => (s.ctx k).pos | none => 0

/-- An access from position `p` on. -/
def Acc.from_ (a : Acc) (p : Nat) : Acc :=
  let k := min a.n (p - a.pos)
  { a with pos := a.pos + k, va := a.va + k, n := a.n - k }

/-- Why an access fails, if it does. -/
def State.accFail (s : State) (corral : Nat) (a : Acc) : Option AccFail :=
  match s.rangeErr corral a.write a.va a.n with
  | some (va, e) => some { ctx := a.ctx, pos := a.pos + (va - a.va), va := va, write := a.write, err := e }
  | none => none

/-- The failure at the lowest position of each stream comes first (R269). -/
def minFail : List AccFail → Option AccFail
  | [] => none
  | a :: t => match minFail t with | some b => if b.pos < a.pos then some b else some a | none => some a

/-- The first failure of a list of accesses, from the position each stream has reached. -/
def State.firstFail (s : State) (c : Cmd) (l : List Acc) : Option AccFail :=
  minFail (l.filterMap (fun a => s.accFail c.corral (a.from_ (s.ctxPos c a.ctx))))

/-! ## Units (R259, R261) -/

/-- A list of accesses is made: its units go to their controllers (R260, R262); answers how many it costs. -/
def State.useAccs (s : State) (corral : Nat) : List Acc → State × Nat
  | [] => (s, 0)
  | a :: t =>
    let r := s.usePieces (if a.write then .streamWrite else .streamRead) corral a.write (unitPieces a.va a.n) 0
    let u := r.1.useAccs corral t
    (u.1, r.2 + u.2)

/-- The part of an access that lies in `[lo, hi)` of its stream. -/
def Acc.within (a : Acc) (lo hi : Nat) : Acc :=
  let b := a.from_ lo
  { b with n := min b.n (hi - b.pos) }

/-! ## MOVE (R273 to R279) -/

/-- An operand in a space is served by this device's own memory: LOCAL_VA, or REMOTE_VA naming this device. -/
def State.spLocal (s : State) (sp dev : Nat) : Bool := sp == 0 || (sp == 2 && dev == s.devId)

/-- An operand in a space is on another device. -/
def State.spRemote (s : State) (sp dev : Nat) : Bool := sp == 2 && dev != s.devId

/-- The index list of an INDEXED move; none is the null index (R211). -/
def State.indices (s : State) (c : Nat) (m : MoveDesc) : List (Option Nat) :=
  if m.kind ≠ 1 then []
  else
    let w := if m.idx64 then 8 else 4
    (upTo m.count).map (fun r =>
      let v := leNat (s.vaBytes c (m.idxAddr + w * r) w)
      if v = 2 ^ (8 * w) - 1 then none else some v)

/-- Bytes of one row of the logical sequence. -/
def MoveDesc.rowLen (m : MoveDesc) : Nat := if m.kind = 1 then m.rowBytes else m.len

/-- The rows a side of an INDEXED move touches in its table: row number and table address. -/
def tableRows (m : MoveDesc) (idx : List (Option Nat)) : List (Nat × Nat) :=
  (upTo idx.length).filterMap (fun r => match idx.getD r none with | some i => some (r, m.tabBase + i * m.tabStride) | none => none)

/-- Bytes of the linear rows that a scatter leaves out, their index being null (R211). -/
def nullBytes (m : MoveDesc) (idx : List (Option Nat)) : Nat :=
  if m.kind = 1 ∧ !m.tabIsSrc then m.rowBytes * (idx.filter (·.isNone)).length else 0

/-- What a MOVE reads in its own memory: position, address, length. A null index contributes nothing, so its row is not read. -/
def State.moveReads (s : State) (m : MoveDesc) (idx : List (Option Nat)) : List (Nat × Nat × Nat) :=
  if m.kind = 1 then
    (if s.spLocal m.tabSp m.dev && m.op != 1 then (tableRows m idx).map (fun p => (p.1 * m.rowBytes, p.2, m.rowBytes)) else [])
      ++ (if !m.tabIsSrc && s.spLocal m.linSp m.dev then
            ((upTo m.count).filter (fun r => (idx.getD r none).isSome)).map (fun r => (r * m.rowBytes, m.linBase + r * m.linStride, m.rowBytes)) else [])
  else if s.spLocal m.srcSp m.dev then (upTo m.rows).map (fun r => (r * m.len, m.src + r * m.srcStride, m.len))
  else []

/-- What a MOVE writes in its own memory. -/
def State.moveWrites (s : State) (c : Nat) (m : MoveDesc) (idx : List (Option Nat)) : List (Nat × Nat × Nat) :=
  match m.kind with
  | 1 =>
    if m.tabIsSrc then
      (if s.spLocal m.linSp m.dev then (upTo m.count).map (fun r => (r * m.rowBytes, m.linBase + r * m.linStride, m.rowBytes)) else [])
    else if s.spLocal m.tabSp m.dev then (tableRows m idx).map (fun p => (p.1 * m.rowBytes, p.2, m.rowBytes))
    else []
  | 2 =>
    (upTo m.rows).flatMap (fun r => ((s.receivers c m).filter (fun v => s.spLocal v.sp v.dev)).map (fun v =>
      (r * m.len, v.loc + r * m.dstStride, m.len)))
  | _ => if s.spLocal m.dstSp m.dev then (upTo m.rows).map (fun r => (r * m.len, m.dst + r * m.dstStride, m.len)) else []

/-- The index list an INDEXED move reads before its first byte, at position 0, and reads once more to check it (R213, R269). -/
def listAccs (m : MoveDesc) (ctx : Nat) : List Acc :=
  if m.kind = 1 then
    let a : Acc := { ctx := ctx, pos := 0, write := false, va := m.idxAddr, n := m.count * (if m.idx64 then 8 else 4) }
    [a, a]
  else []

/-- The accesses of a MOVE in its own memory, row by row as its index list names them; the lag report at the end. -/
def State.rowAccs (s : State) (c : Nat) (m : MoveDesc) (idx : List (Option Nat)) (ctx : Nat) : List Acc :=
  (s.moveReads m idx).map (fun p => { ctx := ctx, pos := p.1, write := false, va := p.2.1, n := p.2.2 })
    ++ (s.moveWrites c m idx).map (fun p => { ctx := ctx, pos := p.1, write := true, va := p.2.1, n := p.2.2 })
    ++ (if m.kind = 2 ∧ m.mcReport ≠ 0 then [{ ctx := ctx, pos := m.total, write := true, va := m.mcReport, n := 8 * m.mcCount }] else [])

/-- The accesses of a MOVE: its index list, and, where that can be read, its rows. -/
def State.moveAccs (s : State) (c : Nat) (m : MoveDesc) (ctx : Nat) : List Acc :=
  let l := listAccs m ctx
  l ++ (if (s.rangesErr c false (l.map (fun a => (a.va, a.n)))).isNone then s.rowAccs c m (s.indices c m) ctx else [])

/-- An index at or above TABLE_ROWS (R213). -/
def badIndex (m : MoveDesc) (idx : List (Option Nat)) : Bool :=
  idx.any (fun i => match i with | some n => decide (m.tabRows ≤ n) | none => false)

/-- A byte read through an address: where another address of the same command has written the physical byte, the old value or the
new one, as a free value decides (R277). -/
def pickByte (s t : State) (c va : Nat) : Byte :=
  let old := s.vaByte c va
  let now := t.vaByte c va
  if old = now then old else if (Config.undefinedByte s.draws va).getLsbD 0 then old else now

/-- Bytes of the logical sequence that lie in one row: from a ring or another device when `src` gives them, else from this
device's memory; `s` is the state before the command's writes, `t` the present one. -/
def moveData (s t : State) (c : Nat) (m : MoveDesc) (idx : List (Option Nat)) (src : Option (Nat → Nat → List Byte)) (pos n : Nat) :
    List Byte :=
  let row := pos / m.rowLen
  let off := pos % m.rowLen
  match src with
  | some f => if m.kind = 1 ∧ m.tabIsSrc ∧ idx.getD row none = none then List.replicate n 0 else f pos n
  | none =>
    -- piece by piece; a piece that paddock RAM turns away reads zero (R340)
    let at_ (va : Nat) : List Byte := (unitPieces va n).flatMap (fun p =>
      let off := s.ramRefuses c false p.1 p.2
      (upTo p.2).map (fun i => if off then 0 else pickByte s t c (p.1 + i)))
    if m.kind = 1 then
      if m.tabIsSrc then
        match idx.getD row none with
        | some i => at_ (m.tabBase + i * m.tabStride + off)
        | none => List.replicate n 0
      else at_ (m.linBase + row * m.linStride + off)
    else at_ (m.src + row * m.srcStride + off)

/-- Write the pieces of `[lo, hi)` of the logical sequence. -/
def putPieces (s : State) (c : Nat) (data : State → Nat → Nat → List Byte) (lo hi : Nat) : List (Nat × Nat × Nat) → State → State
  | [], t => t
  | (pos, va, n) :: rest, t =>
    let a := max lo pos
    let b := min hi (pos + n)
    let t1 := if a < b then t.vaWrite c (va + (a - pos)) (data t a (b - a)) else t
    putPieces s c data lo hi rest t1

/-- Element bytes of a scatter's format (R210). -/
def scatterWidth (fmt : Nat) : Nat := match fmt with | 0 => 8 | 3 => 2 | _ => 4

/-- Is row r the first that names its table row? -/
def firstNaming (idx : List (Option Nat)) (r : Nat) : Bool := !(idx.take r).contains (idx.getD r none)

/-- The contributions of `[lo, hi)` of the linear side, element by element in increasing position (R212). -/
def scatterRange (c : Nat) (m : MoveDesc) (idx : List (Option Nat)) (data : State → Nat → Nat → List Byte) (lo hi : Nat) :
    List Nat → State × OpCount → State × OpCount
  | [], a => a
  | e :: rest, (t, k) =>
    let w := scatterWidth m.fmt
    let pos := e * w
    let r := pos / m.rowBytes
    let next : State × OpCount :=
      if lo < pos + w ∧ pos + w ≤ hi then
        match idx.getD r none with
        | some i =>
          let va := m.tabBase + i * m.tabStride + pos % m.rowBytes
          let x := scatterCombine m.op m.fmt m.sgn (firstNaming idx r) (leNat (t.vaBytes c va w)) (leNat (data t pos w))
          (t.vaWrite c va (leBytes w x.e.bits), k.plus x)
        | none => (t, k)
      else (t, k)
    scatterRange c m idx data lo hi rest next

/-- Counts of an operation added to a command's counts. -/
def Counts.addOps (k : Counts) (o : OpCount) : Counts :=
  { k with invalid := k.invalid + o.invalid, zinf := k.zinf + o.zinf, overflow := k.overflow + o.overflow, flush := k.flush + o.flush }

/-- What a MOVE does in this device's memory for `[lo, hi)` of its logical sequence (R211, R212, R275). -/
def State.moveRange (s : State) (c : Nat) (m : MoveDesc) (idx : List (Option Nat)) (src : Option (Nat → Nat → List Byte)) (lo hi : Nat) :
    State × OpCount :=
  let data (t : State) (pos n : Nat) : List Byte := moveData s t c m idx src pos n
  let r :=
    if m.kind = 1 ∧ 2 ≤ m.op then
      if s.spLocal m.tabSp m.dev then scatterRange c m idx data lo hi (upTo (m.total / scatterWidth m.fmt)) (s, OpCount.zero)
      else (s, OpCount.zero)
    else (putPieces s c data lo hi (s.moveWrites c m idx) s, OpCount.zero)
  ({ r.1 with draws := s.draws + 1 }, r.2)

/-- The whole logical sequence `[lo, hi)` as bytes, for a ring or another device. -/
def State.moveBytes (s : State) (c : Nat) (m : MoveDesc) (idx : List (Option Nat)) (src : Option (Nat → Nat → List Byte)) (lo hi : Nat) :
    List Byte :=
  (upTo (if m.kind = 1 then m.count else m.rows)).flatMap (fun r =>
    let a := max lo (r * m.rowLen)
    let b := min hi ((r + 1) * m.rowLen)
    if a < b then moveData s s c m idx src a (b - a) else [])

/-! ## DRAIN (R151) -/

/-- The bytes of row m of gang stall `st`. -/
def drainRow (a : AcsSt) (x : DrainDesc) (st m : Nat) : List Byte :=
  (upTo x.cols).flatMap (fun k => leBytes x.bytes (acsEntry a st (256 * x.seg + (m * x.cols + k) * x.w) x.wide).bits)

/-- The writes of a DRAIN: one context per stall. -/
def State.drainAccs (s : State) (c : Nat) (x : DrainDesc) : List (Acc × List Byte) :=
  (upTo x.rows).flatMap (fun m => (upTo x.count).map (fun g =>
    let n := x.cols * x.bytes
    ({ ctx := g, pos := m * n, write := true, va := x.dest + m * x.stride + g * n, n := n },
      drainRow s.acs x (s.lastMember c (x.base + g)) m)))

/-- Bytes a DRAIN writes. -/
def DrainDesc.total (x : DrainDesc) : Nat := x.rows * x.count * x.cols * x.bytes

/-! ## CTX_SAVE and CTX_RESTORE (R156 to R160) -/

/-- Address of record j of stall i of an image. -/
def recordAddr (x : CtxDesc) (i j : Nat) : Nat := x.image + 64 + 1664 * (i * x.segs + j)

/-- Bytes of an image. -/
def CtxDesc.total (x : CtxDesc) : Nat := 64 + 1664 * x.count * x.segs

/-- The records of an image: stall index i and segment index j in image order. -/
def CtxDesc.records (x : CtxDesc) : List (Nat × Nat) := (upTo x.count).flatMap (fun i => (upTo x.segs).map (fun j => (i, j)))

/-- The writes of a CTX_SAVE: one context per stall, the header with the first. `time` is the timebase value at release. -/
def State.saveAccs (s : State) (corral time : Nat) (x : CtxDesc) : List (Acc × List Byte) :=
  ({ ctx := 0, pos := 0, write := true, va := x.image, n := 64 }, imageHeader corral (x.count * x.segs) time)
    :: x.records.map (fun p =>
      ({ ctx := p.1, pos := (if p.1 = 0 then 64 else 0) + 1664 * p.2, write := true, va := recordAddr x p.1 p.2, n := 1664 },
        segRecord s.acs (x.stall + p.1) (x.seg + p.2)))

/-- The reads of a CTX_RESTORE. -/
def restoreAccs (x : CtxDesc) : List Acc :=
  { ctx := 0, pos := 0, write := false, va := x.image, n := 64 }
    :: x.records.map (fun p =>
      { ctx := p.1, pos := (if p.1 = 0 then 64 else 0) + 1664 * p.2, write := false, va := recordAddr x p.1 p.2, n := 1664 })

/-! ## MATRIX -/

/-- The mask a stage has read. -/
def stageMask (c : Cmd) (stage : Nat) : Option (List Byte) := smGet (fun _ => none) c.masks stage

/-- The descriptor of a MATRIX command as it reads its operands: a stage with IN0 reads packed rows from its ring (R289), and a
stage with a predicate the mask it read as it began (R209). -/
def matSource (x : MatDesc) (f : MatFmts) (ring mask : Bool) : MatDesc :=
  let y := if ring then { x with aBase := ringView, aStride := packedBytes f.a.fmt x.k } else x
  if mask then { y with predAddr := maskView } else y

/-- The reader of a MATRIX command. -/
def State.matReader (s : State) (c : Nat) (ring mask : List Byte) : Reader :=
  let a := ring.toArray
  fun va =>
    if maskView ≤ va then (mask.getD (va - maskView) 0).toNat
    else if ringView ≤ va then (a.getD (va - ringView) 0).toNat else s.vaRd c va

/-- Accesses in the order given, with rising positions. -/
def seqAccs (ctx pos : Nat) : List (Nat × Nat) → List Acc
  | [] => []
  | (va, n) :: t => { ctx := ctx, pos := pos, write := false, va := va, n := n } :: seqAccs ctx (pos + n) t

/-- How far the parts of a stream come: through, with its position then; to an access that fails; or to data against its rules. -/
inductive GateEnd where
  | through (pos : Nat)
  | stop (f : AccFail)
  | bad
  deriving DecidableEq, Repr

/-- Read the parts of a stream in order from position `pos`. -/
def State.runGates (s : State) (c : Cmd) (ctx : Nat) : Nat → List (Unit → Gate) → GateEnd
  | pos, [] => .through pos
  | pos, g :: t =>
    let l := seqAccs ctx pos (g ()).reads
    match s.firstFail c l with
    | some f => .stop f
    | none => if (g ()).ok then s.runGates c ctx (pos + (l.map (·.n)).foldl (· + ·) 0) t else .bad

/-- Where a context stood when the command's M-chunk began. -/
def FoldSt.mark (k : FoldSt) (ctx : Nat) : Nat := k.marks.getD ctx 0

/-- How the streaming context comes through its M-chunk (R258). -/
def State.streamEnd (s : State) (c : Cmd) (x : MatDesc) (f : MatFmts) (rd : Reader) (ring : Bool) : GateEnd :=
  s.runGates c 0 (c.fold.mark 0) (streamGates x f rd ring c.fold.chunk)

/-- How the stationary context of slice j comes through its M-chunk, where the streaming one has. -/
def State.tileEnd (s : State) (c : Cmd) (x : MatDesc) (f : MatFmts) (rd : Reader) (j : Nat) : GateEnd :=
  s.runGates c (3 * j + 1) (c.fold.mark (3 * j + 1)) (tileGates x f rd (s.gangLen c.corral) j c.fold.chunk)

/-- The result rows of a WRITE's M-chunk (R139, R185, R207): active rows only, one context per N-slice. -/
def matWriteAccs (x : MatDesc) (f : MatFmts) (k : FoldSt) (vals : Nat → Nat → Nat) : List (Acc × List Byte) :=
  let rb := resultBytes x f
  let cc := colsPerStall f
  (upTo k.rows.length).flatMap (fun i => (upTo (nSlices x f)).map (fun j =>
    let m := k.rows.getD i 0
    let cols := min cc (x.n - j * cc)
    ({ ctx := 3 * j + 2, pos := k.mark (3 * j + 2) + i * cols * rb, write := true, va := x.cBase + m * x.cStride + j * cc * rb,
       n := cols * rb },
      (upTo cols).flatMap (fun n => leBytes rb (vals m (j * cc + n))))))

/-- Carry out writes from the positions their streams have reached. -/
def State.putWrites (s : State) (c : Cmd) : List (Acc × List Byte) → State → State
  | [], t => t
  | (a, bs) :: rest, t =>
    let b := a.from_ (s.ctxPos c a.ctx)
    s.putWrites c rest (t.vaWrite c.corral b.va (bs.drop (a.n - b.n)))

/-- Carry out writes, whose units go to the controllers (R262). -/
def State.doWrites (s : State) (c : Cmd) (l : List (Acc × List Byte)) : State :=
  ((s.putWrites c l s).useAccs c.corral (l.map (fun p => p.1.from_ (s.ctxPos c p.1.ctx)))).1

/-- Trough words a MATRIX command leaves (R136, R137). -/
def State.writeTrough (s : State) (c : Nat) : List (Option Nat × Nat × List Byte) → State
  | [] => s
  | (some st, off, bs) :: t => (s.wr (stallAddr st off) bs).writeTrough c t
  | (none, va, bs) :: t => (s.vaWrite c va bs).writeTrough c t

/-- The HBM trough's accesses: read and written through the corral's translations (R135). -/
def troughAccs (x : MatDesc) (f : MatFmts) (pos : Nat) : List Acc :=
  if x.ctl.spill ≠ 0 ∧ x.ctl.troughHbm then
    [{ ctx := 2, pos := pos, write := true, va := x.ctl.trough, n := 16 * footprint x f },
     { ctx := 2, pos := pos, write := false, va := x.ctl.trough, n := 16 * footprint x f }]
  else []

/-- Entries read out of each store by a WRITE (R168). -/
def State.writeCounters (s : State) (c : Nat) (x : MatDesc) (f : MatFmts) (rows : Nat) : State :=
  (upTo (gangsUsed x f)).foldl (fun t g =>
    let j := g % nSlices x f
    t.bump .ACS_DRAIN_COUNT (s.lastMember c (x.gangBase + g)) 0 (rows * min (colsPerStall f) (x.n - j * colsPerStall f))) s

end Sys2Proof.Machine
end

