-- ==== Sys2Proof/Machine/Team.lean ====
section
/-!
DEFINITION. The team at work (chapter 03): the stationary loader and the relay (R89 to R93), the elastic buffers (R106 to R109), and
what the team counts (R122). A team's waits change no result (R109), so the results of a command are computed elsewhere
(Machine/Matrix.lean); here its rows and columns go on beat by beat. DESIGN CHOICE (log 112): one beat a nanosecond of the timebase; which
feeder, column and load goes on in a beat is a free value; a hop between gang members takes one beat more.
-/

namespace Sys2Proof.Machine

/-! ## Steps -/

/-- What step `k` of a list of passes is: none past the end, else the pass and whether it is its relay (R91). -/
def stepOf : List (Nat × Nat) → Nat → Option (Nat × Bool)
  | [], _ => none
  | (_, rows) :: t, k => if k ≤ rows then some (0, k == 0) else (stepOf t (k - rows - 1)).map (fun p => (p.1 + 1, p.2))

/-- Relays among the first `k` steps. -/
def relaysIn : List (Nat × Nat) → Nat → Nat
  | [], _ => 0
  | (_, rows) :: t, k => if k = 0 then 0 else if k ≤ rows then 1 else 1 + relaysIn t (k - rows - 1)

/-- Elements among the first `k` steps. -/
def elemsIn (l : List (Nat × Nat)) (k : Nat) : Nat := k - relaysIn l k

/-- Steps of a job (R91). -/
def TeamJob.steps (j : TeamJob) : Nat := (j.passes.map (fun p => p.2 + 1)).foldl (· + ·) 0

/-- Elements each row takes in a job. -/
def TeamJob.elems (j : TeamJob) : Nat := (j.passes.map (·.2)).foldl (· + ·) 0

/-- Steps a cell has done. -/
def TeamSt.at_ (t : TeamSt) (row col : Nat) : Nat := t.done.getD (8 * row + col) 0

/-- Elements a cell has taken. -/
def TeamSt.took (t : TeamSt) (j : TeamJob) (row col : Nat) : Nat := elemsIn j.passes (t.at_ row col)

/-- The partial sum a cell takes next has come (R87, R96): row 0 of a gang's head starts from the identity. `above` is the member
above the team, as the beat finds both. -/
def sumHere (old : TeamSt) (j : TeamJob) (above : Option TeamSt) (row col k : Nat) : Bool :=
  if row = 0 then
    match j.up, above with
    | none, _ => true
    | some _, some a => decide (k < a.sent.getD col 0)
    | some _, none => false
  else decide (k < old.at_ (row - 1) col)

/-- There is room below a cell: the two-entry buffer of the cell below, or the eight-entry output buffer of the column (R106). -/
def roomBelow (t : TeamSt) (j : TeamJob) (row col : Nat) : Bool :=
  if row < 7 then decide (t.took j row col < t.took j (row + 1) col + 3)
  else if j.down.isSome then decide (t.at_ 7 col < t.sent.getD col 0 + 2)
  else decide (t.took j 7 col < t.sent.getD col 0 + 8)

/-- A relay may begin, or goes on, at row 0 (R92): the standby sets are READY, or this relay has them SWAPPING. -/
def relayOpen (t : TeamSt) (pass : Nat) : Bool :=
  (t.phase == .ready && t.swaps == pass) || (t.phase == .swapping && t.swaps == pass + 1)

/-- May a cell go on (R87, R91, R106)? At a relay once its row's marked element has come; at an element once its row has broadcast
it, with its partial sum here and room below. -/
def cellMay (old t : TeamSt) (j : TeamJob) (above : Option TeamSt) (row col : Nat) : Bool :=
  let k := t.at_ row col
  match stepOf j.passes k with
  | none => false
  | some (p, true) =>
    decide (t.took j row col < t.arrived.getD row 0) && sumHere old j above row col k && (row != 0 || relayOpen t p)
  | some (_, false) => decide (t.took j row col < t.taken.getD row 0) && sumHere old j above row col k && roomBelow t j row col

/-- A row waits on its feeder (R107): it has no element, and some cell of it has a partial sum waiting. -/
def rowWaits (old t : TeamSt) (j : TeamJob) (above : Option TeamSt) (row : Nat) : Bool :=
  t.arrived.getD row 0 == t.taken.getD row 0 && decide (t.taken.getD row 0 < j.elems)
    && (upTo 8).any (fun col =>
      t.took j row col == t.taken.getD row 0 && (match stepOf j.passes (t.at_ row col) with | some (_, false) => true | _ => false)
        && sumHere old j above row col (t.at_ row col))

/-- A column waits for the accumulator store (R108): its output buffer is full. -/
def colWaits (t : TeamSt) (j : TeamJob) (col : Nat) : Bool := j.down.isNone && t.took j 7 col == t.sent.getD col 0 + 8

/-- Row 0 waits for the standby sets (R92). -/
def relayWaits (t : TeamSt) (j : TeamJob) : Bool :=
  (match stepOf j.passes (t.at_ 0 0) with | some (_, true) => true | _ => false)
    && decide (t.took j 0 0 < t.arrived.getD 0 0) && (t.phase == .empty || t.phase == .loading)

/-- A column holds no partial sum and no chain result (R116). -/
def colEmpty (t : TeamSt) (j : TeamJob) (col : Nat) : Bool :=
  (upTo 8).all (fun row => t.at_ row col == t.at_ 0 col)
    && (if j.down.isSome then t.sent.getD col 0 == t.at_ 0 col else t.sent.getD col 0 == t.took j 0 col)

/-- STL_STATUS.COLQ (R116). -/
def TeamSt.colq (t : TeamSt) : Nat :=
  match t.job with | none => 0xFF | some j => ((upTo 8).filter (fun col => colEmpty t j col)).foldl (fun n col => n + 2 ^ col) 0

/-- STL_STATUS.QUIET (R116). -/
def TeamSt.quiet (t : TeamSt) : Bool := t.colq == 0xFF

/-! ## A beat -/

/-- A cell does its next step: a relay exchanges its sets (R91). -/
def cellStep (t : TeamSt) (j : TeamJob) (row col : Nat) : TeamSt :=
  let i := 8 * row + col
  let k := t.done.getD i 0
  let t1 : TeamSt := { t with done := t.done.set i (k + 1) }
  match stepOf j.passes k with
  | some (_, true) =>
    { t1 with
      active := t.active.set i (t.standby.getD i RegSet.zero), standby := t.standby.set i (t.active.getD i RegSet.zero)
      phase := if row = 0 then .swapping else t.phase
      swaps := if row = 0 ∧ t.phase = .ready then t.swaps + 1 else t.swaps }
  | _ => t1

/-- A row in one beat: an element may come to its feeder, one is broadcast where every cell has room, and its cells go on (R106). -/
def rowBeat (old : TeamSt) (j : TeamJob) (above : Option TeamSt) (row : Nat) (comes : Bool) (t : TeamSt) : TeamSt :=
  let a := t.arrived.getD row 0
  let k := t.taken.getD row 0
  let a1 := if comes ∧ a < j.elems ∧ a < k + 16 then a + 1 else a
  let k1 := if k < a1 ∧ (upTo 8).all (fun col => decide (k < t.took j row col + 8)) then k + 1 else k
  let t1 : TeamSt := { t with arrived := t.arrived.set row a1, taken := t.taken.set row k1 }
  (upTo 8).foldl (fun u col => if cellMay old u j above row col then cellStep u j row col else u) t1

/-- What leaves a column in one beat: to the accumulator store where it takes a chain result, or to the member below. -/
def colBeat (old : TeamSt) (j : TeamJob) (below : Option TeamSt) (col : Nat) (takes : Bool) (t : TeamSt) : TeamSt :=
  let n := t.sent.getD col 0
  let go :=
    match j.down, below with
    | some _, some b => decide (n < old.at_ 7 col) && decide (n < b.at_ 0 col + 3)
    | some _, none => false
    | none, _ => takes && decide (n < old.took j 7 col)
  if go then { t with sent := t.sent.set col (n + 1) } else t

/-- The standby state after the beat: EMPTY once row 7 has swapped; a new load begins where it was EMPTY (R92, R93). -/
def standbyBeat (old : TeamSt) (j : TeamJob) (need : Nat) (t : TeamSt) : TeamSt :=
  if t.phase = .swapping ∧ (upTo 8).all (fun col => decide (t.swaps ≤ relaysIn j.passes (t.at_ 7 col))) then
    { t with phase := .empty }
  else if old.phase = .empty ∧ t.loads < j.passes.length then { t with phase := .loading, words := 0, loads := t.loads + 1 }
  else if t.phase = .loading ∧ need ≤ t.words then { t with phase := .ready }
  else t

/-! ## The stationary loader (R85, R86, R89, R93) -/

/-- Lanes of a cell: its pattern in each lane slot. -/
def laneBits (width : Nat) (v : Nat → Nat) (lanes : Nat) : Nat := (upTo lanes).foldl (fun a l => a + v l * 2 ^ (width * l)) 0

/-- Parity bits, one for each 16 of a set's 108 bits (R89). DESIGN CHOICE (log 112): even parity. -/
def setParity (value ext index : Nat) : Nat :=
  let bits := value + ext * 2 ^ 64 + index * 2 ^ 80
  laneBits 1 (fun i => popcount 16 (bits / 2 ^ (16 * i)) % 2) 7

/-- The register set of cell (row, column) for tile kg of slice j (R86, R195): zero where a block is absent (R200). -/
def cellSet (x : MatDesc) (f : MatFmts) (rd : Reader) (j kg row col : Nat) : RegSet :=
  let lanes := cmdLanes f
  let width := 64 / lanes
  let there (l : Nat) : Bool := decide (kg < tilesPerSlice x) && blockPresent x f rd j kg ((8 * l + col) / 8)
  let pat (l : Nat) : Nat := if there l then storedW x f rd j kg row (8 * l + col) else 0
  let tf32 := f.w.fmt == .tf32
  let value := laneBits width (fun l => if tf32 then pat l / 2 ^ 16 else pat l % 2 ^ width) lanes
  let ext := if tf32 then laneBits 3 (fun l => pat l / 2 ^ 13 % 8) lanes else 0
  let index := if x.wSparse = 0 then 0 else laneBits 2 (fun l => if there l then sparseIndex x f rd j kg row (8 * l + col) else 0) lanes
  { value := value, ext := ext, index := index, parity := setParity value ext index }

/-- All sets of a tile, 8 × row + column. -/
def tileSets (x : MatDesc) (f : MatFmts) (rd : Reader) (j kg : Nat) : List RegSet :=
  (upTo 64).map (fun i => cellSet x f rd j kg (i / 8) (i % 8))

/-- DAT transfers of one load (R93): 4, with the index field 2 more, with the TF32 extensions 1 more. -/
def loadTransfers (x : MatDesc) (f : MatFmts) : Nat := 4 + (if x.wSparse = 0 then 0 else 2) + b2n (f.w.fmt == .tf32)

/-- One transfer of a load: transfers 0 to 3 bring the values of 16 cells each; the ones after them the index fields of 32 cells each,
and the last of a TF32 load the extensions. -/
def takeTransfer (x : MatDesc) (n : Nat) (sets : List RegSet) (t : TeamSt) : TeamSt :=
  let here (i : Nat) : Bool := if n < 4 then i / 16 == n else if x.wSparse ≠ 0 ∧ n < 6 then i / 32 == n - 4 else true
  { t with
    words := n + 1
    standby := (upTo 64).map (fun i =>
      let old := t.standby.getD i RegSet.zero
      let new := sets.getD i RegSet.zero
      if !here i then old
      else
        let v : RegSet := if n < 4 then { old with value := new.value }
          else if x.wSparse ≠ 0 ∧ n < 6 then { old with index := new.index } else { old with ext := new.ext }
        { v with parity := setParity v.value v.ext v.index }) }

/-! ## Teams of the device -/

/-- A stall's team. -/
def State.team (s : State) (st : Nat) : TeamSt := (smGet (fun _ => StlSt.idle) s.stls st).team

/-- Replace a stall's team. -/
def State.setTeam (s : State) (st : Nat) (t : TeamSt) : State :=
  { s with stls := smSet (fun _ => StlSt.idle) s.stls st { smGet (fun _ => StlSt.idle) s.stls st with team := t } }

/-- What one beat of a team counts (R92, R107, R108, R122): its K-steps and relays at row 0, and its waits. -/
def State.countBeat (s : State) (st : Nat) (old t : TeamSt) (j : TeamJob) (above : Option TeamSt) : State :=
  let s1 := if t.at_ 0 0 = old.at_ 0 0 then s else s.bump .STL_BEAT_COUNT st 0 1
  let s2 := if t.swaps = old.swaps then s1 else s1.bump .STL_RELAY_COUNT st 0 1
  let s3 := if relayWaits t j ∧ t.at_ 0 0 = old.at_ 0 0 then s2.bump .STL_RELAY_WAIT st 0 1 else s2
  let s4 := (upTo 8).foldl (fun u row => if rowWaits old t j above row then u.bump .STL_WAIT_ROW st row 1 else u) s3
  (upTo 8).foldl (fun u col => if colWaits t j col then u.bump .STL_WAIT_COL st col 1 else u) s4

/-- What a team does in one beat, with the free bits that say which feeders (0 to 7), columns (8 to 15) and load (16) go on. `now` is
the state as the beat finds it. -/
def teamBeat (now : State) (st : Nat) (j : TeamJob) (x : MatDesc) (f : MatFmts) (rd : Reader) (free : Nat) (open_ : Bool) : TeamSt :=
  let old := now.team st
  let above := j.up.map now.team
  let t1 : TeamSt :=
    if j.slow ∧ now.time % 2 = 1 then old
    else
      let rows := [7, 6, 5, 4, 3, 2, 1, 0].foldl (fun t row => rowBeat old j above row (open_ && bitAt free row) t) old
      (upTo 8).foldl (fun t col => colBeat old j (j.down.map now.team) col (bitAt free (8 + col)) t) rows
  let t2 :=
    if old.phase = .loading ∧ open_ ∧ bitAt free 16 ∧ old.words < loadTransfers x f then
      takeTransfer x old.words (tileSets x f rd j.slice (j.passes.getD (old.loads - 1) (0, 0)).1) t1
    else t1
  standbyBeat old j (loadTransfers x f) t2

/-- A team has finished its M-chunk with its command's results: what it had not counted yet is counted, its active sets hold the last
K-block, and its standby is EMPTY (R92, R122). -/
def State.endTeam (s : State) (st : Nat) (c : Cmd) (stage relays rows : Nat) (last : Option (List RegSet)) : State :=
  let t := s.team st
  let mine := match t.job with
    | some j => j.queue == c.queue && j.seq == c.seq && j.stage == stage && j.chunk == c.fold.chunk
    | none => false
  let steps := if mine then t.at_ 0 0 else 0
  let swaps := if mine then t.swaps else 0
  ((s.bump .STL_BEAT_COUNT st 0 (rows + relays - steps)).bump .STL_RELAY_COUNT st 0 (relays - swaps)).setTeam st
    (TeamSt.withSets (last.getD t.active) t.standby)

end Sys2Proof.Machine
end

