-- ==== Sys2Proof/Machine/Fold.lean ====
section
/-!
DEFINITION. The work of MATRIX commands and stages, M-chunk by M-chunk (R180, R182): the passes of the teams, write-out (R154, R155), and
the device tree (R141 to R144, R513).
-/

namespace Sys2Proof.Machine

/-- What an attempt at the work of a command or stage gives: it has to wait; it fails and leaves the state given, with a code, DETAIL,
an uncorrectable word and the counts so far; it has made progress; or it is done, with the bytes it makes for a ring. -/
inductive Work where
  | wait
  | fail (s : State) (code detail : Nat) (badWord : Option Nat) (counts : Counts)
  | part (s : State) (c : Cmd)
  | done (s : State) (c : Cmd) (out : List Byte)

/-- A failed access as an outcome: a translation is left to XLATE_FAULT_HALT (R269), with the progress made. -/
def AccFail.work (f : AccFail) (s : State) (c : Cmd) : Work :=
  match f.err with
  | .xlate _ _ => .part s c
  | .code e w => .fail s e 0 w c.counts

/-- A slice of a byte list as a source of a stream. -/
def sliceOf (bs : List Byte) (base : Nat) : Nat → Nat → List Byte := fun pos n => (bs.drop (pos - base)).take n

/-- Advance context `i` of a command to a position (R256). -/
def State.advance (s : State) (c : Cmd) (i pos : Nat) : State :=
  match c.ctxs[i]? with
  | some k => s.setCtx k { s.ctx k with pos := pos, advanced := s.time }
  | none => s

/-! ## The order of a team's commands (R154, R182) -/

/-- The rows of a MATRIX descriptor that a team has still to stream. -/
def matLeft (x : MatDesc) (k : FoldSt) : Bool :=
  match matFmtsOf x with
  | some f => !matIsNoop x && decide (k.chunk + b2n k.streamed < chunkCount x f)
  | none => false

/-- Stalls whose team has rows of a command still to stream. -/
def State.rowsLeft (s : State) (c : Cmd) : List Nat :=
  if c.phase ≠ .running then []
  else if descClass c.desc = 1 then (if matLeft (matDescOf c.desc) c.fold then s.stallsOne c.corral c.desc else [])
  else if descClass c.desc = 5 then
    (upTo c.stages.length).flatMap (fun i =>
      let r := c.stageTabs.getD i []
      let k := if c.stages.getD i .done = .running ∧ c.owner = i then c.fold else FoldSt.start
      match c.stages.getD i .done with
      | .done => []
      | .skipped => []
      | .executed => []
      | _ => if descClass r = 1 ∧ matLeft (matDescOf r) k then s.stallsOne c.corral r else [])
  else []

/-- A stage or command whose stalls are QUIET where it needs that (R154). -/
def isFreed (c : Cmd) (stage : Nat) : Bool := if descClass c.desc = 5 then c.freed.contains stage else c.released != 0

/-- The stages of a command that read a store once it is QUIET (R154): DRAIN and WRITE stages that run; stage 0 of a command that is no
tandem. -/
def quietStages (c : Cmd) : List Nat :=
  let needs (d : List Word) : Bool := descClass d == 4 || descClass d == 7 || (descClass d == 1 && (matDescOf d).ctl.disp == 1)
  if c.phase ≠ .running then []
  else if descClass c.desc = 5 then
    (upTo c.stages.length).filter (fun i => c.stages.getD i .done == .running && needs (c.stageTabs.getD i []))
  else if needs c.desc then [0]
  else []

/-- The descriptor or stage record of a stage. -/
def stageDesc (c : Cmd) (i : Nat) : List Word := if descClass c.desc = 5 then c.stageTabs.getD i [] else c.desc

/-- Those of them that still wait for release. -/
def needRelease (c : Cmd) : List Nat := (quietStages c).filter (fun i => !isFreed c i)

/-- A stage has come to its release: a WRITE when its rows are streamed. -/
def atRelease (c : Cmd) (i : Nat) : Bool :=
  descClass (stageDesc c i) != 1 || (c.fold.streamed && (descClass c.desc != 5 || c.owner == i))

/-- Stalls on which a command waits for release (R154), or reads a store after it (R164). -/
def State.storeStalls (s : State) (c : Cmd) (freed : Bool) : List Nat :=
  ((quietStages c).filter (fun i => isFreed c i == freed && atRelease c i)).flatMap (fun i => s.stallsOne c.corral (stageDesc c i))

/-- Stalls on which a command waits for release. -/
def State.awaits (s : State) (c : Cmd) : List Nat := s.storeStalls c false

/-- The teams of a list of stalls may start rows of a command (R154, R182): no command granted before it has rows to stream there, and
none waits for release. `cmds` stands in the order of the grants. -/
def State.teamsOpen (s : State) (c : Cmd) (stalls : List Nat) : Bool :=
  let before := s.cmds.takeWhile (fun x => !(x.queue == c.queue && x.seq == c.seq))
  !before.any (fun x => keysMeet (s.rowsLeft x) stalls) && !s.cmds.any (fun x => keysMeet (s.awaits x) stalls)

/-! ## One M-chunk -/

/-- Counts of a run. -/
def runCounts (k : Counts) (r : MatRun) (stage : Nat) : Counts :=
  let k1 := k.addOps r.cnt
  let f := firstInvalid r.outs
  { k1 with
    skipK := k.skipK + r.skipK, skipRows := k.skipRows + r.skipRows, skipGangs := k.skipGangs + r.skipGangs
    first := match k.first with
      | some v => if k.firstStage ≤ stage then some v else (f.map (fun p => (p.1, p.2, false))).orElse (fun _ => some v)
      | none => f.map (fun p => (p.1, p.2, false))
    firstStage := match k.first with
      | some _ => if k.firstStage ≤ stage then k.firstStage else if f.isSome then stage else k.firstStage
      | none => if f.isSome then stage else 0 }

/-- The results of a chunk as they are written, by row and column (R139). -/
def chunkVals (x : MatDesc) (f : MatFmts) (c : Cmd) (vals : List Entry) (m n : Nat) : Combined :=
  resultValue x f (vals.toArray.getD ((m - c.fold.chunk * chunkRows x f) * x.n + n) (identityEntry x.mode f.acc f.accSgn))

/-- The entries a byte list holds. -/
def entriesOf (n : Nat) (bs : List Byte) : List Entry := (upTo n).map (fun i => troughOf ((bs.drop (16 * i)).take 16))

/-- The values of the chunk a command is at. -/
def FoldSt.entries (k : FoldSt) : List Entry := entriesOf (k.vals.length / 16) k.vals

/-- What an M-chunk, or a part of its work, ends in: the attempt ends there, or the work goes on. -/
inductive ChunkEnd where
  | ends (w : Work)
  | on (s : State) (c : Cmd)

/-- The command goes on with its next M-chunk, its contexts at the bytes they have taken. -/
def Cmd.nextChunk (c : Cmd) (marks : List Nat) (made : List Byte) : Cmd :=
  { c with fold := { FoldSt.start with chunk := c.fold.chunk + 1, marks := marks, made := c.fold.made ++ made } }

/-- Set the mark of a context. -/
def setMark (l : List Nat) (i v : Nat) : List Nat := (upTo (max l.length (i + 1))).map (fun k => if k = i then v else l.getD k 0)

/-- The write-out of a chunk (R139, R155, R185): to memory, or packed row by row to its ring (R289). -/
def State.writeChunk (s : State) (c : Cmd) (x : MatDesc) (f : MatFmts) (out : Bool) : ChunkEnd :=
  let val := chunkVals x f c c.fold.entries
  let w := matWriteAccs x f c.fold (fun m n => (val m n).e.bits)
  let ops := (c.fold.rows.flatMap (fun m => (upTo x.n).map (fun n => val m n))).foldl (fun k v => k.plus v) OpCount.zero
  let c1 := { c with counts := c.counts.addOps ops }
  let marks := w.foldl (fun l p => setMark l p.1.ctx (p.1.pos + p.1.n)) c.fold.marks
  if out then .on (s.writeCounters c.corral x f c.fold.rows.length) (c1.nextChunk c.fold.marks (w.flatMap (·.2)))
  else
    match s.firstFail c (w.map (·.1)) with
    | some e => .ends (e.work s c)
    | none => .on ((s.doWrites c w).writeCounters c.corral x f c.fold.rows.length) (c1.nextChunk marks [])

/-- The counts of a chunk's teams (R122) and stores (R168): each team ends its job for the chunk. -/
def State.endTeams (s : State) (c : Cmd) (x : MatDesc) (f : MatFmts) (rd : Reader) (stage : Nat) (r : MatRun) : State :=
  let len := s.gangLen c.corral
  let s1 := r.spilled.foldl (fun t p => t.bump .ACS_SPILL_COUNT p.1 0 p.2) s
  r.passes.foldl (fun t p =>
    let q := (p.1 - x.gangBase) / nSlices x f
    let j := (p.1 - x.gangBase) % nSlices x f
    let done := passesOf x f rd len q j c.fold.chunk
    (upTo len).foldl (fun u g =>
      let st := (s.gangHeads c.corral).getD p.1 0 + 32 * g
      let kg (b : Nat) : Nat := ((partRange x q).1 + b * blockSpan x len) / (8 * density x.wSparse) + g
      u.endTeam st c stage p.2.1 p.2.2 (done.getLast?.map (fun b => tileSets x f rd j (kg b)))) t) s1

/-- The streams of a chunk have brought what it needs: the position of each context, or where one of them stops. -/
def State.chunkStreams (s : State) (c : Cmd) (x : MatDesc) (f : MatFmts) (rd : Reader) (ring : Bool) : List Nat × GateEnd :=
  match s.streamEnd c x f rd ring with
  | .through p =>
    (upTo (nSlices x f)).foldl (fun (a : List Nat × GateEnd) j =>
      match a.2 with
      | .through _ =>
        match s.tileEnd c x f rd j with
        | .through q => (setMark a.1 (3 * j + 1) q, .through q)
        | e => (a.1, e)
      | _ => a) (setMark c.fold.marks 0 p, .through p)
  | e => (c.fold.marks, e)

/-- The accesses of a chunk's streams, its trough's among them. -/
def State.chunkAccs (s : State) (c : Cmd) (x : MatDesc) (f : MatFmts) (rd : Reader) (ring : Bool) : List Acc :=
  let of_ (l : List (Unit → Gate)) : List Acc := seqAccs 0 0 (l.flatMap (fun g => (g ()).reads))
  of_ (streamGates x f rd ring c.fold.chunk)
    ++ (upTo (nSlices x f)).flatMap (fun j => of_ (tileGates x f rd (s.gangLen c.corral) j c.fold.chunk))
    ++ troughAccs x f (c.fold.mark 2)

/-- The per-row cursors of a sparse streaming operand after a chunk: the present values of each of its rows that have been read (R206,
R256). -/
def rowCursors (x : MatDesc) (f : MatFmts) (rd : Reader) (ch : Nat) : List Nat :=
  if x.aEnc = 0 then []
  else (chunkList x f ch).map (fun m => if (activeRows x f rd ch).contains m then (rowElems x rd m).length else 0)

/-- Stream the rows of a chunk (R180): its mask read and its operands brought, its chain results taken by the store, and its results
kept for the write-out. HALT_ON_INVALID ends it (R81), with what its teams have counted. -/
def State.streamChunk (s : State) (c : Cmd) (x : MatDesc) (f : MatFmts) (rd : Reader) (stage : Nat) (ring : Bool) : ChunkEnd :=
  match s.chunkStreams c x f rd ring with
  | (_, .stop e) => .ends (e.work s c)
  | (_, .bad) => .ends (.fail s E_SPARSE_DATA 0 none c.counts)
  | (marks, .through _) =>
    match s.firstFail c (troughAccs x f (c.fold.mark 2)) with
    | some e => .ends (e.work s c)
    | none =>
      let tr (st : Option Nat) (a : Nat) : Nat := match st with | some i => (s.rd (stallAddr i a)).toNat | none => s.vaRd c.corral a
      let r := runChunk x f rd tr (s.lastMember c.corral) (s.gangLen c.corral) c.queue c.seq c.fold.chunk s.acs
      let k := runCounts c.counts r stage
      let s0 := ({ s with acs := r.acs } : State).writeTrough c.corral r.trough
      let s1 := (s0.useAccs c.corral (s.chunkAccs c x f rd ring)).1.endTeams c x f rd stage r
      if x.haltInvalid ∧ r.cnt.invalid ≠ 0 then .ends (.fail s1 E_HALT_INVALID 0 none k)
      else
        let rows := activeRows x f rd c.fold.chunk
        let s2 := (upTo (3 * nSlices x f)).foldl (fun t i => t.advance c i (marks.getD i 0)) s1
        let s2 := match c.ctxs[0]? with
          | some k => s2.setCtx k { s2.ctx k with cursors := rowCursors x f rd c.fold.chunk }
          | none => s2
        .on s2 { c with
          counts := k, inactive := c.inactive && rows.isEmpty
          fold := { c.fold with streamed := true, rows := rows, marks := marks, vals := r.outs.flatMap (fun o => troughBytes o.v)
                                tree := if 1 < x.ctl.partCount ∧ x.ctl.disp = 1 then some (0, s.time, stage) else none } }

/-! ## The device tree -/

/-- The header of a contribution's chunk (R513). -/
def treeHeader (x : MatDesc) (part chunk entries : Nat) : List Word :=
  [ BitVec.ofNat 64 (x.ctl.partCount * 2 ^ 52 + part * 2 ^ 40 + x.ctl.rgroup * 2 ^ 32 + x.shape * 2 ^ 26 + x.mode * 2 ^ 22
      + x.gangLen * 2 ^ 17 + x.ctl.init * 2 ^ 15 + x.ctl.disp * 2 ^ 13 + b2n x.ctl.outWide * 2 ^ 12),
    BitVec.ofNat 64 (x.aFmt * 2 ^ 56 + x.wFmt * 2 ^ 48 + x.accFmt * 2 ^ 40 + x.ctl.spill * 2 ^ 24),
    BitVec.ofNat 64 x.k, BitVec.ofNat 64 (chunk * 2 ^ 32 + entries) ]

/-- The device that runs a partition (R512). -/
def State.groupDev (s : State) (group part : Nat) : Nat :=
  let list := bitsOf (s.rdWord (s.fld .RNL_RGROUP_BASE 0 0 56 4 * 16 + 16 * group)) 56 0
  leNat (s.rdBytes (list + 2 * part) 2)

/-- The TREE packets of one chunk: the header with the first 30 entries, then 32 at a time (R490, R513). -/
def treePackets (hdr : List Word) (bs : List Byte) : List (Nat × List Byte) :=
  (0, wordsBytes hdr ++ bs.take 480) ::
    (upTo (cdiv (bs.length - 480) 512)).map (fun i => (480 + 512 * i, (bs.drop (480 + 512 * i)).take 512))

/-- Send packets in order; the code of the first that fails at its source. -/
def State.sendAll (s : State) (typ : Nat) : List ReinPkt → State × Option Nat
  | [] => (s, none)
  | p :: t => match s.sendPkt typ p with | (s1, none) => s1.sendAll typ t | (s1, some e) => (s1, some e)

/-- Send a chunk of a subtree's value to the holder of another partition (R143, R513). -/
def State.sendContribution (s : State) (c : Cmd) (x : MatDesc) (f : MatFmts) (dst : Nat) : State × Option (Nat × Nat) :=
  let dev := s.groupDev x.ctl.rgroup dst
  let ch := c.fold.chunk
  let hdr := treeHeader x x.ctl.partIndex ch (rowsOfChunk x f ch * x.n)
  if dev = s.devId then
    ({ s with rein := { s.rein with contribs := s.rein.contribs ++
        [{ dev := dev, corral := c.corral, group := x.ctl.rgroup, part := x.ctl.partIndex, chunk := ch, header := hdr,
           need := c.fold.vals.length, bytes := c.fold.vals }] } }, none)
  else
    let ps := (treePackets hdr c.fold.vals).map (fun p => mkPkt dev s.devId c.corral 0 0 1 (BitVec.ofNat 64 p.1) p.2.length p.2)
    match s.sendAll T_TREE ps with
    | (s1, some e) => (s1, some (e, dev))
    | (s1, none) => (s1, none)

/-- Reduction groups that commands in flight of a corral name. -/
def State.groupsUsed (s : State) (corral : Nat) : List Nat :=
  (s.cmds.filter (fun c => c.corral == corral)).flatMap (fun c =>
    if descClass c.desc = 1 then [(matDescOf c.desc).ctl.rgroup]
    else (c.stageTabs.filter (fun r => descClass r == 1)).map (fun r => (matDescOf r).ctl.rgroup))

/-- The contribution a node has received for the chunk it is at (R142, R144): of its corral, from the partition it waits for, for its
reduction group; else one whose group no command in flight of the corral names. DESIGN CHOICE (log 66): of several the oldest; one that a failed
or discarded reduction has left is held and taken like any other. -/
def State.contribution (s : State) (corral group part chunk : Nat) : Option Contribution :=
  let mine := s.rein.contribs.filter (fun k => k.corral == corral && k.part == part && k.chunk == chunk)
  match mine.find? (fun k => k.group == group) with
  | some k => some k
  | none => mine.find? (fun k => !(s.groupsUsed corral).contains k.group)

/-- The partition whose contribution a node at level `l` of the tree waits for (R141): none where it has another role there. -/
def treePartner (x : MatDesc) (l : Nat) : Option Nat :=
  let stride := 2 ^ l
  if x.ctl.partCount ≤ stride ∨ x.ctl.partIndex / stride % 2 = 1 ∨ x.ctl.partCount ≤ x.ctl.partIndex + stride then none
  else some (x.ctl.partIndex + stride)

/-- Combine a node's two values entry by entry (R141): values, counts and the first (m, n) whose invalid-origin flag it set; `m0` is the
first row of their M-chunk. -/
def treeCombine (x : MatDesc) (f : MatFmts) (m0 : Nat) : Nat → List Entry → List Entry → List Entry × OpCount × Option (Nat × Nat)
  | i, a :: as, b :: bs =>
    let r := treeReduce x f a b
    let t := treeCombine x f m0 (i + 1) as bs
    (r.e :: t.1, t.2.1.plus r, if r.cause.isSome then some (m0 + i / x.n, i % x.n) else t.2.2)
  | _, _, _ => ([], OpCount.zero, none)

/-- Merge a first-invalid coordinate into a command's counts (R78). -/
def Counts.addFirst (k : Counts) (p : Option (Nat × Nat)) (stage : Nat) : Counts :=
  match p with
  | none => k
  | some (m, n) =>
    match k.first with
    | some (a, b, v) =>
      if k.firstStage < stage ∨ (k.firstStage = stage ∧ (a < m ∨ (a = m ∧ b ≤ n))) then { k with first := some (a, b, v) }
      else { k with first := some (m, n, false), firstStage := stage }
    | none => { k with first := some (m, n, false), firstStage := stage }

/-- The roles of a device partition in the fixed tree of its chunk, level by level (R141 to R144): at its last level it sends its value
on, or, as partition 0, writes the result. A node that meets an invalid operation ends under HALT_ON_INVALID (R81). -/
def State.treeWork (s : State) (c : Cmd) (x : MatDesc) (f : MatFmts) (stage : Nat) (out : Bool) (level since : Nat) : Nat → ChunkEnd
  | 0 => .ends (.part s c)
  | fuel + 1 =>
    let p := x.ctl.partIndex
    let stride := 2 ^ level
    let ch := c.fold.chunk
    let at_ (c : Cmd) (l t : Nat) : Cmd := { c with fold := { c.fold with tree := some (l, t, stage) } }
    if x.ctl.partCount ≤ stride then s.writeChunk (at_ c level since) x f out
    else if p / stride % 2 = 1 then
      match s.sendContribution c x f (p - stride) with
      | (_, some (e, dev)) => .ends (.fail s e dev none c.counts)
      | (s1, none) => .on s1 (c.nextChunk c.fold.marks [])
    else
      match treePartner x level with
      | none => s.treeWork c x f stage out (level + 1) since fuel
      | some q =>
        match s.contribution c.corral x.ctl.rgroup q ch with
        | none => .ends (.part s (at_ c level since))
        | some k =>
          -- the node takes the contribution, whether or not its header agrees
          let s1 : State := { s with rein := { s.rein with contribs := s.rein.contribs.erase k } }
          if k.header != treeHeader x q ch (rowsOfChunk x f ch * x.n) then .ends (.fail s1 E_REDUCE_MISMATCH 0 none c.counts)
          else if k.bytes.length < k.need then .ends (.part s (at_ c level since))
          else
            let r := treeCombine x f (ch * chunkRows x f) 0 c.fold.entries (entriesOf (k.need / 16) k.bytes)
            let n := (c.counts.addOps r.2.1).addFirst r.2.2 stage
            if x.haltInvalid ∧ r.2.1.invalid ≠ 0 then .ends (.fail s1 E_HALT_INVALID 0 none n)
            else
              let c1 := { c with counts := n, fold := { c.fold with vals := r.1.flatMap troughBytes } }
              s1.treeWork (at_ c1 (level + 1) s.time) x f stage out (level + 1) s.time fuel

/-! ## The command or stage -/

/-- The M-chunks of a command in order (R180): each is streamed where the teams are open to it (R182), waits for release (R155), goes
through the device tree, and is written out before the next begins. -/
def State.matChunks (s : State) (c : Cmd) (x : MatDesc) (f : MatFmts) (rdOf : State → Reader) (stage : Nat) (ring out : Bool) : Nat → Work
  | 0 => .part s c
  | fuel + 1 =>
    let k := c.fold
    if chunkCount x f ≤ k.chunk then .done s { c with fold := FoldSt.start } k.made
    else if !k.streamed && !s.teamsOpen c (s.gangStalls c.corral x.gangBase (gangsUsed x f)) then .part s c
    else
      match (if k.streamed then .on s c else s.streamChunk c x f (rdOf s) stage ring : ChunkEnd) with
      | .ends w => w
      | .on s1 c1 =>
        if x.ctl.disp ≠ 1 then s1.matChunks (c1.nextChunk c1.fold.marks []) x f rdOf stage ring out fuel
        else if !isFreed c stage then .part s1 c1
        else
          match (match c1.fold.tree with
            | some (level, since, _) => s1.treeWork c1 x f stage out level since 16
            | none => s1.writeChunk c1 x f out) with
          | .ends w => w
          | .on s2 c2 => s2.matChunks c2 x f rdOf stage ring out fuel

/-- A MATRIX descriptor with its formats as a command or stage computes with it: a ring that has closed early gives the rows it holds
(R209, R281). -/
def matWith (c : Cmd) (d : List Word) (stage : Nat) (ring : Option (List Byte)) : Option (MatDesc × MatFmts) :=
  let x0 := matDescOf d
  (matFmtsOf x0).map (fun f =>
    let x1 := matSource x0 f ring.isSome (x0.predEn && (stageMask c stage).isSome)
    (if ring.isSome then { x1 with m := min x0.m ((ring.getD []).length / max 1 (packedBytes f.a.fmt x0.k)) } else x1, f))

/-- The work of a MATRIX command or stage: `ring` holds the bytes of IN0, `out` says that OUT0 is bound (R289). -/
def State.matrixWork (s : State) (c : Cmd) (d : List Word) (stage : Nat) (ring : Option (List Byte)) (out : Bool) : Work :=
  match matWith c d stage ring with
  | none => .done s c []
  | some (x, f) =>
    s.matChunks c x f (fun t => t.matReader c.corral (ring.getD []) ((stageMask c stage).getD [])) stage ring.isSome out
      (chunkCount x f + 1)

/-- Where a MATRIX command's or stage's context stops (R269): the first access of its part of the chunk that fails, and the writes of
the write-out it is at. -/
def State.matHalt (s : State) (c : Cmd) (d : List Word) (stage : Nat) (ring : Option (List Byte)) (out : Bool) (i : Nat) :
    Option AccFail × List (Acc × List Byte) :=
  match matWith c d stage ring with
  | none => (none, [])
  | some (x, f) =>
    let rd := s.matReader c.corral (ring.getD []) ((stageMask c stage).getD [])
    let stopOf (e : GateEnd) : Option AccFail := match e with | .stop a => some a | _ => none
    if c.fold.streamed then
      let last := match c.fold.tree with | some (l, _, _) => decide (x.ctl.partCount ≤ 2 ^ l) | none => true
      if out ∨ x.ctl.disp ≠ 1 ∨ !isFreed c stage ∨ !last then (none, [])
      else
        let val := chunkVals x f c c.fold.entries
        let w := (matWriteAccs x f c.fold (fun m n => (val m n).e.bits)).filter (fun p => p.1.ctx == i)
        (s.firstFail c (w.map (·.1)), w)
    else if i = 0 then (stopOf (s.streamEnd c x f rd ring.isSome), [])
    else
      match s.streamEnd c x f rd ring.isSome with
      | .through _ =>
        if i = 2 then (s.firstFail c (troughAccs x f (c.fold.mark 2)), [])
        else if i % 3 = 1 ∧ i / 3 < nSlices x f then (stopOf (s.tileEnd c x f rd (i / 3)), [])
        else (none, [])
      | _ => (none, [])

/-- A device tree node of a command waits for a contribution that has not wholly come (R142). -/
def State.treeWaits (s : State) (c : Cmd) (x : MatDesc) : Nat → Nat → Bool
  | 0, _ => false
  | fuel + 1, l =>
    if x.ctl.partCount ≤ 2 ^ l ∨ x.ctl.partIndex / 2 ^ l % 2 = 1 then false
    else
      match treePartner x l with
      | none => s.treeWaits c x fuel (l + 1)
      | some q =>
        match s.contribution c.corral x.ctl.rgroup q c.fold.chunk with
        | some k => decide (k.bytes.length < k.need)
        | none => true

end Sys2Proof.Machine
end

