-- ==== Sys2Proof/Machine/Run.lean ====
section
/-!
DEFINITION. The work of commands and stages, and its end (COMMAND_COMPLETE, DRAIN_RELEASE, the limits of waits and streams): MATRIX
with its device tree (R141 to R144, R513), VECTOR, MOVE (R275 to R284, R353), DRAIN, CTX_SAVE, CTX_RESTORE, TETHER, FENCE, STEP.
-/

namespace Sys2Proof.Machine

/-! ## MOVE: what it does at other devices -/

/-- A part of a stream at another device: the receiver it goes to, by index, the device, its position, address and length. -/
structure RemAcc where
  recv : Nat
  dev : Nat
  pos : Nat
  va : Nat
  n : Nat
  deriving DecidableEq, Repr

/-- The part of it that lies in `[lo, hi)` of the stream. -/
def RemAcc.within (a : RemAcc) (lo hi : Nat) : RemAcc :=
  let k := min a.n (lo - a.pos)
  { a with pos := a.pos + k, va := a.va + k, n := min (a.n - k) (hi - (a.pos + k)) }

/-- The parts of a list in `[lo, hi)`, one for each transfer unit (R259). -/
def remPieces (l : List RemAcc) (lo hi : Nat) : List RemAcc :=
  (l.flatMap (fun p => (unitPieces p.va p.n).map (fun u => { p with pos := p.pos + (u.1 - p.va), va := u.1, n := u.2 }))).filterMap
    (fun p => let q := p.within lo hi; if q.n = 0 then none else some q)

/-- What a MOVE reads from another device, in the order of its stream. -/
def State.remoteReads (s : State) (m : MoveDesc) (idx : List (Option Nat)) : List RemAcc :=
  if m.kind = 1 then
    (if s.spRemote m.tabSp m.dev && m.op != 1 then
      (tableRows m idx).map (fun p => { recv := 0, dev := m.dev, pos := p.1 * m.rowBytes, va := p.2, n := m.rowBytes })
    else [])
  else if s.spRemote m.srcSp m.dev then
    (upTo m.rows).map (fun r => { recv := 0, dev := m.dev, pos := r * m.len, va := m.src + r * m.srcStride, n := m.len })
  else []

/-- What a MOVE writes to other devices, in the order of its stream. -/
def State.remoteWrites (s : State) (c : Nat) (m : MoveDesc) (idx : List (Option Nat)) : List RemAcc :=
  match m.kind with
  | 1 =>
    if !m.tabIsSrc && s.spRemote m.tabSp m.dev then
      (tableRows m idx).map (fun p => { recv := 0, dev := m.dev, pos := p.1 * m.rowBytes, va := p.2, n := m.rowBytes })
    else []
  | 2 =>
    let l := s.receivers c m
    (upTo m.rows).flatMap (fun r => (upTo l.length).filterMap (fun v =>
      (l[v]?).bind (fun w => if s.spRemote w.sp w.dev then
        some { recv := v, dev := w.dev, pos := r * m.len, va := w.loc + r * m.dstStride, n := m.len } else none)))
  | _ =>
    if s.spRemote m.dstSp m.dev then
      (upTo m.rows).map (fun r => { recv := 0, dev := m.dev, pos := r * m.len, va := m.dst + r * m.dstStride, n := m.len })
    else []

/-- Issue requests of a stream, one per transfer unit; the code and device of a failure at the source. -/
def State.requestAll (s : State) (c : Cmd) (ctx typ : Nat) (data : Nat → Nat → List Byte) : List RemAcc → State × Option (Nat × Nat)
  | [] => (s, none)
  | a :: t =>
    match s.request c ctx typ a.dev a.recv a.va a.n a.pos (if typ = T_WRITE then data a.pos a.n else []) with
    | (s1, some e) => (s1, some (e, a.dev))
    | (s1, none) => s1.requestAll c ctx typ data t

/-- The least of a number and a list. -/
def minFrom (d : Nat) (l : List Nat) : Nat := l.foldl min d

/-- How far the bytes that a stream reads at another device have come: its prefetch cursor, less what is on its way, and no further than a
unit that failed. -/
def State.arrived (s : State) (c : Cmd) (k : Nat) : Nat :=
  let x := s.ctx k
  let got := minFrom x.pre ((s.outstanding c.queue c.seq k T_READ).map (·.dest))
  match x.rfault with | some f => if f.write then got else min got f.pos | none => got

/-- How far a stream is complete (R256): what it has issued, less the writes no answer has come for. -/
def State.completed (s : State) (q seq k : Nat) : Nat := minFrom (s.ctx k).sent ((s.outstanding q seq k T_WRITE).map (·.dest))

/-- The position of a stream moves on, and its watchdog with it (R256, R284). -/
def State.settlePos (s : State) (q seq k : Nat) : State :=
  let x := s.ctx k
  let p := s.completed q seq k
  if p ≤ x.pos then s else s.setCtx k { x with pos := p, phase := if x.phase = .waiting then .active else x.phase, advanced := s.time }

/-- A read-modify-write at another device reads a table row when every earlier contribution to it is complete (R212): the position of
the first row that has to wait. -/
def rmwStop (m : MoveDesc) (idx : List (Option Nat)) (pos : Nat) : Nat :=
  let late (r : Nat) : Bool :=
    (idx.getD r none).isSome && (upTo r).any (fun q => decide (pos < (q + 1) * m.rowBytes) && idx.getD q none == idx.getD r none)
  match (upTo m.count).find? late with | some r => r * m.rowBytes | none => m.total

/-- Does a MOVE combine its linear rows with a table (R211)? -/
def MoveDesc.combines (m : MoveDesc) : Bool := m.kind == 1 && decide (2 ≤ m.op)

/-- Units of reads and of writes that a stream keeps in flight (R282). -/
def readWindow : Nat := 32
def writeWindow : Nat := 16

/-- Units a multicast receiver has room for beyond the last it acknowledged (R279). -/
def receiverWindow : Nat := 8

/-- Issue the reads a stream may have in flight (R282): within its window, the tags of its die, and 32 units ahead of its writes. -/
def State.prefetch (s : State) (c : Cmd) (m : MoveDesc) (idx : List (Option Nat)) (rr : List RemAcc) : State × Nat × Option (Nat × Nat) :=
  let x := s.ctx m.ctx
  let far := if m.combines then min m.total (rmwStop m idx x.pos) else m.total
  let hi := min far (x.sent + readWindow * 512)
  if rr.isEmpty ∨ x.rfault.isSome ∨ hi ≤ x.pre then (s, 0, none)
  else
    let room := min (readWindow - (s.outstanding c.queue c.seq m.ctx T_READ).length) (s.freeTags (m.ctx / 32768))
    let all := remPieces rr x.pre hi
    let l := all.take room
    let pre := match all[room]? with | some a => a.pos | none => hi
    let s1 := s.setCtx m.ctx { x with pre := pre, got := if x.got.isEmpty then List.replicate m.total 0 else x.got }
    let r := s1.requestAll c m.ctx T_READ (fun _ _ => []) l
    (r.1, (l.map (fun a => pieceUnits false a.va a.n)).foldl (· + ·) 0, r.2)

/-- Store a stream's bytes in the ring memory of a buffer: byte position x lies at offset x mod B (R281). -/
def State.ringStore (s : State) (buffer bytes p : Nat) : List Byte → State
  | [] => s
  | b :: t => (s.wr (stallAddr (buffer / 64) (buffer % 64 * 4096 + p % max 1 bytes)) [b]).ringStore buffer bytes (p + 1) t

/-- `n` bytes of a ring from position p (R281). -/
def State.ringLoad (s : State) (buffer bytes p n : Nat) : List Byte :=
  (upTo n).map (fun i => s.rd (stallAddr (buffer / 64) (buffer % 64 * 4096 + (p + i) % max 1 bytes)))

/-- The paddock ring a buffer operand names, if any: the paddock, and whether it is its output (R353). -/
def State.pdkRingOf (s : State) (buffer slots : Nat) : Option (Nat × Bool) :=
  ((allPdkRings s.cfg.frames).find? (fun p => p.2.2.1 == buffer && p.2.2.2 == slots)).map (fun p => (p.1, p.2.1))

/-! ## Rings (R281, R283, R352, R353) -/

/-- Bytes that stand in a BUFFER source of a command, and the ring position they begin at; none while the ring is not open. -/
def State.bufferHas (s : State) (c : Cmd) (buffer slots : Nat) : Option (Nat × Nat) :=
  match s.pdkRingOf buffer slots with
  | some (p, _) => let k := (s.pdk p).outRing; if k.opened then some (k.c, k.p - k.c) else none
  | none =>
    match s.rings.find? (fun r => r.consumer == some (c.queue, c.seq) && r.buffer == buffer) with
    | some r => if r.broken then none else some (r.c, r.p - r.c)
    | none => none

/-- Bytes a BUFFER destination of a command has room for (R281). -/
def State.bufferRoom (s : State) (c : Cmd) (buffer slots : Nat) : Nat :=
  match s.pdkRingOf buffer slots with
  | some (p, _) => let k := (s.pdk p).inRing; if k.opened then slots * 4096 - (k.p - k.c) else 0
  | none =>
    match s.rings.find? (fun r => r.producer == some (c.queue, c.seq) && r.buffer == buffer) with
    | some r => if r.broken then 0 else slots * 4096 - (r.p - r.c)
    | none => 0

/-- Bytes enter a BUFFER destination at its producer position. -/
def State.bufferPut (s : State) (c : Cmd) (buffer slots : Nat) (bs : List Byte) : State :=
  match s.pdkRingOf buffer slots with
  | some (p, _) =>
    let v := s.pdk p
    (s.ringStore buffer (slots * 4096) v.inRing.p bs).setPdk p { v with inRing := { v.inRing with p := v.inRing.p + bs.length } }
  | none =>
    let mine (r : ManualRing) : Bool := r.producer == some (c.queue, c.seq) && r.buffer == buffer
    match s.rings.find? mine with
    | some r =>
      { s.ringStore buffer (slots * 4096) r.p bs with
        rings := s.rings.map (fun r => if mine r then { r with p := r.p + bs.length } else r) }
    | none => s

/-- Bytes leave a BUFFER source. -/
def State.bufferTake (s : State) (c : Cmd) (buffer slots n : Nat) : State :=
  match s.pdkRingOf buffer slots with
  | some (p, _) => let v := s.pdk p; s.setPdk p { v with outRing := { v.outRing with c := v.outRing.c + n } }
  | none =>
    { s with rings := s.rings.map (fun r =>
        if r.consumer = some (c.queue, c.seq) ∧ r.buffer = buffer then { r with c := r.c + n } else r) }

/-! ## The work of a MOVE (R256, R269, R275 to R284) -/

/-- How far a MOVE may issue toward each of its receivers; one that is no multicast has one. A tandem's outputs take what they are
given. -/
def State.rooms (s : State) (c : Cmd) (m : MoveDesc) (rw : List RemAcc) (tandem : Bool) : List Nat :=
  let x := s.ctx m.ctx
  let away (v w : Nat) : Nat :=
    let out := ((s.outstanding c.queue c.seq m.ctx T_WRITE).filter (fun r => r.recv == v)).length
    match (remPieces (rw.filter (fun a => a.recv == v)) x.sent m.total)[w - out]? with | some a => a.pos | none => m.total
  let near (buffer slots : Nat) : Nat := if tandem then m.total else x.sent + s.bufferRoom c buffer slots
  let one (v w sp dev loc : Nat) : Nat :=
    if sp = 1 then near (locBuffer loc) (locSlots loc) else if s.spRemote sp dev then away v w else m.total
  match m.kind with
  | 1 => [if m.tabIsSrc then one 0 writeWindow m.dstSp m.dev m.dst else if s.spRemote m.tabSp m.dev then away 0 writeWindow else m.total]
  | 2 =>
    let l := s.receivers c.corral m
    (upTo l.length).map (fun v => match l[v]? with | some w => one v receiverWindow w.sp w.dev w.loc | none => m.total)
  | _ => [one 0 writeWindow m.dstSp m.dev m.dst]

/-- The lag counters of a multicast (R279): a receiver lacks room while the stream has a unit ready and none may be issued to it.
DESIGN CHOICE (log 121): an interval ends when the stream next tries to go on. -/
def StreamCtx.lagging (x : StreamCtx) (time : Nat) (ready : Bool) (rooms : List Nat) : StreamCtx :=
  let lack (v : Nat) : Bool := ready && decide (rooms.getD v 0 ≤ x.sent)
  { x with
    lag := (upTo rooms.length).map (fun v =>
      match x.lacks.getD v none with | some t => if lack v then x.lag.getD v 0 else x.lag.getD v 0 + (time - t) | none => x.lag.getD v 0)
    lacks := (upTo rooms.length).map (fun v => if lack v then some ((x.lacks.getD v none).getD time) else none) }

/-- The first access of a MOVE that fails, from where its stream has been issued to (R269): in its index list first (R213). -/
def State.moveStop (s : State) (c : Cmd) (m : MoveDesc) : Option AccFail :=
  let i := c.ctxs.findIdx (· == m.ctx)
  let x := s.ctx m.ctx
  if m.kind = 1 ∧ x.idx.isNone then s.firstFail c (listAccs m i)
  else minFail ((s.rowAccs c.corral m (x.idx.getD []) i).filterMap (fun a => s.accFail c.corral (a.from_ x.sent)))

/-- An element of a table combined with its contribution, bytes at position `p` of the stream (R212). -/
def combineAt (m : MoveDesc) (idx : List (Option Nat)) (old new : List Byte) (p : Nat) : List Combined :=
  let w := scatterWidth m.fmt
  (upTo (new.length / w)).map (fun e =>
    scatterCombine m.op m.fmt m.sgn (firstNaming idx (p / m.rowBytes)) (leNat ((old.drop (e * w)).take w)) (leNat ((new.drop (e * w)).take w)))

/-- Bytes of a stream: those it keeps, then those its source gives. -/
def overlay (made : List Byte) (f : Nat → Nat → List Byte) (p n : Nat) : List Byte :=
  let a := (made.drop p).take n
  a ++ f (p + a.length) (n - a.length)

/-- Where the bytes of a MOVE come from, when it is not this device's memory, and how far they have come: a tandem's channel, a BUFFER,
or another device. `taken` says how far it has emptied a BUFFER. -/
def State.moveSource (s : State) (c : Cmd) (m : MoveDesc) (ring : Option (List Byte)) (srcBuf remote : Bool) (taken total : Nat) :
    Option (Nat → Nat → List Byte) × Nat :=
  match ring with
  | some b => (some (sliceOf b 0), total)
  | none =>
    if srcBuf then
      match s.bufferHas c (locBuffer m.src) (locSlots m.src) with
      | some (from_, n) =>
        (some (fun p k => s.ringLoad (locBuffer m.src) (locSlots m.src * 4096) (from_ + (p - taken)) k), min total (taken + n))
      | none => (none, min total taken)
    else if remote then (some (sliceOf (s.ctx m.ctx).got 0), s.arrived c m.ctx)
    else (none, total)

/-- One attempt at a MOVE whose index list is read (R269, R275): the reads its window allows are issued; then its stream goes on as far as
its source has come, its receivers have room, and its accesses succeed. `ring` holds the bytes a tandem's channel brings; a stage's
output is handed back. -/
def State.moveStep (s0 : State) (c0 : Cmd) (m : MoveDesc) (ring : Option (List Byte)) (tandem : Bool) : Work :=
  let idx := (s0.ctx m.ctx).idx.getD []
  let rr := s0.remoteReads m idx
  match s0.prefetch c0 m idx rr with
  | (_, _, some (e, dev)) => .fail s0 e dev none c0.counts
  | (s, units, none) =>
    let c := { c0 with units := c0.units + units }
    let i := c.ctxs.findIdx (· == m.ctx)
    let x := s.ctx m.ctx
    let total := match ring with | some b => min m.total b.length | none => m.total
    let rw := s.remoteWrites c.corral m idx
    let srcBuf := !tandem && (if m.kind = 1 then !m.tabIsSrc && m.srcSp == 1 else m.srcSp == 1)
    let keep := tandem || (srcBuf && !rw.isEmpty)
    let taken := if keep then max x.sent x.made.length else x.sent
    let src := s.moveSource c m ring srcBuf (!rr.isEmpty && !m.combines) taken total
    let avail := if m.combines && !rr.isEmpty then min src.2 (s.arrived c m.ctx) else src.2
    let rooms := s.rooms c m rw tandem
    let stop := s.moveStop c m
    let cap := match stop with | some f => f.pos | none => total
    let cap := match x.rfault with | some f => min cap f.pos | none => cap
    let front := minFrom (min total (min avail cap)) rooms
    let hi := if m.combines ∧ front < total then front / scatterWidth m.fmt * scatterWidth m.fmt else front
    let outs := if tandem then [] else (s.moveBuffers c.corral m).filter (fun b => b.2.2)
    let f := src.1.map (overlay x.made)
    let bs := if outs.isEmpty ∧ !keep ∧ rw.isEmpty then [] else s.moveBytes c.corral m idx f x.sent hi
    let part (p n : Nat) : List Byte := (bs.drop (p - x.sent)).take n
    -- a table at another device is combined here with what was read of it
    let mixed (p n : Nat) : List Combined := combineAt m idx ((x.got.drop p).take n) (part p n) p
    let data (p n : Nat) : List Byte :=
      if m.combines then (mixed p n).flatMap (fun v => leBytes (scatterWidth m.fmt) v.e.bits) else part p n
    let far := remPieces rw x.sent hi
    let ops := if m.combines then
        ((far.map (fun a => a.within x.peak hi)).flatMap (fun a => mixed a.pos a.n)).foldl (fun k v => k.plus v) OpCount.zero
      else OpCount.zero
    let r := s.moveRange c.corral m idx f x.sent hi
    let u := r.1.useAccs c.corral ((s.rowAccs c.corral m idx i).map (fun a => a.within x.sent hi))
    let s1 := outs.foldl (fun t b => t.bufferPut c b.1 b.2.1 bs) u.1
    let s2 := if srcBuf then s1.bufferTake c (locBuffer m.src) (locSlots m.src) (hi - taken) else s1
    let x1 := x.lagging s.time (decide (x.sent < min (min avail cap) total)) rooms
    let held := decide (hi ≤ x.sent) && decide (x.sent < total)
      && ((srcBuf && decide (avail ≤ x.sent)) || ((!outs.isEmpty || m.kind == 2) && rooms.any (fun k => decide (k ≤ x.sent))))
    let s3 := s2.setCtx m.ctx { x1 with
      sent := hi, peak := max x.peak hi, phase := if held then .waiting else .active
      made := if keep ∧ x.made.length < hi then x.made ++ bs.drop (x.made.length - x.sent) else x.made }
    match s3.requestAll c m.ctx T_WRITE data far with
    | (_, some (e, dev)) => .fail s e dev none c.counts
    | (s4, none) =>
      let t := s4.settlePos c.queue c.seq m.ctx
      let c1 := { c with
        counts := (c.counts.addOps r.2).addOps ops
        units := c.units + u.2 + (far.map (fun a => pieceUnits true a.va a.n)).foldl (· + ·) 0 }
      let y := t.ctx m.ctx
      match stop with
      | some e => if e.pos ≤ y.pos then e.work (t.setCmd c1) c1 else .part t c1
      | none =>
        if y.pos < total ∨ y.rfault.isSome then .part t c1
        else .done t c1 (if tandem then y.made else [])

/-- The work of a MOVE command or stage: an INDEXED move reads its whole index list and checks it before it writes any row (R213). -/
def State.moveWork (s : State) (c : Cmd) (d : List Word) (ring : Option (List Byte)) (tandem : Bool) : Work :=
  let m := moveDescOf d
  if m.kind = 1 ∧ (s.ctx m.ctx).idx.isNone then
    match s.moveStop c m with
    | some e => e.work s c
    | none =>
      let idx := s.indices c.corral m
      let u := s.useAccs c.corral (listAccs m (c.ctxs.findIdx (· == m.ctx)))
      let c1 := { c with units := c.units + u.2 }
      let t := u.1.setCtx m.ctx { u.1.ctx m.ctx with idx := some idx }
      if badIndex m idx then .fail (t.setCmd c1) E_GATHER_INDEX 0 none c.counts
      else t.moveStep c1 m ring tandem
  else s.moveStep c m ring tandem

/-! ## DRAIN, CTX_SAVE, CTX_RESTORE -/

/-- Writes of a command, then its end. -/
def State.writeWork (s : State) (c : Cmd) (l : List (Acc × List Byte)) (stalls : List Nat) (each moved : Nat) : Work :=
  match s.firstFail c (l.map (·.1)) with
  | some e => e.work s c
  | none =>
    .done (stalls.foldl (fun t st => t.bump .ACS_DRAIN_COUNT st 0 each) (s.doWrites c l)) { c with moved := c.moved + moved } []

/-- The work of a DRAIN (R151, R152): to memory, or row by row to OUT0 (R289). -/
def State.drainWork (s : State) (c : Cmd) (d : List Word) (out : Bool) : Work :=
  let x := drainDescOf d
  let l := s.drainAccs c.corral x
  let stalls := s.lastMembers c.corral x.base x.count
  if out then
    .done (stalls.foldl (fun t st => t.bump .ACS_DRAIN_COUNT st 0 (x.rows * x.cols)) s) { c with moved := c.moved + x.total } (l.flatMap (·.2))
  else s.writeWork c l stalls (x.rows * x.cols) x.total

/-- Entries a CTX_SAVE reads in one segment (R168): 128 of 64 bits, or 256. -/
def segEntries (a : AcsSt) (st g : Nat) : Nat := if (acsSeg a st g).wide then 128 else 256

/-- The work of a CTX_SAVE (R156 to R159). -/
def State.saveWork (s : State) (c : Cmd) : Work :=
  let x := ctxDescOf c.desc
  let l := s.saveAccs c.corral c.tether x
  match s.firstFail c (l.map (·.1)) with
  | some e => e.work s c
  | none =>
    .done (x.records.foldl (fun t p => t.bump .ACS_DRAIN_COUNT (x.stall + p.1) 0 (segEntries s.acs (x.stall + p.1) (x.seg + p.2)))
      (s.doWrites c l)) { c with moved := x.total } []

/-- The work of a CTX_RESTORE: the whole image is checked before anything is written (R160). -/
def State.restoreWork (s : State) (c : Cmd) : Work :=
  let x := ctxDescOf c.desc
  match s.firstFail c (restoreAccs x) with
  | some e => e.work s c
  | none =>
    let recs := x.records.map (fun p => (p, s.vaBytes c.corral (recordAddr x p.1 p.2) 1664))
    if !imageHeaderGood (s.vaBytes c.corral x.image 64) (x.count * x.segs) || recs.any (fun r => !segRecordGood r.2) then
      .fail s E_CTX_IMAGE 0 none c.counts
    else
      .done { (s.useAccs c.corral (restoreAccs x)).1 with acs := recs.foldl (fun a r => segRestore a (x.stall + r.1.1) (x.seg + r.1.2) r.2 c.queue c.seq) s.acs }
        { c with moved := x.total } []

/-! ## The end of a command -/

/-- End a command and let its queue go on. -/
def State.finishCmd (s : State) (c : Cmd) (code detail stage : Nat) (keep : Bool) : State :=
  ((s.endCmd c code detail stage keep).walkPump c.queue).fetchNext c.queue

/-- The code of a command that has succeeded (R320). -/
def okCode (c : Cmd) : Nat := if c.halts ≠ 0 then OK_RESUMED else if c.inactive then OK_INACTIVE else OK

/-- A packet that fails at its source counts as discarded (R503). DESIGN CHOICE (log 125): at P0, for the spec names no port. -/
def State.noteSource (s : State) (code : Nat) : State :=
  if code = E_LINK_DOWN ∨ code = E_LINK_UNREACHABLE then (s.bump .RNL_CNT 0 8 1).raise0 .rnl 0 4 else s

/-- The work of a command or stage fails: an uncorrectable word is logged (R460). -/
def State.failWork (s : State) (c : Cmd) (code detail stage : Nat) (bad : Option Nat) : State :=
  let s1 := s.setCmd c
  ((match bad with | some w => s1.logUncorr 0 w | none => s1).noteSource code).failCmd c code detail stage

/-- The failure of a command's work, with the command as the attempt has left it. -/
def State.failIn (t : State) (c : Cmd) (code detail stage : Nat) (bad : Option Nat) (k : Counts) : State :=
  t.failWork { (t.cmd c.queue c.seq).getD c with counts := k } code detail stage bad

/-- Settle an attempt at a command's work outside a tandem. -/
def State.settleWork (s : State) (c : Cmd) : Work → State
  | .wait => s
  | .fail t code detail bad k => t.failIn c code detail 0 bad k
  | .part t c1 => t.setCmd c1
  | .done t c1 _ => (t.setCmd c1).finishCmd c1 (okCode c1) 0 0 false

/-! ## Halted streams (R269, R270) -/

/-- The halt of context `k` at a failed access: its position, its fault, its FAULT record (R269, R270). -/
def State.haltAt (s : State) (c : Cmd) (k stage : Nat) (f : AccFail) (remote : Option Nat) : State :=
  let cl : Nat × Nat := match f.err with | .xlate cause level => (cause, level) | .code _ _ => (0, 0)
  -- while a context is HALTED, `advanced` holds the time its watchdog had run (R272)
  let x : StreamCtx := { s.ctx k with phase := .halted, queue := c.queue, seq := c.seq, stage := stage, pos := f.pos, faultVa := f.va
                                      cause := cl.1, level := cl.2, wr := f.write, advanced := s.time - (s.ctx k).advanced
                                      sent := f.pos, rfault := none }
  let s1 := if cl.1 = 4 ∧ remote.isNone then s.logWalk c.corral f.va else s
  ((s1.setCtx k x).setCmd { c with halts := c.halts + 1 }).produce c.queue (faultRecord s.devId c k x s.time remote) false

/-- The stage whose MOVE names a stream context; 0 outside a tandem. -/
def streamStage (c : Cmd) (k : Nat) : Nat :=
  ((upTo c.stageTabs.length).find? (fun i =>
    descClass (c.stageTabs.getD i []) = 3 ∧ (moveDescOf (c.stageTabs.getD i [])).ctx = k)).getD 0

/-- Halt a MOVE whose stream has met a failed translation on another device, once every unit below is complete (R269, R270). CAUSE and
LEVEL of the walk there are in no packet field the spec gives: free values. -/
def State.remoteHalt (s : State) (q seq k : Nat) : State :=
  let x := s.ctx k
  match s.cmd q seq, x.rfault with
  | some c, some f =>
    if c.phase ≠ .running ∨ !c.ctxs.contains k ∨ x.pos < f.pos ∨ !(s.outstanding q seq k T_READ).isEmpty
        ∨ !(s.outstanding q seq k T_WRITE).isEmpty then s
    else
      let w := s.draw
      let t := if f.write then w.2 else w.2.setCtx k { x with pre := f.pos }
      t.haltAt c k (streamStage c k)
        { ctx := c.ctxs.findIdx (· == k), pos := f.pos, va := f.va, write := f.write, err := .xlate (w.1.toNat % 5) (w.1.toNat / 8 % 5) } (some f.dev)
  | _, _ => s

/-- A stream of the command is HALTED. -/
def State.isHalted (s : State) (c : Cmd) : Bool := c.ctxs.any (fun i => (s.ctx i).phase == .halted)

/-- Every bank of a VECTOR command has halted (R236). -/
def State.allHalted (s : State) (l : List BankRef) : Bool :=
  l.all (fun b => ((s.seqr b.stall).bank (b.bank == 1)).wait == .halted)

/-- The work of a running command by class; `released` says that its stalls are QUIET where it needs that (R154, R155). -/
def State.runCmd (s : State) (c : Cmd) : State :=
  let quiet := c.released ≠ 0
  match descClass c.desc with
  | 1 => s.settleWork c (s.matrixWork c c.desc 0 none false)
  | 2 => if s.allHalted c.banks then
           (let c1 := { c with counts := s.vecCounts c.counts c.banks 0 }
            (s.setCmd c1).finishCmd c1 (okCode c1) 0 0 false)
         else s
  | 3 => (s.settleWork c (s.moveWork c c.desc none false)).remoteHalt c.queue c.seq (moveDescOf c.desc).ctx
  | 4 => if quiet then s.settleWork c (s.drainWork c c.desc false) else s
  | 5 => if c.stages.all (fun x => x == .done || x == .skipped) then
           (let c1 := { c with inactive := c.stages.all (fun x => x == .skipped) || c.inactive }
            (s.setCmd c1).finishCmd c1 (okCode c1) 0 0 false)
         else s
  | 6 =>
    let t := bitsOf (dw c.desc 2) 14 0
    let v := BitVec.ofNat 64 (dw c.desc 3)
    match descSub c.desc with
    | 0 => if quiet then s.finishCmd c (okCode c) 0 0 false else s
    | 1 => let c1 := { c with tether := (s.tether t).toNat }; ((s.setCmd c1).setTether t v).finishCmd c1 (okCode c1) 0 0 false
    | _ => let c1 := { c with tether := (s.tether t).toNat }; ((s.setCmd c1).addTether t v).finishCmd c1 (okCode c1) 0 0 false
  | 7 => if quiet then s.settleWork c (s.saveWork c) else s
  | 8 => s.settleWork c (s.restoreWork c)
  | 9 => if s.cmds.any (fun x => x.queue == c.queue && x.seq != c.seq) then s else s.finishCmd c OK 0 0 false
  | 10 => if quiet then s.finishCmd c OK 0 0 false else s
  | 11 =>
    let q := bitsOf (dw c.desc 2) 63 48
    if c.released ≠ 0 then (if (s.queue q).phase = .disabled then s.finishCmd c E_WALK_STATE 0 0 false else s)
    else if unitOpen (s.queue q) s.cmds q then s
    else s.finishCmd c c.tether 0 0 false
  | _ => s

/-- COMMAND_COMPLETE: a running command does what is left of its work and ends; a failing one ends with its code once no discard
runs in its corral (R308, R326, R598). -/
def State.completeRow (s : State) (q seq : Nat) : State :=
  match s.cmd q seq with
  | none => s
  | some c =>
    match c.phase with
    | .failing code detail stage =>
      if (s.discard c.corral).isSome then s else s.finishCmd c code detail stage (code == E_CTX_IMAGE)
    | .discarding _ _ => s
    | .running => if (s.discard c.corral).isSome || s.isHalted c then s else s.runCmd c

/-- The stalls a command waits for are QUIET, but for a team that streams the command's own rows (R154). -/
def State.stallsQuiet (s : State) (c : Cmd) (stalls : List Nat) : Bool :=
  stalls.all (fun st => (s.team st).quiet || (match (s.team st).job with | some j => j.queue == c.queue && j.seq == c.seq | none => true))

/-- DRAIN_RELEASE: the stalls of a drain, a WRITE stage or a CTX_SAVE are QUIET (R152, R154, R155). The instant is kept for the
image header of a CTX_SAVE (R157); of a tandem the first stage that waits goes on. DESIGN CHOICE (log 119): one release of a WRITE stands for the
write-outs of all its M-chunks, and it may come before its rows have been streamed. -/
def State.releaseRow (s : State) (q seq : Nat) : State :=
  match s.cmd q seq with
  | none => s
  | some c =>
    match needRelease c with
    | [] => s
    | i :: _ =>
      if !s.stallsQuiet c (s.stallsOne c.corral (stageDesc c i)) then s
      else if descClass c.desc = 5 then s.setCmd { c with freed := i :: c.freed }
      else s.setCmd { c with released := 1, tether := if descClass c.desc = 7 then s.time else c.tether }

/-- TETHER_WAIT_TIMEOUT: a WAIT that has waited TIMEOUT ms fails (R313). -/
def State.tetherTimeoutRow (s : State) (q seq : Nat) : State :=
  match s.cmd q seq with
  | none => s
  | some c =>
    let lim := bitsOf (dw c.desc 4) 63 32
    if c.phase = .running ∧ descClass c.desc = 6 ∧ descSub c.desc = 0 ∧ c.released = 0 ∧ lim ≠ 0 ∧ lim * 1000000 ≤ s.time - c.startTime then
      s.failCmd c E_TETHER_TIMEOUT 0 0
    else s

/-- TREE_CONTRIB_TIMEOUT: a tree node has waited REMOTE_US for a contribution (R142). DESIGN CHOICE (log 114): the limit is that of the die of the
command's first stream context. -/
def State.treeTimeoutRow (s : State) (q seq : Nat) : State :=
  match s.cmd q seq with
  | none => s
  | some c =>
    match c.fold.tree with
    | none => s
    | some (level, since, stage) =>
      let d := if descClass c.desc = 5 then c.stageTabs.getD stage [] else c.desc
      if c.phase = .running ∧ s.treeWaits c (matDescOf d) 16 level ∧ s.nocTimeout ((c.ctxs.headD 0) / 32768) true ≤ s.time - since then
        s.failCmd c E_NET_TIMEOUT 0 stage
      else s

/-! ## Halted streams (R269 to R272), the watchdog (R284) and multicast lag (R279) -/

/-- Where context `i` of a command or stage that is no MOVE stops, and the writes of its stream (R269). -/
def State.haltPlan (s : State) (c : Cmd) (d : List Word) (stage : Nat) (ring : Option (List Byte)) (out : Bool) (i : Nat) :
    Option AccFail × List (Acc × List Byte) :=
  let of_ (reads : List Acc) (writes : List (Acc × List Byte)) : Option AccFail × List (Acc × List Byte) :=
    let w := writes.filter (fun p => p.1.ctx == i)
    (s.firstFail c (reads.filter (fun a => a.ctx == i) ++ w.map (·.1)), w)
  match descClass d with
  | 1 => s.matHalt c d stage ring out i
  | 4 => of_ [] (if out then [] else s.drainAccs c.corral (drainDescOf d))
  | 7 => of_ [] (s.saveAccs c.corral c.tether (ctxDescOf d))
  | 8 => of_ (restoreAccs (ctxDescOf d)) []
  | _ => (none, [])

/-- Try to halt context `k` on the streams of a command or stage (R269): the bytes below the failing one complete first. -/
def State.haltStream (s : State) (c : Cmd) (k stage : Nat) (d : List Word) (ring : Option (List Byte)) (out : Bool) : State :=
  let i := c.ctxs.findIdx (· == k)
  if descClass d = 3 then
    let m := moveDescOf d
    if m.ctx ≠ k then s
    else
      match s.moveWork c d ring (descClass c.desc == 5) with
      | .part t c1 =>
        match t.moveStop c1 m with
        | some f =>
          match f.err with
          | .xlate _ _ => if f.pos ≤ (t.ctx k).pos then (t.setCmd c1).haltAt c1 k stage f none else s
          | .code _ _ => s
        | none => s
      | _ => s
  else
    let l := s.haltPlan c d stage ring out i
    match l.1 with
    | some f =>
      match f.err with
      | .xlate _ _ =>
        let below := (l.2.filter (fun p => decide (p.1.pos < f.pos))).map (fun p =>
          ({ p.1 with n := min p.1.n (f.pos - p.1.pos) }, p.2.take (f.pos - p.1.pos)))
        (s.doWrites c below).haltAt c k stage f none
      | .code _ _ => s
    | none => s

/-- STREAM_WATCHDOG_EXPIRY: a MOVE outside a tandem whose stream has not advanced for WATCHDOG ms fails (R284). -/
def State.watchdogRow (s : State) (k : Nat) : State :=
  let x := s.ctx k
  match s.cmd x.queue x.seq with
  | some c =>
    if descClass c.desc = 3 ∧ c.phase = .running ∧ c.ctxs.contains k ∧ (x.phase = .active ∨ x.phase = .waiting)
        ∧ (moveDescOf c.desc).watchNs ≤ s.time - x.advanced then
      s.failCmd c E_STREAM_STALL 0 0
    else s
  | none => s

/-- MCAST_LAG_EXPIRY: one receiver of a multicast has lacked room for longer than MC_LAG; `lag` is its lag counter then (R279). -/
def State.lagRow (s : State) (k receiver lag : Nat) : State :=
  let x := s.ctx k
  match s.cmd x.queue x.seq with
  | some c =>
    let go (d : List Word) (stage : Nat) : State :=
      let m := moveDescOf d
      if descClass d = 3 ∧ m.kind = 2 ∧ m.ctx = k ∧ receiver < m.mcCount ∧ m.lagNs < lag then
        let y := { x with lag := (x.lagNow m.mcCount s.time).set receiver lag, lacks := [] }
        (s.setCtx k y).failCmd c E_MCAST_LAG receiver stage
      else s
    if c.phase ≠ .running ∨ x.phase = .halted ∨ !c.ctxs.contains k then s
    else if descClass c.desc = 5 then
      match (upTo c.stages.length).find? (fun i => descClass (c.stageTabs.getD i []) = 3 ∧ (moveDescOf (c.stageTabs.getD i [])).ctx = k
          ∧ c.stages.getD i .done = .running) with
      | some i => go (c.stageTabs.getD i []) i
      | none => s
    else go c.desc 0
  | none => s

end Sys2Proof.Machine
end

