-- ==== Sys2Proof/Machine/Tandem.lean ====
section
/-!
DEFINITION. The stages of a tandem (R209, R286 to R290): hand-overs, when a stage begins, its work and its end; and the halt of any
stream (XLATE_FAULT_HALT).
-/

namespace Sys2Proof.Machine

/-! ## Hand-overs (R281, R287, R289) -/

/-- Class of stage `i` of a tandem. -/
def stageClass (c : Cmd) (i : Nat) : Nat := descClass (c.stageTabs.getD i [])

/-- The state of stage `i`. -/
def stageOf (c : Cmd) (i : Nat) : StageSt := c.stages.getD i .done

/-- A stage that has completed or been skipped. -/
def stageOver (x : StageSt) : Bool := x == .done || x == .skipped

/-- One exchange on a hand-over: its producer's bytes enter the ring as far as there is room, and a consumer that is not a VECTOR
stage takes what is there; bytes no stage will read any more make room. The ring closes when its producer's stream has ended. -/
def State.pumpHand (s : State) (c : Cmd) (h : HandOver) : State × HandOver :=
  let buf := h.stall * 64 + h.slot
  let n := min h.backlog.length (h.bytes - (h.p - h.c))
  let s1 := s.ringStore buf h.bytes h.p (h.backlog.take n)
  let h1 := { h with p := h.p + n, backlog := h.backlog.drop n }
  let st := stageOf c h.cons
  let h2 :=
    if stageOver st then { h1 with c := h1.p }
    else if stageClass c h.cons ≠ 2 ∧ st = .running then
      { h1 with got := h1.got ++ s1.ringLoad buf h1.bytes h1.c (h1.p - h1.c), c := h1.p }
    else h1
  (s1, { h2 with closed := h2.closed || (h2.ending && h2.backlog.isEmpty) })

/-- Exchange on a hand-over until nothing more can move. -/
def State.pumpHandMany (s : State) (c : Cmd) (h : HandOver) : Nat → State × HandOver
  | 0 => (s, h)
  | n + 1 => let r := s.pumpHand c h; if r.2 = h then r else r.1.pumpHandMany c r.2 n

/-- Exchange on every hand-over of a tandem. -/
def State.pumpHands (s : State) (c : Cmd) : List HandOver → State × List HandOver
  | [] => (s, [])
  | h :: t =>
    let r := s.pumpHandMany c h (h.backlog.length / max 1 h.bytes + 2)
    let u := r.1.pumpHands c t
    (u.1, r.2 :: u.2)

/-- Stages that have executed and whose outputs have left complete (R290). -/
def settleStages (c : Cmd) : Cmd :=
  { c with stages := (upTo c.stages.length).map (fun i =>
      if stageOf c i = .executed ∧ !c.hands.any (fun h => h.prod == i && !h.closed) then .done else stageOf c i) }

/-- The hand-over on channel `ch` of a stage record. -/
def stageHand (c : Cmd) (i : Nat) (out : Bool) (ch : Nat) : Option Nat := stageBind (c.stageTabs.getD i []) out ch

/-! ## The channels of a VECTOR stage and the banks that wait on them (R237, R238, R243) -/

/-- The command a bank runs, where it may issue: running, with no discard in its corral (R594). -/
def State.bankCmd (s : State) (k : BankSt) : Option Cmd :=
  match s.cmd k.queue k.seq with
  | some c => if c.phase = .running ∧ (s.discard c.corral).isNone then some c else none
  | none => none

/-- The hand-over of a VECTOR stage's channel. -/
def chanHand (c : Cmd) (stage : Nat) (out : Bool) (ch : Nat) : Option (Nat × HandOver) :=
  if descClass c.desc = 5 then
    (stageHand c stage out ch).bind (fun i => (c.hands[i]?).map (fun h => (i, h)))
  else none

/-- What HWAIT writes to S[D]: bytes available, bit 63 where the channel is closed; none while it waits. -/
def hwaitValue (c : Cmd) (stage ch need : Nat) : Option Word :=
  match chanHand c stage false ch with
  | none => some (BitVec.ofNat 64 (2 ^ 63))
  | some (_, h) =>
    if need ≤ h.p - h.c ∨ h.closed then some (BitVec.ofNat 64 (h.p - h.c + b2n h.closed * 2 ^ 63)) else none

/-- There is room for an HPOST of `n` bytes (R281). -/
def hpostRoom (c : Cmd) (stage ch n : Nat) : Bool :=
  match chanHand c stage true ch with
  | none => true
  | some (_, h) => decide (h.p + n - h.c ≤ h.bytes)

/-- The condition of a WAITING bank holds (R237, R238). -/
def State.waitHolds (s : State) (k : BankSt) : Bool :=
  match s.bankCmd k with
  | none => false
  | some c =>
    match k.wait with
    | .hwait ch need _ => (hwaitValue c k.stage ch need).isSome
    | .hpost ch n _ => hpostRoom c k.stage ch n
    | _ => false

/-- A WAITING bank whose condition has come to hold becomes READY (R237 to R239); the instruction it waits at finishes as it takes the
sequencer. -/
def State.promote (s : State) (b : BankRef) : State :=
  let q := s.seqr b.stall
  let k := q.bank (b.bank == 1)
  if k.phase = .waiting ∧ s.waitHolds k then s.setSeqr b.stall (q.setBank (b.bank == 1) { k with phase := .ready }) else s

/-- Let the hand-overs of a tandem move, store the tandem, and let the banks go on that waited for it. -/
def State.pumpTandem (s : State) (c : Cmd) : State :=
  let r := s.pumpHands c c.hands
  let c1 := settleStages { c with hands := r.2 }
  let u := r.1.pumpHands c1 c1.hands
  c.banks.foldl State.promote (u.1.setCmd (settleStages { c1 with hands := u.2 }))

/-! ## Beginning a stage -/

/-- The hand-overs a stage consumes. -/
def handsInto (c : Cmd) (i : Nat) : List HandOver := c.hands.filter (fun h => h.cons == i)

/-- Does a stage carry a predicate (R290)? -/
def stagePredicated (r : List Word) : Bool := if descClass r = 1 then (matDescOf r).predEn else bitAt (dw r 0) 59

/-- Close the outputs of a stage at the length they have. -/
def endOutputs (i : Nat) (l : List HandOver) : List HandOver := l.map (fun h => if h.prod = i then { h with ending := true } else h)

/-- The banks of a VECTOR stage leave LOADING when their stage begins: ACTIVE where the stall has no ACTIVE bank, else READY. -/
def State.wakeBanks (s : State) (stage : Nat) (q seq : Nat) : List BankRef → State
  | [] => s
  | b :: t =>
    let v := s.seqr b.stall
    let k := v.bank (b.bank == 1)
    let s1 :=
      if k.stage = stage ∧ k.queue = q ∧ k.seq = seq ∧ k.phase = .loading then
        let t := s.setSeqr b.stall (v.setBank (b.bank == 1) { k with phase := .ready })
        if v.active.isNone then t.makeActive b.stall (b.bank == 1) else t
      else s
    s1.wakeBanks stage q seq t

/-- A CTX_SAVE shares the segments of this tandem (R568): it starts no released stage until the save has completed. -/
def State.snooped (s : State) (c : Cmd) : Bool :=
  s.cmds.any (fun x => descClass x.desc == 7 && x.segs.any (fun k => c.segs.contains k))

/-- Set the state of a stage. -/
def Cmd.setStage (c : Cmd) (i : Nat) (x : StageSt) : Cmd := { c with stages := c.stages.set i x }

/-- The predicate mask of a MATRIX stage (R207, R209): its address and length. -/
def stageMaskAt (r : List Word) : Option (Nat × Nat) :=
  let x := matDescOf r
  if descClass r = 1 ∧ x.predEn ∧ !matIsNoop x then some (x.predAddr, cdiv x.m 8) else none

/-- Run a stage that may begin: a MATRIX stage keeps its predicate mask (R209). -/
def State.beginStage (s : State) (c0 : Cmd) (i : Nat) : State :=
  let c : Cmd := match stageMaskAt (c0.stageTabs.getD i []) with
    | some (a, n) => { c0 with masks := smSet (fun _ => none) c0.masks i (some (s.vaBytes c0.corral a n)) }
    | none => c0
  let c1 := c.setStage i .running
  if stageClass c i = 2 then ((s.setCmd c1).wakeBanks i c.queue c.seq c.banks).pumpTandem c1
  else s.pumpTandem c1

/-- TANDEM_STAGE_BEGIN (R290, R209): the stages it comes after have completed, and, where it carries a predicate, every hand-over
it consumes has closed; a predicate word of zero skips it. A DRAIN stage waits for its producer and passes its resident check
(R152). -/
def State.stageBeginRow (s : State) (q seq i : Nat) : State :=
  match s.cmd q seq with
  | none => s
  | some c =>
    let r := c.stageTabs.getD i []
    let ready := descClass c.desc == 5 && decide (i < c.stages.length) && stageOf c i == .idle
      && (upTo c.stages.length).all (fun j => !bitAt (stageAfter r) j || stageOver (stageOf c j))
      && (!stagePredicated r || (handsInto c i).all (·.closed))
    if c.phase ≠ .running ∨ (s.discard c.corral).isSome ∨ !ready ∨ s.snooped c then s
    else
      let a := bitsOf (dw r 0) 56 0
      let word : Option (Nat × MemErr) :=
        match stageMaskAt r with
        | some (m, n) => s.rangeErr c.corral false m n
        | none => if descClass r ≠ 1 ∧ bitAt (dw r 0) 59 then s.rangeErr c.corral false a 8 else none
      match word with
      | some e => (s.logAccess 0 c.corral e).failCmd c e.2.err 0 i
      | none =>
        if descClass r ≠ 1 ∧ bitAt (dw r 0) 59 ∧ s.vaWord c.corral a = 0 then
          s.pumpTandem { c.setStage i .skipped with hands := endOutputs i c.hands }
        else if descClass r = 4 then
          let x := drainDescOf r
          if x.rows = 0 ∨ x.count = 0 then s.beginStage c i
          else
            match s.producer x.prodQueue x.prodSeq with
            | none => s
            | some code =>
              if !isOkCode code then s.failCmd c E_DRAIN_PRODUCER 0 i
              else if s.drainResident c.corral x then s.beginStage c i
              else s.failCmd c E_DRAIN_STALE 0 i
        else s.beginStage c i

/-! ## The work of a stage -/

/-- The stream contexts of stage `i`: a MOVE stage names its own; the others take theirs from the free ones in stage order (R258,
R291). -/
def State.stageCtxs (s : State) (c : Cmd) (i : Nat) : List Nat :=
  let r := c.stageTabs.getD i []
  if descClass r = 3 then [(moveDescOf r).ctx]
  else
    let named := (c.stageTabs.filter (fun d => descClass d = 3)).length
    let before := ((c.stageTabs.take i).map (fun d => (s.needOne c.corral true d).free)).foldl (· + ·) 0
    (c.ctxs.drop (named + before)).take (s.needOne c.corral true r).free

/-- The input a MATRIX or MOVE stage reads, if it binds one. -/
def stageInput (c : Cmd) (i : Nat) : Option Nat :=
  match stageClass c i with
  | 1 => stageHand c i false 0
  | 3 => (moveChannel (c.stageTabs.getD i []) false).bind (stageHand c i false)
  | _ => none

/-- The hand-overs a MATRIX, MOVE or DRAIN stage fills. -/
def State.stageOutputs (s : State) (c : Cmd) (i : Nat) : List Nat :=
  match stageClass c i with
  | 3 => (s.moveOuts c.corral (c.stageTabs.getD i [])).filterMap (stageHand c i true)
  | _ => match stageHand c i true 0 with | some h => [h] | none => []

/-- A zero-size stage does nothing and closes its outputs. -/
def stageIsNoop (r : List Word) : Bool :=
  match descClass r with
  | 1 => matIsNoop (matDescOf r)
  | 2 => (vecDescOf r).count == 0 || (vecDescOf r).plen == 0
  | 3 => (moveDescOf r).isNoop
  | _ => (drainDescOf r).rows == 0 || (drainDescOf r).count == 0

/-- The work of stage `i`, with the ring bytes it has taken. -/
def State.stageWork (s : State) (c : Cmd) (i : Nat) (ring : Option (List Byte)) : Work :=
  let r := c.stageTabs.getD i []
  let k := { c with ctxs := s.stageCtxs c i }
  let out := (stageHand c i true 0).isSome
  -- one stage at a time uses `fold`
  if stageIsNoop r then .done s k []
  else if descClass r = 1 ∧ c.fold ≠ FoldSt.start ∧ c.owner ≠ i then .wait
  else match descClass r with
    | 1 => s.matrixWork k r i ring out
    | 3 => s.moveWork k r ring true
    | 4 => if isFreed c i then s.drainWork k r out else .wait
    | _ => .wait

/-- A stage has done its work: its bytes go to its outputs, which end. -/
def State.stageDone (s : State) (c : Cmd) (i : Nat) (outs : List Nat) (bs : List Byte) : State :=
  let hands := (upTo c.hands.length).map (fun j =>
    let h := c.hands.getD j { prod := 0, cons := 0, stall := 0, slot := 0, bytes := 0, p := 0, c := 0, closed := true, ending := true,
                              backlog := [], got := [] }
    if outs.contains j then { h with backlog := h.backlog ++ bs } else h)
  s.pumpTandem { c.setStage i .executed with hands := endOutputs i hands }

/-- TANDEM_STAGE_COMPLETE (R290): a stage whose input has closed does its work; it completes when its outputs are closed. A VECTOR
stage has done its work when its banks have halted (R236). -/
def State.stageCompleteRow (s : State) (q seq i : Nat) : State :=
  match s.cmd q seq with
  | none => s
  | some c =>
    if c.phase ≠ .running ∨ (s.discard c.corral).isSome ∨ descClass c.desc ≠ 5 ∨ ¬ i < c.stages.length
        ∨ ((s.stageCtxs c i).any (fun k => (s.ctx k).phase == .halted)) then s
    else
      match stageOf c i with
      | .executed => (s.pumpTandem c).walkPump q
      | .running =>
        if stageClass c i = 2 ∧ !stageIsNoop (c.stageTabs.getD i []) then
          let mine := c.banks.filter (fun b => ((s.seqr b.stall).bank (b.bank == 1)).stage == i)
          if s.allHalted mine then
            (s.pumpTandem { c.setStage i .executed with hands := endOutputs i c.hands, counts := s.vecCounts c.counts mine i }).walkPump q
          else s
        else
          let input := (stageInput c i).bind (fun h => c.hands[h]?)
          if input.any (fun h => !h.closed || h.c != h.p) then (s.pumpTandem c).walkPump q
          else
            match s.stageWork c i (input.map (·.got)) with
            | .wait => s
            | .fail t code detail bad k => t.failWork { c with counts := k } code detail i bad
            | .part t c1 =>
              let u := t.setCmd { c1 with ctxs := c.ctxs, owner := if stageClass c i = 1 then i else c.owner }
              if stageClass c i = 3 then u.remoteHalt q seq (moveDescOf (c.stageTabs.getD i [])).ctx else u
            | .done t c1 bs => (t.stageDone { c1 with ctxs := c.ctxs } i (s.stageOutputs c i) bs).walkPump q
      | _ => s

/-! ## XLATE_FAULT_HALT -/

/-- XLATE_FAULT_HALT: the stream of context `k` meets an address without a translation (R269). The contexts of a DISPATCH halt at
the position its reads have reached. -/
def State.xlateHaltRow (s : State) (k : Nat) : State :=
  match s.cmds.find? (fun c => c.ctxs.contains k) with
  | none => s
  | some c =>
    if c.phase ≠ .running ∨ (s.ctx k).phase = .halted ∨ (s.discard c.corral).isSome then s
    else if descClass c.desc = 5 then
      match (upTo c.stages.length).find? (fun i => stageOf c i = .running ∧ (s.stageCtxs c i).contains k ∧ stageClass c i ≠ 2) with
      | some i =>
        let input := (stageInput c i).bind (fun h => c.hands[h]?)
        let t := s.haltStream { c with ctxs := s.stageCtxs c i } k i (c.stageTabs.getD i []) (input.map (·.got)) (stageHand c i true 0).isSome
        { t with cmds := t.cmds.map (fun x => if x.queue == c.queue && x.seq == c.seq then { x with ctxs := c.ctxs } else x) }
      | none => s
    else s.haltStream c k 0 c.desc none false

end Sys2Proof.Machine
end

