-- ==== Sys2Proof/Machine/VecRows.lean ====
section
/-!
DEFINITION. The issue of vector instructions (R224, R235, R236, R248, R253), the hand-over and DISPATCH instructions (R241 to R243),
and bank switches (R238).
-/

namespace Sys2Proof.Machine

/-- Stall memory as an instruction of its bank reads it. -/
def State.stallMem (s : State) (st : Nat) : Nat → Byte := fun off => s.rd (stallAddr st off)

/-- Store bytes at stall-memory offsets in order. -/
def State.stallWrites (s : State) (st : Nat) : List (Nat × List Byte) → State
  | [] => s
  | (off, bs) :: t => (s.wr (stallAddr st off) bs).stallWrites st t

/-- Replace a bank of a stall. -/
def State.setBankAt (s : State) (st : Nat) (b : Bool) (k : BankSt) : State := s.setSeqr st ((s.seqr st).setBank b k)

/-- The VEC_EVENT bit of a failure (R252). -/
def vecEventBit (code : Nat) : Option Nat :=
  if code = E_VEC_ILLEGAL then some 5
  else if code = E_VEC_LIMIT then some 4
  else if code = E_VEC_PC then some 3
  else if code = E_VEC_WINDOW then some 2
  else if code = E_VEC_ECC then some 1
  else none

/-- An instruction fails its command (R235). -/
def State.vecFail (s : State) (st : Nat) (c : Cmd) (code stage : Nat) : State :=
  let s1 := match vecEventBit code with | some b => s.raise .vec st b code c.queue (some c.corral) | none => s
  s1.failCmd c code 0 stage

/-- The instruction the ACTIVE bank of a stall issues next, when its opcode is `op`. -/
def State.nextIns (s : State) (st op : Nat) : Option (Bool × BankSt × Cmd × VIns) :=
  let q := s.seqr st
  match q.active with
  | none => none
  | some b =>
    let k := q.bank b
    match s.bankCmd k with
    | none => none
    | some c =>
      let i := vinsOf (smGet (fun _ => 0) q.prog k.pc)
      if k.wait = .none ∧ i.op.toNat = op then some (b, k, c, i) else none

/-- The limit on issued instructions has been reached (R235). -/
def limitHit (k : BankSt) : Bool := k.limit != 0 && decide (k.limit ≤ k.issued)

/-- The counters of one issue (R248, R253). -/
def State.issueCounts (s : State) (st lanes converts : Nat) : State :=
  ((s.bump .STL_SEQ_INSTR st 0 1).bump .VEC_LANE_OPS st 0 lanes).bump .VEC_CONVERTS st 0 converts

/-- A bank after an instruction with its next program counter; leaving the range fails the command (R235). -/
def State.goOn (s : State) (st : Nat) (b : Bool) (k : BankSt) (c : Cmd) (pc : Nat) : State :=
  let s1 := s.setBankAt st b { k with pc := pc, wait := .none }
  if k.pstart ≤ pc ∧ pc < k.pstart + k.plen then s1 else s1.vecFail st c E_VEC_PC k.stage

/-- Close the outputs of a VECTOR stage (R289). -/
def State.closeOutputs (s : State) (c : Cmd) (stage : Nat) : State :=
  if descClass c.desc = 5 then s.pumpTandem { c with hands := endOutputs stage c.hands } else s

/-- Issue one instruction that stays within its stall (R223). -/
def State.issue (s : State) (st op : Nat) (eff : VEff) : State :=
  match s.nextIns st op with
  | none => s
  | some (b, k, c, i) =>
    if limitHit k then s.vecFail st c E_VEC_LIMIT k.stage
    else
      let o := eff i (s.stallMem st) k
      let k1 := { o.bank with issued := k.issued + 1 }
      let s1 := s.issueCounts st o.lanes o.converts
      if o.fail ≠ 0 then (s1.setBankAt st b k1).vecFail st c o.fail k.stage
      else
        let s2 := s1.stallWrites st o.writes
        if o.halt then (s2.setBankAt st b { k1 with pc := k.pc + 1, wait := .halted }).closeOutputs c k.stage
        else if k1.haltInv && decide (0 < k1.counts.illegal) then (s2.setBankAt st b k1).vecFail st c E_HALT_INVALID k.stage
        else s2.goOn st b k1 c (o.jump.getD (k.pc + 1))

/-! ## HWAIT and HPOST (R243, R289) -/

/-- Replace a hand-over of a tandem and let its hand-overs move. -/
def State.setHand (s : State) (c : Cmd) (i : Nat) (h : HandOver) : State := s.pumpTandem { c with hands := c.hands.set i h }

/-- Publish `n` bytes on an output channel (R243). -/
def State.publish (s : State) (c : Cmd) (stage ch n : Nat) (close : Bool) : State :=
  match chanHand c stage true ch with
  | none => s
  | some (i, h) => s.setHand c i { h with p := h.p + n, ending := h.ending || close }

/-- A bank whose HWAIT or HPOST condition holds takes the sequencer and finishes that instruction (R238, R239). -/
def State.resumeWait (s : State) (st : Nat) (b : Bool) : State :=
  match s.bankCmd ((s.seqr st).bank b) with
  | none => s
  | some c =>
    let s0 := s.makeActive st b
    let k := (s0.seqr st).bank b
    match k.wait with
    | .hwait ch need d =>
      match hwaitValue c k.stage ch need with
      | some v => s0.goOn st b (k.setS d v) c k.pc
      | none => s
    | .hpost ch n close =>
      if hpostRoom c k.stage ch n then
        let s1 := s0.publish c k.stage ch n close
        s1.goOn st b k ((s1.cmd c.queue c.seq).getD c) k.pc
      else s
    | _ => s0

/-- A bank enters WAITING at an HWAIT or HPOST it has issued; its program counter is past that instruction (R239, R240). -/
def State.waitBank (s : State) (st : Nat) (b : Bool) (k : BankSt) (w : WaitCond) : State :=
  let q := s.seqr st
  s.setSeqr st ({ q with lastPc := k.pc + 1 }.setBank b { k with pc := k.pc + 1, phase := .waiting, wait := w, issued := k.issued + 1 })

/-- A bank that can take the sequencer: READY, or WAITING on a condition that now holds (R238). -/
def State.canTake (s : State) (k : BankSt) : Bool :=
  (s.bankCmd k).isSome && ((k.phase == .ready && (k.wait == .none || s.waitHolds k)) || (k.phase == .waiting && s.waitHolds k))

/-- With no bank ACTIVE on its stall, a bank that waited on an HWAIT or HPOST of this opcode goes on. -/
def State.resumeRow (s : State) (st : Nat) (isWait : Bool) : State :=
  let q := s.seqr st
  let mine (k : BankSt) : Bool := match k.wait with | .hwait _ _ _ => isWait | .hpost _ _ _ => !isWait | _ => false
  if q.active.isSome then s
  else
    match [q.last, !q.last].find? (fun b => mine (q.bank b) && s.canTake (q.bank b)) with
    | some b => s.resumeWait st b
    | none => s

/-- HWAIT (R243, R289): it first returns S[B] bytes of its input channel, then waits for S[A] bytes. -/
def State.hwaitRow (s : State) (st op : Nat) : State :=
  match s.nextIns st op with
  | none => s.resumeRow st true
  | some (b, k, c, i) =>
    if limitHit k then s.vecFail st c E_VEC_LIMIT k.stage
    else
      let s1 := s.issueCounts st 0 0
      let ch := i.imm.toNat % 4
      let rel := (srcB i k).toNat
      let need := (srcA i k).toNat
      let k1 := { k with issued := k.issued + 1 }
      let past := match chanHand c k.stage false ch with | some (_, h) => decide (h.p < h.c + rel) | none => rel != 0
      if past then (s1.setBankAt st b k1).vecFail st c E_VEC_WINDOW k.stage
      else
        let s2 := match chanHand c k.stage false ch with
          | some (j, h) => if rel = 0 then s1 else s1.setHand c j { h with c := h.c + rel }
          | none => s1
        let c1 := (s2.cmd c.queue c.seq).getD c
        match hwaitValue c1 k.stage ch need with
        | some v => s2.goOn st b (k1.setS i.d.toNat v) c1 (k.pc + 1)
        | none => s2.waitBank st b k (.hwait ch need i.d.toNat)

/-- HPOST (R243): it publishes S[A] bytes when the ring has room, and closes the channel with IMM[2] = 1. -/
def State.hpostRow (s : State) (st op : Nat) : State :=
  match s.nextIns st op with
  | none => s.resumeRow st false
  | some (b, k, c, i) =>
    if limitHit k then s.vecFail st c E_VEC_LIMIT k.stage
    else
      let s1 := s.issueCounts st 0 0
      let ch := i.imm.toNat % 4
      let n := (srcA i k).toNat
      let close := i.imm.toNat / 4 % 2 == 1
      let k1 := { k with issued := k.issued + 1 }
      if hpostRoom c k.stage ch n then
        let s2 := s1.publish c k.stage ch n close
        s2.goOn st b k1 ((s2.cmd c.queue c.seq).getD c) (k.pc + 1)
      else s1.waitBank st b k (.hpost ch n close)

/-! ## DISPATCH (R241, R242, R258) -/

/-- The lowest stream context of a corral that no command holds (R258). -/
def State.freeContext (s : State) (c : Nat) : Option Nat := (s.owned .context c).find? (fun i => s.ctxFree i)

/-- The banks of a command's stage. -/
def State.stageBanks (s : State) (c : Cmd) (stage : Nat) : List BankRef :=
  c.banks.filter (fun r => ((s.seqr r.stall).bank (r.bank == 1)).stage == stage)

/-- The dispatch block a bank has brought, if it waits at a DISPATCH. -/
def State.blockAt (s : State) (r : BankRef) : Option (List Word) :=
  match ((s.seqr r.stall).bank (r.bank == 1)).wait with
  | .dispatch w => if w.isEmpty then none else some w
  | _ => none

/-- The reads and writes of a dispatch in device memory. -/
def State.dispatchAccs (s : State) (c : Nat) (x : DispBlock) : List Acc × List (Nat × List Byte) :=
  let rd (a n : Nat) : Nat := leNat (s.vaBytes c a n)
  let n := x.t * x.e * x.bytes
  let reads := if n = 0 then [] else [{ ctx := 0, pos := 0, write := false, va := x.scores, n := n : Acc }]
  if (s.rangeErr c false x.scores n).isSome then (reads, [])
  else
    let w := dispWrites x rd
    (reads ++ w.map (fun p => { ctx := 0, pos := n, write := true, va := p.1, n := p.2.length }), w)

/-- NaN scores a rank has met count as its invalid operations (R214); the spec gives them no element index, so the first index is
a free value, the same for every rank and run of one dispatch (R80). -/
def dispCount (k : BankSt) (n : Nat) (free : Word) : BankSt :=
  if n = 0 then k
  else
    let i := free.toNat
    { k with counts := { k.counts with invalid := k.counts.invalid + n
                                       first := match k.counts.first with | some j => some (min i j) | none => some i } }

/-- Every bank goes on after its DISPATCH: it takes a sequencer that has no ACTIVE bank, and is READY at one that has. -/
def State.afterDispatch (s : State) (c : Cmd) (x : DispBlock) (rd : Nat → Nat → Nat) (free : Word) : List BankRef → State
  | [] => s
  | r :: t =>
    let b := r.bank == 1
    let s1 := s.setBankAt r.stall b { (s.seqr r.stall).bank b with phase := .ready }
    let s2 := if (s.seqr r.stall).active.isNone then s1.makeActive r.stall b else s1
    let k := (s2.seqr r.stall).bank b
    (s2.goOn r.stall b (dispCount k (dispRankNans x rd r.rank k.stalls) free) ((s2.cmd c.queue c.seq).getD c) k.pc).afterDispatch
      c x rd free t

/-- The contexts the DISPATCHes of a stage hold: each is marked by its stage plus 8, and stays with the command (R258). -/
def State.dispCtxs (s : State) (c : Cmd) (stage : Nat) : List Nat := c.ctxs.filter (fun i => (s.ctx i).stage = stage + 8)

/-- The dispatch of a command's stage, once every stall has come to it (R242) and none of its own streams is HALTED (R269). -/
def State.runDispatch (s : State) (st : Nat) (c : Cmd) (stage : Nat) : State :=
  let rs := s.stageBanks c stage
  let bs := rs.map (fun r => s.blockAt r)
  if bs.any (·.isNone) ∨ (s.dispCtxs c stage).any (fun i => (s.ctx i).phase == .halted) then s
  else
    let first := match rs.find? (fun r => r.rank = 0) with | some r => (s.blockAt r).getD [] | none => []
    if bs.any (fun w => w != some first) then s.vecFail st c E_VEC_DISPATCH stage
    else
      match dispBlockOf first with
      | none => s.vecFail st c E_FIELD_RANGE stage
      | some x =>
        let a := s.dispatchAccs c.corral x
        match minFail (a.1.filterMap (s.accFail c.corral)) with
        | some f =>
          match f.err with
          | .xlate _ _ => s
          | .code e w => s.failAccess c e stage w
        | none =>
          let rd (a n : Nat) : Nat := leNat (s.vaBytes c.corral a n)
          let free := Config.dispatchFirst first (s.vaBytes c.corral x.scores (x.t * x.e * x.bytes))
          let s1 := ((a.2.foldl (fun t p => t.vaWrite c.corral p.1 p.2) s).useAccs c.corral a.1).1
          s1.afterDispatch c x rd free rs

/-- A bank with a dispatch block takes a stream context its command already holds for DISPATCH, or asks for a free one, and then waits
for the other stalls (R242, R258). -/
def State.joinDispatch (s : State) (st : Nat) (b : Bool) (c : Cmd) (ws : List Word) : State :=
  let k := (s.seqr st).bank b
  let joined := ((s.stageBanks c k.stage).filter (fun r => (s.blockAt r).isSome)).length
  let fresh (i : Nat) (t : State) : State :=
    t.setCtx i { StreamCtx.idle with phase := .active, queue := c.queue, seq := c.seq, stage := k.stage + 8, advanced := s.time }
  let wait (ws : List Word) (t : State) : State := t.setBankAt st b { k with phase := .waiting, wait := .dispatch ws }
  match (s.dispCtxs c k.stage)[joined]? with
  | some i => (wait ws (fresh i s)).runDispatch st c k.stage
  | none =>
    match s.freeContext c.corral with
    | none => wait [] s
    | some i =>
      let c1 := { c with ctxs := c.ctxs ++ [i] }
      (wait ws (fresh i (s.setCmd c1))).runDispatch st c1 k.stage

/-- The four words of the dispatch block at S[A]; none where the access leaves the windows (R235, R241). -/
def State.blockWords (s : State) (st : Nat) (k : BankSt) (i : VIns) : Option (List Word) :=
  let a := (srcA i k).toNat
  if windowOk k a 32 32 false then some (bytesWords 4 (bytesAt (s.stallMem st) a 32)) else none

/-- DISPATCH: a stall issues it, or one that waits there tries again. -/
def State.dispatchRow (s : State) (st op : Nat) : State :=
  match s.nextIns st op with
  | some (b, k, c, i) =>
    if limitHit k then s.vecFail st c E_VEC_LIMIT k.stage
    else
      let s1 := s.issueCounts st 0 0
      let k1 := { k with issued := k.issued + 1 }
      match s.blockWords st k i with
      | none => (s1.setBankAt st b k1).vecFail st c E_VEC_WINDOW k.stage
      | some ws =>
        if (s.owned .context c.corral).isEmpty then (s1.setBankAt st b k1).vecFail st c E_STREAM_CONTEXTS k.stage
        else
          let q := s1.seqr st
          (s1.setSeqr st ({ q with lastPc := k.pc + 1 }.setBank b { k1 with pc := k.pc + 1 })).joinDispatch st b c ws
  | none =>
    let q := s.seqr st
    match [false, true].find? (fun b => match (q.bank b).wait with | .dispatch _ => (s.bankCmd (q.bank b)).isSome | _ => false) with
    | none => s
    | some b =>
      let k := q.bank b
      match s.bankCmd k, k.wait with
      | some c, .dispatch [] =>
        match s.blockWords st k (vinsOf (smGet (fun _ => 0) q.prog (k.pc - 1))) with
        | some ws => s.joinDispatch st b c ws
        | none => s.vecFail st c E_VEC_WINDOW k.stage
      | some c, _ => s.runDispatch st c k.stage
      | none, _ => s

/-- XLATE_FAULT_HALT for the context of a DISPATCH, and for every other stream (R269). -/
def State.streamHaltRow (s : State) (k : Nat) : State :=
  let x := s.ctx k
  if 8 ≤ x.stage then
    match s.cmd x.queue x.seq with
    | none => s
    | some c =>
      if c.phase ≠ .running ∨ x.phase = .halted ∨ (s.discard c.corral).isSome then s
      else
        let stage := x.stage - 8
        match (s.stageBanks c stage).findSome? (fun r => s.blockAt r) with
        | none => s
        | some w =>
          match dispBlockOf w with
          | none => s
          | some b =>
            match minFail ((s.dispatchAccs c.corral b).1.filterMap (s.accFail c.corral)) with
            | some f =>
              match f.err with
              | .xlate _ _ =>
                let s1 := s.haltAt c k stage f none
                s1.setCtx k { s1.ctx k with stage := stage + 8 }
              | .code _ _ => s
            | none => s
  else s.xlateHaltRow k

/-! ## Bank switches (R238) -/

/-- BANK_SWITCH: the sequencer leaves a bank that has halted or waits for the other bank when that one can take it. -/
def State.bankSwitchRow (s : State) (st : Nat) : State :=
  let q := s.seqr st
  let a := q.active.getD q.last
  let out := q.bank a
  let leaving := match q.active with | some _ => out.wait == .halted | none => true
  if leaving && s.canTake (q.bank !a) then
    let s1 := s.setSeqr st (if q.active.isSome then { q with lastPc := out.pc }.setBank a { out with phase := .waiting } else q)
    if (q.bank !a).wait = .none then s1.makeActive st !a else s1.resumeWait st !a
  else s

/-! ## The meanings of the vector rows -/

/-- SLI (R223). -/
def execVsli (stall : Fin 3072) (s : State) : Host.Outcome State Fault Refusal :=
  s.live (s.issue stall.val 0x01 effSli)

/-- SLIH (R223). -/
def execVslih (stall : Fin 3072) (s : State) : Host.Outcome State Fault Refusal :=
  s.live (s.issue stall.val 0x02 effSlih)

/-- SADD (R223). -/
def execVsadd (stall : Fin 3072) (s : State) : Host.Outcome State Fault Refusal :=
  s.live (s.issue stall.val 0x03 (effScalar 0x03))

/-- SSUB (R223). -/
def execVssub (stall : Fin 3072) (s : State) : Host.Outcome State Fault Refusal :=
  s.live (s.issue stall.val 0x04 (effScalar 0x04))

/-- SMUL (R223). -/
def execVsmul (stall : Fin 3072) (s : State) : Host.Outcome State Fault Refusal :=
  s.live (s.issue stall.val 0x05 (effScalar 0x05))

/-- SAND (R223). -/
def execVsand (stall : Fin 3072) (s : State) : Host.Outcome State Fault Refusal :=
  s.live (s.issue stall.val 0x06 (effScalar 0x06))

/-- SOR (R223). -/
def execVsor (stall : Fin 3072) (s : State) : Host.Outcome State Fault Refusal :=
  s.live (s.issue stall.val 0x07 (effScalar 0x07))

/-- SXOR (R223). -/
def execVsxor (stall : Fin 3072) (s : State) : Host.Outcome State Fault Refusal :=
  s.live (s.issue stall.val 0x08 (effScalar 0x08))

/-- SSHL (R223). -/
def execVsshl (stall : Fin 3072) (s : State) : Host.Outcome State Fault Refusal :=
  s.live (s.issue stall.val 0x09 (effScalar 0x09))

/-- SSHR (R223). -/
def execVsshr (stall : Fin 3072) (s : State) : Host.Outcome State Fault Refusal :=
  s.live (s.issue stall.val 0x0A (effScalar 0x0A))

/-- SSRA (R223). -/
def execVssra (stall : Fin 3072) (s : State) : Host.Outcome State Fault Refusal :=
  s.live (s.issue stall.val 0x0B (effScalar 0x0B))

/-- SADDI (R223). -/
def execVsaddi (stall : Fin 3072) (s : State) : Host.Outcome State Fault Refusal :=
  s.live (s.issue stall.val 0x0C effSaddi)

/-- SLD (R223). -/
def execVsld (stall : Fin 3072) (s : State) : Host.Outcome State Fault Refusal :=
  s.live (s.issue stall.val 0x10 effSld)

/-- SST (R223). -/
def execVsst (stall : Fin 3072) (s : State) : Host.Outcome State Fault Refusal :=
  s.live (s.issue stall.val 0x11 effSst)

/-- BEQ (R223). -/
def execVbeq (stall : Fin 3072) (s : State) : Host.Outcome State Fault Refusal :=
  s.live (s.issue stall.val 0x18 (effBranch (fun x y => x == y)))

/-- BNE (R223). -/
def execVbne (stall : Fin 3072) (s : State) : Host.Outcome State Fault Refusal :=
  s.live (s.issue stall.val 0x19 (effBranch (fun x y => x != y)))

/-- BLT (R223). -/
def execVblt (stall : Fin 3072) (s : State) : Host.Outcome State Fault Refusal :=
  s.live (s.issue stall.val 0x1A (effBranch (fun x y => x.slt y)))

/-- BLTU (R223). -/
def execVbltu (stall : Fin 3072) (s : State) : Host.Outcome State Fault Refusal :=
  s.live (s.issue stall.val 0x1B (effBranch (fun x y => x.ult y)))

/-- JMP (R223). -/
def execVjmp (stall : Fin 3072) (s : State) : Host.Outcome State Fault Refusal :=
  s.live (s.issue stall.val 0x1C effJmp)

/-- HALT (R236). -/
def execVhalt (stall : Fin 3072) (s : State) : Host.Outcome State Fault Refusal :=
  s.live (s.issue stall.val 0x1F effHalt)

/-- VLD (R223). -/
def execVvld (stall : Fin 3072) (s : State) : Host.Outcome State Fault Refusal :=
  s.live (s.issue stall.val 0x20 effVld)

/-- VST (R223). -/
def execVvst (stall : Fin 3072) (s : State) : Host.Outcome State Fault Refusal :=
  s.live (s.issue stall.val 0x21 effVst)

/-- VLDX (R229). -/
def execVvldx (stall : Fin 3072) (s : State) : Host.Outcome State Fault Refusal :=
  s.live (s.issue stall.val 0x22 effVldx)

/-- VSTX (R229). -/
def execVvstx (stall : Fin 3072) (s : State) : Host.Outcome State Fault Refusal :=
  s.live (s.issue stall.val 0x23 effVstx)

/-- VADD (R225). -/
def execVvadd (stall : Fin 3072) (s : State) : Host.Outcome State Fault Refusal :=
  s.live (s.issue stall.val 0x30 (effArith (fun a c => numAdd 2 a c) (fun a c => a + c)))

/-- VSUB (R225). -/
def execVvsub (stall : Fin 3072) (s : State) : Host.Outcome State Fault Refusal :=
  s.live (s.issue stall.val 0x31 (effArith (fun a c => numAdd 2 a (numNeg c)) (fun a c => a - c)))

/-- VMUL (R225). -/
def execVvmul (stall : Fin 3072) (s : State) : Host.Outcome State Fault Refusal :=
  s.live (s.issue stall.val 0x32 (effArith numMul (fun a c => a * c)))

/-- VMADD (R223). -/
def execVvmadd (stall : Fin 3072) (s : State) : Host.Outcome State Fault Refusal :=
  s.live (s.issue stall.val 0x33 effVmadd)

/-- VMIN (R223). -/
def execVvmin (stall : Fin 3072) (s : State) : Host.Outcome State Fault Refusal :=
  s.live (s.issue stall.val 0x34 (effMinMax false))

/-- VMAX (R223). -/
def execVvmax (stall : Fin 3072) (s : State) : Host.Outcome State Fault Refusal :=
  s.live (s.issue stall.val 0x35 (effMinMax true))

/-- VABS (R223). -/
def execVvabs (stall : Fin 3072) (s : State) : Host.Outcome State Fault Refusal :=
  s.live (s.issue stall.val 0x36 effVabs)

/-- VNEG (R223). -/
def execVvneg (stall : Fin 3072) (s : State) : Host.Outcome State Fault Refusal :=
  s.live (s.issue stall.val 0x37 effVneg)

/-- VDIV (R225). -/
def execVvdiv (stall : Fin 3072) (s : State) : Host.Outcome State Fault Refusal :=
  s.live (s.issue stall.val 0x38 effVdiv)

/-- VSQRT (R225). -/
def execVvsqrt (stall : Fin 3072) (s : State) : Host.Outcome State Fault Refusal :=
  s.live (s.issue stall.val 0x39 effVsqrt)

/-- CMUL (R225). -/
def execVcmul (stall : Fin 3072) (s : State) : Host.Outcome State Fault Refusal :=
  s.live (s.issue stall.val 0x3A effCmul)

/-- VCMP (R221). -/
def execVvcmp (stall : Fin 3072) (s : State) : Host.Outcome State Fault Refusal :=
  s.live (s.issue stall.val 0x3B effVcmp)

/-- VSEL (R223). -/
def execVvsel (stall : Fin 3072) (s : State) : Host.Outcome State Fault Refusal :=
  s.live (s.issue stall.val 0x3C effVsel)

/-- VAND (R223). -/
def execVvand (stall : Fin 3072) (s : State) : Host.Outcome State Fault Refusal :=
  s.live (s.issue stall.val 0x40 (effBits (fun _ x y => Nat.land x y)))

/-- VOR (R223). -/
def execVvor (stall : Fin 3072) (s : State) : Host.Outcome State Fault Refusal :=
  s.live (s.issue stall.val 0x41 (effBits (fun _ x y => Nat.lor x y)))

/-- VXOR (R223). -/
def execVvxor (stall : Fin 3072) (s : State) : Host.Outcome State Fault Refusal :=
  s.live (s.issue stall.val 0x42 (effBits (fun _ x y => Nat.xor x y)))

/-- VSHL (R223). -/
def execVvshl (stall : Fin 3072) (s : State) : Host.Outcome State Fault Refusal :=
  s.live (s.issue stall.val 0x43 (effBits (fun w x y => x * 2 ^ (y % w))))

/-- VSHR (R223). -/
def execVvshr (stall : Fin 3072) (s : State) : Host.Outcome State Fault Refusal :=
  s.live (s.issue stall.val 0x44 (effBits (fun w x y => x / 2 ^ (y % w))))

/-- VPOPC (R223). -/
def execVvpopc (stall : Fin 3072) (s : State) : Host.Outcome State Fault Refusal :=
  s.live (s.issue stall.val 0x45 effVpopc)

/-- VIOTA (R223). -/
def execVviota (stall : Fin 3072) (s : State) : Host.Outcome State Fault Refusal :=
  s.live (s.issue stall.val 0x46 effViota)

/-- VBCAST (R223). -/
def execVvbcast (stall : Fin 3072) (s : State) : Host.Outcome State Fault Refusal :=
  s.live (s.issue stall.val 0x47 effVbcast)

/-- VCVT (R226). -/
def execVvcvt (stall : Fin 3072) (s : State) : Host.Outcome State Fault Refusal :=
  s.live (s.issue stall.val 0x50 effVcvt)

/-- VCVTMX (R227). -/
def execVvcvtmx (stall : Fin 3072) (s : State) : Host.Outcome State Fault Refusal :=
  s.live (s.issue stall.val 0x51 effVcvtmx)

/-- VREDADD (R228). -/
def execVvredadd (stall : Fin 3072) (s : State) : Host.Outcome State Fault Refusal :=
  s.live (s.issue stall.val 0x58 (effRed 0))

/-- VREDMIN (R228). -/
def execVvredmin (stall : Fin 3072) (s : State) : Host.Outcome State Fault Refusal :=
  s.live (s.issue stall.val 0x59 (effRed 1))

/-- VREDMAX (R228). -/
def execVvredmax (stall : Fin 3072) (s : State) : Host.Outcome State Fault Refusal :=
  s.live (s.issue stall.val 0x5A (effRed 2))

/-- VCOMPRESS (R229). -/
def execVvcompress (stall : Fin 3072) (s : State) : Host.Outcome State Fault Refusal :=
  s.live (s.issue stall.val 0x5C effVcompress)

/-- HWAIT (R243). -/
def execVhwait (stall : Fin 3072) (s : State) : Host.Outcome State Fault Refusal :=
  s.live (s.hwaitRow stall.val 0x60)

/-- HPOST (R243). -/
def execVhpost (stall : Fin 3072) (s : State) : Host.Outcome State Fault Refusal :=
  s.live (s.hpostRow stall.val 0x61)

/-- DISPATCH (R242). -/
def execVdispatch (stall : Fin 3072) (s : State) : Host.Outcome State Fault Refusal :=
  s.live (s.dispatchRow stall.val 0x68)

/-- BANK_SWITCH (R238). -/
def execBankSwitch (stall : Fin 3072) (s : State) : Host.Outcome State Fault Refusal :=
  s.live (s.bankSwitchRow stall.val)

end Sys2Proof.Machine
end

