-- ==== Sys2Proof/Machine/Service.lean ====
section
/-!
DEFINITION. Stall faults, the gait meter, the end of a discard and repair in service (R94, R113, R120, R161, R235, R592 to R606).
-/

namespace Sys2Proof.Machine

/-! ## Commands at a stall -/

/-- The command of a list that comes first by queue, then by sequence number (R594). -/
def firstCmd : List Cmd → Option Cmd
  | [] => none
  | c :: t =>
    match firstCmd t with
    | none => some c
    | some e => if c.queue < e.queue ∨ (c.queue = e.queue ∧ c.seq ≤ e.seq) then some c else some e

/-- The stalls whose team a command uses: those of a MATRIX command or of a tandem's MATRIX stages. -/
def State.teamStalls (s : State) (c : Cmd) : List Nat :=
  if descClass c.desc = 1 then s.stallsUsed c.corral c.desc []
  else if descClass c.desc = 5 then
    (c.stageTabs.filter (fun r => descClass r == 1)).flatMap (fun r => s.stallsUsed c.corral r [])
  else []

/-- The running command that uses a stall's team: the first granted that has rows to stream there (R182), else the first granted. -/
def State.teamUser (s : State) (st : Nat) : Option Cmd :=
  (s.cmds.find? (fun c => (s.rowsLeft c).contains st)).orElse
    (fun _ => s.cmds.find? (fun c => c.phase == .running && (s.teamStalls c).contains st))

/-- Nanoseconds of the window in which a second parity error fails a row (R605). -/
def parityWindow : Nat := 86400 * 10 ^ 9

/-- The row of the team that an error at a physical row concerns: none where that row is not in use (R110). -/
def rowInUse (r : RepairSt) (phys : Nat) : Option Nat :=
  if phys = 8 then (if r.row8 then some r.row else none)
  else if r.row8 ∧ r.row = phys then none else some phys

/-- A stationary parity error (R94): the event, the fault, and the repair that a second one in 24 hours calls for (R605). -/
def State.parityError (s : State) (st phys : Nat) : State :=
  let r := s.repair st
  match s.teamUser st, rowInUse r phys with
  | some c, some row =>
    let recent := r.parityAt.filter (fun t => decide (s.time < t + parityWindow))
    let s1 := s.setRepair st { r with parityAt := s.time :: recent }
    let s2 := s1.raise .stl st 1 E_STL_PARITY c.queue (some c.corral)
    s2.fault c.corral E_STL_PARITY c.queue (some (c.seq, 0, 0)) (if recent.isEmpty then [] else [(st, row)])
  | _, _ => s

/-- A handshake of the team that did not complete in 100 µs (R120): the row that failed is not stated and is a free value. -/
def State.chainTimeout (s : State) (st : Nat) : State :=
  match s.teamUser st with
  | some c =>
    let d := s.draw
    let s1 := d.2.raise .stl st 3 E_STL_CHAIN c.queue (some c.corral)
    s1.fault c.corral E_STL_CHAIN c.queue (some (c.seq, 0, 0)) [(st, d.1.toNat % 8)]
  | none => s

/-- An uncorrectable error in an accumulator segment (R161). -/
def State.acsUncorr (s : State) (st seg : Nat) : State :=
  match firstCmd (s.cmds.filter (fun c => c.phase == .running && c.segs.contains (st * 64 + seg))) with
  | some c => (s.raise .acs st 1 E_ACS_ECC c.queue (some c.corral)).failCmd c E_ACS_ECC 0 0
  | none =>
    if (acsSeg s.acs st seg).valid then { s with acs := acsInvalidate s.acs st seg }.raise0 .acs st 1 else s

/-- Every instruction of a page becomes unverified (R224). -/
def State.unverifyPage (s : State) (st page : Nat) : State :=
  let q := s.seqr st
  s.setSeqr st { q with verified := q.verified.filter (fun e => e.1 / 64 != page) }

/-- A bank's program uses a page of the store. -/
def bankUsesPage (b : BankSt) (page : Nat) : Bool :=
  b.phase != .free && decide (b.pstart < (page + 1) * 64) && decide (page * 64 < b.pstart + b.plen)

/-- The command of a bank. -/
def State.bankCommand (s : State) (b : BankSt) : Option Cmd :=
  match s.cmd b.queue b.seq with
  | some c => if c.phase = .running then some c else none
  | none => none

/-- An uncorrectable error in a vector register of a bank, or in a page of the program store (R235, R224). -/
def State.vecUncorr (s : State) (st : Nat) (bank : Bool) (page : Option Nat) : State :=
  let q := s.seqr st
  let fail (t : State) (b : BankSt) : State :=
    match s.bankCommand b with
    | some c => (t.raise .vec st 1 E_VEC_ECC c.queue (some c.corral)).failCmd c E_VEC_ECC 0 b.stage
    | none => t.raise0 .vec st 1
  match page with
  | none => if (q.bank bank).phase = .free then s else fail s (q.bank bank)
  | some p =>
    let t := s.unverifyPage st p
    if bankUsesPage (q.bank bank) p then fail t (q.bank bank)
    else if bankUsesPage (q.bank (!bank)) p then fail t (q.bank (!bank))
    else t.raise0 .vec st 1

/-- One reading of a gait meter (R112, R113, R118). -/
def State.gaitSample (s : State) (st rate : Nat) : State :=
  let lim := s.reg .STL_GAIT_LIMIT st 0
  let old := smGet (fun _ => StlSt.idle) s.stls st
  let lows := if rate < lim.fld 11 0 then old.lows + 1 else 0
  let s1 := s.setReg .STL_GAIT_METER st 0
    (((s.reg .STL_GAIT_METER st 0).put 47 32 (s.fld .STL_GAIT_METER st 0 47 32 + 1)).put 11 0 rate)
  let s2 : State := { s1 with stls := smSet (fun _ => StlSt.idle) s1.stls st { old with lows := lows } }
  if lim.fld 23 16 ≤ lows ∧ 0 < lows then s2.raise0 .stl st 0 else s2

/-! ## Repair (R604 to R606) -/

/-- A feature of the firmware is ACTIVE (R534). -/
def State.feature (s : State) (n : Nat) : Bool := (s.reg .GRM_FEATURES_ACTIVE 0 0).bit n

/-- The spare of a stall's column group, 8 × die + g (R22, R601). -/
def spareOf (st : Nat) : Nat := 8 * (st / 768) + st % 32 / 4

/-- A spare stands in, or has stood in, for some stall. -/
def State.spareTaken (s : State) (n : Nat) : Bool :=
  s.svc.repairs.any (fun e => e.2.spare == some n || e.2.lost == some n)

/-- A stall is replaced or retired: its store is empty and its pages are unverified (R162, R606). -/
def State.clearStall (s : State) (st : Nat) : State :=
  let base := stallAddr st 0
  let t : State :=
    { s with
      acs := { segs := s.acs.segs.filter (fun e => e.1 / 64 != st), pos := s.acs.pos.filter (fun e => e.1 / 16384 != st) }
      seqs := smSet (fun _ => SeqSt.idle) s.seqs st SeqSt.idle
      mem := s.mem.filter (fun c => !(decide (base ≤ c.1) && decide (c.1 < base + 0x40000))) }
  t.setReg .STL_REPAIR st 0 0

/-- Switch the spare row in for a failed row, or replace or retire the stall (R605, R606). -/
def State.repairStall (s : State) (st row : Nat) : State :=
  let r := s.repair st
  if !s.feature 7 then s
  else if !r.row8 then
    let s1 := s.setRepair st { r with parityAt := [], row8 := true, row := row, source := true }
    let s2 := s1.setReg .STL_REPAIR st 0 (BitVec.ofNat 64 (128 + row % 8 * 16 + 1))
    s2.raise0 .stl st 2
  else
    let n := spareOf st
    if !s.spareTaken n then
      ((s.clearStall st).setRepair st { RepairSt.idle with retired := true, spare := some n }).deviceEvent st 3 0 0xFFFF
        (s.owner .stall st) n
    else
      ((s.clearStall st).setRepair st
        { RepairSt.idle with retired := true, spare := none, lost := if r.spare.isSome then r.spare else r.lost }).deviceEvent
          st 4 0 0xFFFF (s.owner .stall st) 0

/-! ## The end of a discard (R594) -/

/-- A corral's work has a request outstanding (R594, step 3). -/
def State.corralBusy (s : State) (c : Nat) : Bool :=
  s.noc.reqs.any (fun e => match e.2 with | some r => r.corral == c | none => false)

/-- End the discarded commands of a corral, in ascending queue and then sequence number. -/
def State.endDiscarded (s : State) (corral : Nat) (d : Discard) : Nat → State
  | 0 => s
  | n + 1 =>
    match firstCmd (s.cmds.filter (fun c => c.corral == corral)) with
    | none => s
    | some c =>
      let t :=
        match c.phase with
        | .failing code detail stage => s.endCmd c code detail stage false
        | .discarding f q => s.endCmd c E_DISCARDED (f * 2 ^ 16 + q) 0 false
        | .running => s.endCmd c E_DISCARDED (d.code * 2 ^ 16 + d.queue) 0 false
      t.endDiscarded corral d n

/-- Steps 4 to 7 of a discard whose requests have retired (R594). DEDUCED (log 138): each fault that joined it has a DISCARD record of its
own (R596). -/
def State.discardDone (s : State) (corral : Nat) : State :=
  match s.discard corral with
  | none => s
  | some d =>
    if s.corralBusy corral then s
    else
      let n := (s.cmds.filter (fun c => c.corral == corral)).length
      let s1 := d.repair.foldl (fun t r => t.repairStall r.1 r.2) s
      let s2 := s1.endDiscarded corral d n
      let log := smGet (fun _ => CorralLog.idle) s2.svc.corrals corral
      let s3 : State :=
        { s2 with svc := { s2.svc with
            discards := smSet (fun _ => none) s2.svc.discards corral none
            corrals := smSet (fun _ => CorralLog.idle) s2.svc.corrals corral { log with discarded := log.discarded + n } } }
      let s4 := ((d.code, d.queue) :: d.joined).foldl (fun t f => t.deviceEvent 0 0 f.1 f.2 (some corral) 0) s3
      (s4.owned .queue corral).foldl (fun t q => (t.walkPump q).fetchNext q) s4

/-! ## The rows -/

/-- CHAIN_HANDSHAKE_TIMEOUT (R120). -/
def execChainHandshakeTimeout (stall : Fin 3072) (s : State) : Host.Outcome State Fault Refusal :=
  s.live (s.chainTimeout stall.val)

/-- STATIONARY_PARITY_ERROR (R94). -/
def execStationaryParityError (stall : Fin 3072) (row : Fin 9) (s : State) : Host.Outcome State Fault Refusal :=
  s.live (s.parityError stall.val row.val)

/-- An error of one bit in an accumulator store, met on a read (R161). -/
def State.acsCorr (s : State) (st : Nat) : State := (s.bump .ACS_ECC_COUNT st 0 1).raise0 .acs st 0

/-- A single-bit error in a vector register or the program store (R235, R252). -/
def State.vecCorr (s : State) (st : Nat) : State := (s.bump .VEC_ECC_COUNT st 0 1).raise0 .vec st 0

/-- ACS_UNCORRECTABLE (R161). -/
def execAcsUncorrectable (stall : Fin 3072) (err : EccError (Fin 64)) (s : State) : Host.Outcome State Fault Refusal :=
  s.live (match err with
    | .uncorrectable seg => s.acsUncorr stall.val seg.val
    | .corrected => s.acsCorr stall.val)

/-- VEC_UNCORRECTABLE (R235). -/
def execVecUncorrectable (stall : Fin 3072) (bank : Bool) (err : EccError (Option (Fin 32))) (s : State) :
    Host.Outcome State Fault Refusal :=
  s.live (match err with
    | .uncorrectable page => s.vecUncorr stall.val bank (page.map (·.val))
    | .corrected => s.vecCorr stall.val)

/-- GAIT_METER_SAMPLE (R113). -/
def execGaitMeterSample (stall : Fin 3072) (rate : BitVec 12) (s : State) : Host.Outcome State Fault Refusal :=
  let t := s.gaitSample stall.val rate.toNat
  s.live { s with regs := t.regs, stls := t.stls, svc := t.svc }

/-- DISCARD_REQUESTS_RETIRED (R594). -/
def execDiscardRequestsRetired (corral : BitVec 8) (s : State) : Host.Outcome State Fault Refusal :=
  s.live (s.discardDone corral.toNat)

end Sys2Proof.Machine
end

