-- ==== Sys2Proof/Machine/Noc.lean ====
section
/-!
DEFINITION. The tile network (chapter 12): route words and turn codes, guaranteed flits, route faults, and initiator timeouts.
-/

namespace Sys2Proof.Machine

/-! ## The device mesh (R418, R419) -/

/-- Global row of a router. -/
def routerRow (r : Nat) : Nat := r / 32

/-- Global column of a router. -/
def routerCol (r : Nat) : Nat := r % 32

/-- The die of a router. -/
def routerDie (r : Nat) : Nat := routerRow r / 12 * 2 + routerCol r / 16

/-- A router's die-local position, 16 × rr + rc. -/
def routerLocal (r : Nat) : Nat := routerRow r % 12 * 16 + routerCol r % 16

/-- The code of a direction on a link (R429, R435). -/
def dirCode : Dir → Nat
  | .north => 0 | .east => 1 | .south => 2 | .west => 3

/-- The opposite direction. -/
def dirBack : Dir → Dir
  | .north => .south | .east => .west | .south => .north | .west => .east

/-- The direction of a turn code (R425). -/
def codeDir (c : Nat) : Option Dir :=
  match c with
  | 1 => some .north | 2 => some .east | 3 => some .south | 4 => some .west | _ => none

/-- The next router in a direction; none where the move would leave the mesh. -/
def stepRouter (r : Nat) (d : Dir) : Option Nat :=
  match d with
  | .north => if routerRow r = 0 then none else some (r - 32)
  | .east => if routerCol r = 31 then none else some (r + 1)
  | .south => if routerRow r = 23 then none else some (r + 32)
  | .west => if routerCol r = 0 then none else some (r - 1)

/-- LINK_OFF of a router in a direction (R429). -/
def State.linkOffAt (s : State) (r : Nat) (d : Dir) : Bool :=
  bitAt (fmWord s.cfg.frames (frameAddr (routerDie r) 3 0 (19 + routerLocal r / 128)) (routerLocal r % 128)) (dirCode d)

/-- The link between two neighbours is switched off by either end (R429). -/
def State.linkOff (s : State) (r n : Nat) (d : Dir) : Bool := s.linkOffAt r d || s.linkOffAt n (dirBack d)

/-! ## The control word (R430) -/

def NocPacket.dst (p : NocPacket) : Nat := p.ctl.fld 63 54
def NocPacket.dstKind (p : NocPacket) : Nat := p.ctl.fld 53 51
def NocPacket.src (p : NocPacket) : Nat := p.ctl.fld 44 35
def NocPacket.srcKind (p : NocPacket) : Nat := p.ctl.fld 34 32
def NocPacket.srcIndex (p : NocPacket) : Nat := p.ctl.fld 31 26
def NocPacket.tag (p : NocPacket) : Nat := p.ctl.fld 25 10
def NocPacket.gen (p : NocPacket) : Nat := p.ctl.fld 9 2
def NocPacket.guar (p : NocPacket) : Bool := p.ctl.bit 1

/-- Turn code `i` of a route word; 16 codes that end without an END end in one (R425). -/
def turnCode (w : Word) (i : Nat) : Nat := if i < 16 then w.fld (4 * i + 3) (4 * i) else 0

/-- The stall a packet's source names (R418, R430). -/
def NocPacket.srcStall (p : NocPacket) : Nat :=
  routerDie p.src * 768 + (2 * (routerLocal p.src / 16) + p.srcIndex / 2 % 2) * 32 + (2 * (routerLocal p.src % 16) + p.srcIndex % 2)

/-- The attachment a packet's source names (R420, R430). -/
def NocPacket.srcAttach (p : NocPacket) : Nat :=
  match p.srcKind with
  | 1 => p.srcIndex
  | 2 => 36 + p.srcIndex
  | 3 => 68 + p.srcIndex
  | 4 => 72
  | _ => 73

/-- A request that its source's die tracks (R439): a packet on REQ, or a write on DAT to an HBM controller (R421). -/
def NocPacket.isRequest (p : NocPacket) : Bool := p.net == 0 || (p.net == 3 && !p.readData && p.dstKind == 2)

/-- A response: a packet on RSP, or read data on DAT (R421). -/
def NocPacket.isResponse (p : NocPacket) : Bool := p.net == 1 || (p.net == 3 && p.readData)

/-- The command that waits for a request of a stall's network interface. -/
def State.stallUser (s : State) (st : Nat) : Option Cmd :=
  firstCmd (s.cmds.filter (fun c => c.phase == .running && (s.stallsUsed c.corral c.desc c.stageTabs).contains st))

/-- The queue of the command a packet works for: that of the request it answers or makes, else that of its source stall's command. -/
def State.pktQueue (s : State) (p : NocPacket) : Option Nat :=
  let named := match s.tracked (routerDie (if p.readData then p.dst else p.src)) p.tag with
    | some r => if r.gen = p.gen then some r.queue else none
    | none => none
  match named with
  | some q => some q
  | none => if p.srcKind = 0 ∧ !p.readData then (s.stallUser p.srcStall).map (·.queue) else none

/-- The flow by which a DAT packet goes (R436): while a command of its queue runs, the flow of that queue between its routers. -/
def State.flowFor (s : State) (p : NocPacket) : Option Nat :=
  match s.pktQueue p with
  | none => none
  | some q =>
    if p.net = 3 ∧ s.cmds.any (fun c => c.queue == q && c.phase == .running) then
      (upTo 64).find? (fun n =>
        let a := s.reg .NOC_FLOW_A (routerDie p.src) n
        a.bit 63 && a.fld 47 32 == q && a.fld 9 0 == p.src && a.fld 25 16 == p.dst)
    else none

/-- The route word with which a packet leaves its source (R427, R428, R436). -/
def State.routeFor (s : State) (p : NocPacket) : Word :=
  match p.flow with
  | some n => s.reg .NOC_FLOW_ROUTE (routerDie p.src) n
  | none =>
    let aimTo := if p.dstKind = 6 then 0 else p.dst
    let rc := routerLocal aimTo % 16
    if p.srcKind = 0 then BitVec.ofNat 64 (fmWord s.cfg.frames (stallFrame p.srcStall) (32 * routerDie aimTo + 8 * p.net + rc / 2))
    else
      let a := p.srcAttach
      BitVec.ofNat 64 (fmWord s.cfg.frames (frameAddr (routerDie p.src) 3 0 (a / 4))
        (32 * (a % 4) + 8 * routerDie aimTo + 2 * p.net + rc / 8))

/-! ## Route faults (R426, R445) -/

/-- A router route-faults a packet: 0 reserved code, 1 left the mesh, 2 link switched off, 3 wrong direction or END away. -/
def State.routeFault (s : State) (p : NocPacket) (pos cause : Nat) : State :=
  let d := routerDie p.router
  let s1 := s.bump .NOC_CNT d 0 1
  let s2 := if (s.reg .NOC_EVENT d 0).bit 0 then s1
    else s1.setReg .NOC_ROUTE_FAULT d 0 (BitVec.ofNat 64 (p.router % 1024 * 2 ^ 54 + pos % 16 * 2 ^ 50 + p.net % 4 * 2 ^ 48
      + cause % 4 * 2 ^ 46 + p.src % 1024 * 2 ^ 36 + p.srcKind % 8 * 2 ^ 33 + p.srcIndex % 64 * 2 ^ 27))
  s2.raise0 .noc d 0

/-! ## Delivery -/

/-- A late response is dropped (R440); its tag returns to use if it was held for it. -/
def State.lateRsp (s : State) (die tag gen : Nat) : State :=
  let held := match smGet (fun _ => none) s.noc.held (die * 65536 + tag) with
    | some (g, _) => if g = gen then smSet (fun _ => none) s.noc.held (die * 65536 + tag) none else s.noc.held
    | none => s.noc.held
  ({ s with noc := { s.noc with held := held } }.bump .NOC_CNT die 2 1).raise0 .noc die 3

/-- A packet leaves the network. -/
def State.leavePkt (s : State) (p : NocPacket) : State := { s with noc := { s.noc with packets := s.noc.packets.erase p } }

/-- A packet goes on at the router it is at, or its state there changes. -/
def State.keepAs (s : State) (p q : NocPacket) : State := { s with noc := { s.noc with packets := s.noc.packets.replace p q } }

/-- A packet arrives at its next router, behind those that have arrived there before it. -/
def State.arriveAs (s : State) (p q : NocPacket) : State :=
  { s with noc := { s.noc with packets := s.noc.packets.erase p ++ [q] } }

/-- A packet reaches its destination. A response ends the request it answers; one that answers none is late, and is not delivered
(R439, R440). -/
def State.deliver (s : State) (p : NocPacket) : State :=
  let d := routerDie p.dst
  let s1 := s.leavePkt p
  let given : State := { s1 with noc := { s1.noc with delivered := s1.noc.delivered ++ [p] } }
  if !p.isResponse then given
  else match s.tracked d p.tag with
  | some r => if r.gen = p.gen ∧ r.remote.isNone then given.untrack d p.tag else s1.lateRsp d p.tag p.gen
  | none => s1.lateRsp d p.tag p.gen

/-- A broadcast, or a copy of it, is delivered at its router to every attachment and stall there, and copied on along the fixed tree:
east along row 0, and south down every column (R422). -/
def State.spreadPkt (s : State) (p : NocPacket) : State :=
  let copy (d : Dir) : NocPacket := { p with spread := true, dir := some d, left := 1, lane := none }
  let out := (if routerRow p.router = 0 ∧ routerCol p.router < 31 then [copy .east] else [])
    ++ (if routerRow p.router < 23 then [copy .south] else [])
  { s with noc := { s.noc with packets := s.noc.packets.erase p ++ out, delivered := s.noc.delivered ++ [p] } }

/-! ## One hop (R425, R435 to R437) -/

/-- What a packet does next at its router. -/
inductive Turn where
  | deliver
  | go (d : Dir) (left pos : Nat)
  | fault (pos cause : Nat)
  deriving DecidableEq, Repr

/-- Execute turn codes until one moves the packet, delivers it or faults (R425, R426). DEDUCED (log 78): a direction in code 15, which no
count can follow, moves nothing, and the route ends there. -/
def nextTurn (p : NocPacket) : Nat → Nat → Turn
  | 0, pos => .fault pos 3
  | fuel + 1, pos =>
    let aimTo := if p.dstKind = 6 then 0 else p.dst
    let c := turnCode p.route pos
    let atEnd := if p.router = aimTo then Turn.deliver else .fault (min pos 15) 3
    if c = 0 then atEnd
    else
      match codeDir c with
      | none => .fault pos 0
      | some d =>
        if 15 ≤ pos then atEnd else
        let count := turnCode p.route (pos + 1)
        let own := match d with | .north | .south => routerRow p.router | _ => routerCol p.router
        let aim := match d with | .north | .south => routerRow aimTo | _ => routerCol aimTo
        let last := match d with | .south => 23 | .east => 31 | _ => 0
        let upward := match d with | .south | .east => true | _ => false
        if count = 14 then
          if (upward && decide (aim < own)) || (!upward && decide (own < aim)) then .fault pos 3
          else if aim = own then nextTurn p fuel (pos + 2)
          else .go d (if upward then aim - own else own - aim) pos
        else if count = 15 then
          if last = own then nextTurn p fuel (pos + 2) else .go d (if upward then last - own else own - last) pos
        else .go d (count + 1) pos

/-- Where the wheel stands for a guaranteed packet on its next link, in slots after the first that its flow holds there (R435, R436), and
the last of them. -/
def State.slotPlace (s : State) (p : NocPacket) : Nat × Nat :=
  match p.flow with
  | none => (0, 63)
  | some n =>
    let w := s.reg .NOC_FLOW_SLOTS (routerDie p.src) n
    ((s.time / 2 % 64 + 64 - (w.fld 5 0 + p.hops + p.bridges) % 64) % 64, w.fld 11 6)

/-- The wheel stands in a slot of a guaranteed packet's flow. -/
def State.slotHeld (s : State) (p : NocPacket) : Bool := decide ((s.slotPlace p).1 ≤ (s.slotPlace p).2)

/-- A guaranteed packet may start flits now: in such a slot, once the guard has passed (R30, R435). -/
def State.slotOpen (s : State) (p : NocPacket) : Bool := s.slotHeld p && s.time % 2 == 1

/-- A guaranteed packet has come before the first slot of its flow: a hop ends at most one slot early, over a bridge lane two. -/
def State.slotEarly (s : State) (p : NocPacket) : Bool :=
  (s.slotPlace p).1 == 63 || (p.lane.isSome && (s.slotPlace p).1 == 62)

/-! ## Bridge lanes (R423) -/

/-- The receive credits' class of a packet on a lane: REQ 0, RSP 1, SNP 2, and the virtual channels of DAT: DREQ 3, DRSP 4, GUAR 5. -/
def NocPacket.laneClass (p : NocPacket) : Nat :=
  if p.net = 3 then (if p.guar then 5 else if p.readData then 4 else 3) else p.net

/-- The direction in which a packet leaves its router next. -/
def NocPacket.heading (p : NocPacket) : Option Dir :=
  match p.dir with
  | some d => some d
  | none => match nextTurn p 9 p.pos with | .go d _ _ => some d | _ => none

/-- A packet leaves its router next by a link (R435). -/
def NocPacket.leavesBy (p : NocPacket) (link : Nat) : Bool := p.heading.map (fun d => 4 * p.router + dirCode d) == some link

/-- Flits of a class in a lane's receive buffer at its far end, of the packets of the network. -/
def laneUsed (l : List NocPacket) (lane cls : Nat) : Nat :=
  ((l.filter (fun q => q.laneClass == cls)).map (fun q =>
    if q.lane = some lane then q.flits else if q.leavesBy lane then q.crossed else 0)).sum

/-- A class has a receive credit on a lane. DESIGN CHOICE (log 107): the spec gives no depth; a buffer takes one packet of five flits,
and a free number beyond it. -/
def laneCredit (l : List NocPacket) (lane cls : Nat) : Bool :=
  decide (laneUsed l lane cls < 5) || decide (laneUsed l lane cls < 5 + Config.laneCredits cls)

/-- A guaranteed packet can start a flit on a link: its flow's slot is open, and the link has sent fewer than 3 GUAR flits in the slot
(R423, R435). -/
def State.laneGuar (s : State) (lane : Nat) (p : NocPacket) : Bool :=
  let l := smGet (fun _ => LaneSt.idle) s.noc.lanes lane
  s.slotOpen p && decide ((if l.slot = s.time / 2 then l.guar else 0) < 3)

/-- Classes with a flit and a credit at a lane. -/
def State.laneReady (s : State) (lane : Nat) (l : List NocPacket) : List Nat :=
  ((l.filter (fun q => q.leavesBy lane && (q.laneClass != 5 || s.laneGuar lane q))).map (·.laneClass)).filter (laneCredit l lane)

/-- The networks in the order of the eleven round-robin turns: RSP, REQ and DAT flits, 2 : 1 : 8 (R423). -/
def laneTurns : List Nat := [1, 1, 0, 3, 3, 3, 3, 3, 3, 3, 3]

/-- A class takes a turn of a network. -/
def turnTakes (net cls : Nat) : Bool := cls == net || (net == 3 && cls == 4)

/-- The turn that comes next, from a place in the order, among ready classes; none where no round-robin class is ready. -/
def nextLaneTurn (turn : Nat) (ready : List Nat) : Option Nat :=
  ((upTo 11).map (fun i => (turn + i) % 11)).find? (fun k => ready.any (turnTakes (laneTurns.getD k 0)))

/-- Does a lane cycle send a flit of a class (R423)? First GUAR; then SNP, but not twice in a row while a round-robin flit is ready;
then the turn. DESIGN CHOICE (log 107): a lane's cycles are those in which it sends a flit. -/
def laneSends (l : LaneSt) (ready : List Nat) (cls : Nat) : Bool :=
  let rr := nextLaneTurn l.turn ready
  if ready.contains 5 then cls == 5
  else if ready.contains 2 && !(l.snp && rr.isSome) then cls == 2
  else match rr with
    | some k => turnTakes (laneTurns.getD k 0) cls && ready.contains cls
    | none => false

/-- A lane after it has sent a flit of a class. -/
def LaneSt.after (l : LaneSt) (ready : List Nat) (cls slot : Nat) : LaneSt :=
  if cls = 5 then { l with snp := false, slot := slot, guar := (if l.slot = slot then l.guar else 0) + 1 }
  else if cls = 2 then { l with snp := true }
  else { l with snp := false, turn := match nextLaneTurn l.turn ready with | some k => (k + 1) % 11 | none => l.turn }

/-- A packet's place after it has made one hop of its move. -/
def NocPacket.hopTo (p : NocPacket) (d : Dir) (n left pos : Nat) (lane : Option Nat) : NocPacket :=
  { p with router := n, missed := false, hops := p.hops + 1, bridges := p.bridges + b2n lane.isSome
           dir := if 1 < left then some d else none
           left := left - 1, pos := if 1 < left || p.spread then pos else pos + 2, crossed := 0, lane := lane }

/-- One flit of a packet crosses a link; the packet follows its last flit. -/
def State.sendFlit (s : State) (p : NocPacket) (d : Dir) (n left pos : Nat) (lane : Option Nat) : State :=
  if p.crossed + 1 < p.flits then s.keepAs p { p with crossed := p.crossed + 1, missed := false }
  else s.arriveAs p (p.hopTo d n left pos lane)

/-- A flit of a packet crosses a bridge lane where the lane sends it now, else the packet waits; flits of two packets of one class do
not mix (R423). -/
def State.crossLane (s : State) (p : NocPacket) (d : Dir) (n left pos : Nat) : State :=
  let lane := 4 * p.router + dirCode d
  let l := smGet (fun _ => LaneSt.idle) s.noc.lanes lane
  let ready := s.laneReady lane s.noc.packets
  if !laneSends l ready p.laneClass
      || (s.noc.packets.erase p).any (fun q => q.leavesBy lane && q.laneClass == p.laneClass && q.crossed != 0) then s
  else
    let die := routerDie p.router
    let s1 : State := { s with noc := { s.noc with
      lanes := smSet (fun _ => LaneSt.idle) s.noc.lanes lane (l.after ready p.laneClass (s.time / 2)) } }
    let s2 := (if p.laneClass = 5 then s1.bump .NOC_CNT die 3 1 else s1).bump .NOC_CNT die 5 1
    s2.sendFlit p d n left pos (some lane)

/-- A guaranteed flit crosses a link within its die, if the slot still takes one (R435). -/
def State.crossGuar (s : State) (p : NocPacket) (d : Dir) (n left pos : Nat) : State :=
  let link := 4 * p.router + dirCode d
  if !s.laneGuar link p then s
  else
    let l := smGet (fun _ => LaneSt.idle) s.noc.lanes link
    let s1 : State := { s with noc := { s.noc with
      lanes := smSet (fun _ => LaneSt.idle) s.noc.lanes link (l.after [] 5 (s.time / 2)) } }
    (s1.bump .NOC_CNT (routerDie p.router) 3 1).sendFlit p d n left pos none

/-- A guaranteed packet waits: the flits it still has here miss their slot, once for each slot they wait for (R437). -/
def State.missSlot (s : State) (p : NocPacket) : State :=
  let die := routerDie p.router
  if s.slotHeld p || p.missed || s.slotEarly p then s
  else ((s.keepAs p { p with missed := true }).bump .NOC_CNT die 4 (p.flits - p.crossed)).raise0 .noc die 2

/-- The packet moves one hop, or waits for its slot (R425, R426, R437). -/
def State.movePkt (s : State) (p : NocPacket) (d : Dir) (left pos : Nat) : State :=
  match stepRouter p.router d with
  | none => (s.leavePkt p).routeFault p pos 1
  | some n =>
    let bridge := routerDie n != routerDie p.router
    if s.linkOff p.router n d then (s.leavePkt p).routeFault p pos 2
    else if p.guar && p.net == 3 && !s.slotOpen p then s.missSlot p
    else if bridge then s.crossLane p d n left pos
    else if p.guar && p.net == 3 then s.crossGuar p d n left pos
    else s.arriveAs p (p.hopTo d n left pos none)

/-- The router executes the next step of a packet's route. -/
def State.routePkt (s : State) (p : NocPacket) : State :=
  match p.dir with
  | some d => s.movePkt p d p.left p.pos
  | none =>
    if p.spread then s.spreadPkt p
    else match nextTurn p 9 p.pos with
    | .deliver => if p.net = 2 ∧ p.dstKind = 6 then s.spreadPkt p else s.deliver p
    | .fault pos cause => (s.leavePkt p).routeFault p pos cause
    | .go d left pos => s.movePkt p d left pos

/-- What orders packets (R434): network and virtual channel, source, destination and route word, with where the packet stands; what
tells one packet from the next is left out. -/
def NocPacket.path (p : NocPacket) : NocPacket := { p with ctl := p.ctl.put 25 2 0, flits := 0, missed := false, crossed := 0 }

/-- A packet of the same path has come to a packet's router before it, and must leave before it (R434). -/
def State.behind (s : State) (p : NocPacket) : Bool := (s.noc.packets.takeWhile (· != p)).any (fun q => q.path == p.path)

/-- A packet as its source sends it: at its source router, with nothing behind it. -/
def freshPkt (p : NocPacket) : Bool :=
  p.pos == 0 && p.dir.isNone && p.left == 0 && !p.missed && p.hops == 0 && p.bridges == 0 && p.crossed == 0 && p.lane.isNone && p.flow.isNone && !p.spread
    && p.router == p.src    && decide (p.router < 768) && decide (p.dst < 768) && decide (p.net < 4) && p.dstKind != 7 && decide (p.srcKind < 6)
    && decide (1 ≤ p.flits ∧ p.flits ≤ 5)

/-- A request leaves its initiator: its die tracks it, with the timeout of its target (R439). -/
def State.trackPkt (s : State) (p : NocPacket) : State :=
  let d := routerDie p.src
  if !p.isRequest then s
  else
    let lim := s.nocTimeout d (p.dstKind == 3)
    let c := if p.srcKind = 0 then s.stallUser p.srcStall else none
    let r : TrackedReq :=
      { gen := p.gen, deadline := s.time + lim, timeout := lim, queue := (match c with | some c => c.queue | none => 0xFFFF)
        seq := (match c with | some c => c.seq | none => 0), corral := (match c with | some c => c.corral | none => 256)
        remote := none, kind := 0, addr := 0, len := 0, dest := 0, ctx := 0, recv := 0 }
    { s with noc := { s.noc with reqs := smSet (fun _ => none) s.noc.reqs (d * 65536 + p.tag) (some r) } }

/-- A packet that its source can send: a request has a free tag and its generation (R439, R440). -/
def State.canSend (s : State) (p : NocPacket) : Bool :=
  freshPkt p && (!p.isRequest || (s.tagFree (routerDie p.src) p.tag && p.gen == s.tagGen (routerDie p.src) p.tag))

/-- A packet as its source sends it: by its flow, or as best effort, with its route word (R427, R428, R436). -/
def State.asSent (s : State) (p : NocPacket) : NocPacket :=
  let f := s.flowFor p
  let q : NocPacket := { p with flow := f, ctl := p.ctl.put 1 1 (b2n f.isSome) }
  { q with route := s.routeFor q }

/-- NOC_PACKET_HOP: a packet in the network goes on, or a new one leaves its source. -/
def State.nocHop (s : State) (p : NocPacket) : State :=
  if s.noc.packets.contains p then (if s.behind p then s else s.routePkt p)
  else if s.canSend p then
    let t := s.trackPkt p
    let q := t.asSent p
    let u : State := { t with noc := { t.noc with packets := t.noc.packets ++ [q] } }
    if u.behind q then u else u.routePkt q
  else s

/-- NOC_FLIT_STUCK (R433). -/
def State.nocStuck (s : State) (p : NocPacket) : State :=
  if s.noc.packets.contains p then
    let d := routerDie p.router
    ({ s with noc := { s.noc with packets := s.noc.packets.erase p } }.bump .NOC_CNT d 6 1).raise0 .noc d 4
  else s

/-! ## Timeouts (R439, R440) -/

/-- A deadline passes (R439): the tag is held (R440), and the command that waited fails. -/
def State.expireReq (s : State) (die tag : Nat) : State :=
  match s.tracked die tag with
  | none => s
  | some r =>
    if s.time < r.deadline then s
    else
      let k := die * 65536 + tag
      let s1 : State := { s with noc := { s.noc with
        reqs := smSet (fun _ => none) s.noc.reqs k none
        gens := smSet (fun _ => 0) s.noc.gens k ((r.gen + 1) % 256)
        held := smSet (fun _ => none) s.noc.held k (some (r.gen, s.time + 4 * r.timeout)) } }
      let s2 := (s1.bump .NOC_CNT die 1 1).raise .noc die 1 E_NET_TIMEOUT r.queue (if r.corral < 256 then some r.corral else none)
      match s2.cmd r.queue r.seq with
      | some c => if c.corral = r.corral then s2.failCmd c E_NET_TIMEOUT 0 0 else s2
      | none => s2

/-- A response that matches no request (R440). -/
def State.lateRow (s : State) (die tag gen : Nat) : State :=
  match s.tracked die tag with
  | some r => if r.gen = gen then s else s.lateRsp die tag gen
  | none => s.lateRsp die tag gen

/-- A held tag returns to use when four timeouts have passed (R440). -/
def State.freeTag (s : State) (die tag : Nat) : State :=
  match smGet (fun _ => none) s.noc.held (die * 65536 + tag) with
  | some (_, until_) =>
    if until_ ≤ s.time then { s with noc := { s.noc with held := smSet (fun _ => none) s.noc.held (die * 65536 + tag) none } } else s
  | none => s

/-! ## The rows -/

/-- NOC_PACKET_HOP (R425). -/
def execNocPacketHop (packet : NocPacket) (s : State) : Host.Outcome State Fault Refusal :=
  let t := s.nocHop packet
  s.live { s with noc := t.noc, regs := t.regs, svc := t.svc }

/-- NOC_FLIT_STUCK (R433). -/
def execNocFlitStuck (packet : NocPacket) (s : State) : Host.Outcome State Fault Refusal :=
  let t := s.nocStuck packet
  s.live { s with noc := t.noc, regs := t.regs, svc := t.svc }

/-- INITIATOR_TIMEOUT (R439). -/
def execInitiatorTimeout (die : Fin 4) (tag : BitVec 16) (s : State) : Host.Outcome State Fault Refusal :=
  s.live (s.expireReq die.val tag.toNat)

/-- LATE_RESPONSE (R440). -/
def execLateResponse (die : Fin 4) (tag : BitVec 16) (gen : BitVec 8) (s : State) : Host.Outcome State Fault Refusal :=
  let t := s.lateRow die.val tag.toNat gen.toNat
  s.live { s with noc := t.noc, regs := t.regs, svc := t.svc }

/-- TAG_HOLD_EXPIRY (R440). -/
def execTagHoldExpiry (die : Fin 4) (tag : BitVec 16) (s : State) : Host.Outcome State Fault Refusal :=
  s.live { s with noc := (s.freeTag die.val tag.toNat).noc }

end Sys2Proof.Machine
end

