-- ==== Sys2Proof/Machine/PdkLogic.lean ====
section
/-!
DEFINITION. The logic of a paddock (R337 to R342, R383 to R386): cells, crossbar, carry chain, RAM ports, and the depth that its
gait allows for.
-/

namespace Sys2Proof.Machine

/-- A logic cell's configuration (R383). -/
structure PCell where
  lut : Nat
  sel : List Nat           -- source codes of I0 to I5, ENA, ENB
  fracture : Bool
  faSum : Bool             -- FA's input is SUM
  fbFa : Bool              -- FB's input is FA
  out : Nat
  ramB : Bool
  ramBit : Nat
  faInit : Bool
  fbInit : Bool
  faRst : Bool
  fbRst : Bool
  carryIn : Bool
  deriving DecidableEq, Repr

/-- Read a cell word (R383). -/
def pcellOf (w : Nat) : PCell :=
  { lut := bitsOf w 63 0, sel := (upTo 8).map (fun i => bitsOf w (71 + 8 * i) (64 + 8 * i)), fracture := bitAt w 128
    faSum := bitAt w 129, fbFa := bitAt w 130, out := bitsOf w 133 131, ramB := bitAt w 134, ramBit := bitsOf w 141 135
    faInit := bitAt w 142, fbInit := bitAt w 143, faRst := bitAt w 144, fbRst := bitAt w 145, carryIn := bitAt w 146 }

/-- The cells of a paddock. -/
def pcells (m : SMap Word) (p : Nat) : List PCell := (upTo 128).map (fun n => pcellOf (cellWord m p n))

/-- Widths of the RAM ports (R385). -/
def ramWidth (m : SMap Word) (p : Nat) (portB : Bool) : Nat :=
  9 * 2 ^ (if portB then bitsOf (ctlWord m p 0) 43 42 else bitsOf (ctlWord m p 0) 41 40)

/-- Replace a bit of a number. -/
def putBit (m n : Nat) (b : Bool) : Nat := if bitAt m n == b then m else if b then m + 2 ^ n else m - 2 ^ n

/-- The value of a source code (R384): `out` the cell outputs, `ch` the channel input bits. -/
def srcBit (out ch code : Nat) : Bool :=
  if code < 128 then bitAt out code else if code < 192 then bitAt ch (code - 128) else code == 193

/-- The values of every cell in a tick, bit n for cell n. -/
structure Net where
  la : Nat
  lb : Nat
  sum : Nat
  out : Nat
  deriving DecidableEq, Repr

/-- What a tick's logic starts from: storage, read data with the port widths, the channel input bits, and the free value of an LB
that is not fractured, whose function the spec does not give. -/
structure NetIn where
  fa : Nat
  fb : Nat
  qa : Nat
  qb : Nat
  wa : Nat
  wb : Nat
  ch : Nat
  free : Nat
  deriving DecidableEq, Repr

/-- The index of a LUT's entry. -/
def lutIndex (out ch : Nat) : List Nat → Nat
  | [] => 0
  | c :: t => b2n (srcBit out ch c) + 2 * lutIndex out ch t

/-- The output of a cell (R337, R339). -/
def cellOut (x : NetIn) (c : PCell) (n : Nat) (la lb sum : Bool) : Bool :=
  match c.out with
  | 0 => la
  | 1 => lb
  | 2 => bitAt x.fa n
  | 3 => bitAt x.fb n
  | 4 => sum
  | 5 => if c.ramB then decide (c.ramBit < x.wb) && bitAt x.qb c.ramBit else decide (c.ramBit < x.wa) && bitAt x.qa c.ramBit
  | _ => false

/-- Evaluate the cells once in ascending order, the carry running with them (R337). -/
def netRound (x : NetIn) : Nat → Bool → List PCell → Net → Net
  | _, _, [], v => v
  | n, cin, c :: t, v =>
    let cin := if n = 0 then c.carryIn else cin
    let i5 := lutIndex v.out x.ch (c.sel.take 5)
    let la := if c.fracture then bitAt c.lut i5 else bitAt c.lut (lutIndex v.out x.ch (c.sel.take 6))
    let lb := if c.fracture then bitAt c.lut (32 + i5) else bitAt x.free n
    let i4 := srcBit v.out x.ch (c.sel.getD 4 192)
    let sum := xor la cin
    let cout := (la && i4) || (la && cin) || (i4 && cin)
    netRound x (n + 1) cout t
      { la := putBit v.la n la, lb := putBit v.lb n lb, sum := putBit v.sum n sum, out := putBit v.out n (cellOut x c n la lb sum) }

/-- Evaluate until nothing changes; none where the logic does not settle. -/
def netSettle (x : NetIn) (cells : List PCell) : Nat → Net → Option Net
  | 0, _ => none
  | fuel + 1, v =>
    let u := netRound x 0 false cells v
    if u = v then some v else netSettle x cells fuel u

/-! ## Depth (R341, R342) -/

/-- Input `i` of a function of `n` inputs matters: some entry changes with it. -/
def lutNeeds (lut n i : Nat) : Bool := (upTo (2 ^ n)).any (fun k => bitAt lut k != bitAt lut (if bitAt k i then k - 2 ^ i else k + 2 ^ i))

/-- The source codes a cell's LA depends on, and those of its LB. -/
def lutSources (c : PCell) : List Nat × List Nat :=
  if c.fracture then
    (((upTo 5).filter (fun i => lutNeeds (c.lut % 2 ^ 32) 5 i)).map (fun i => c.sel.getD i 192),
     ((upTo 5).filter (fun i => lutNeeds (c.lut / 2 ^ 32) 5 i)).map (fun i => c.sel.getD i 192))
  else (((upTo 6).filter (fun i => lutNeeds c.lut 6 i)).map (fun i => c.sel.getD i 192), [])

/-- The level at which a source code stands. -/
def srcLevel (l : List Nat) (code : Nat) : Nat := if code < 128 then l.getD code 0 else 0

/-- The level of a LUT output: one more than its inputs, 0 where it depends on none. -/
def lutLevel (l : List Nat) (srcs : List Nat) : Nat := if srcs.isEmpty then 0 else 1 + maxOf (srcs.map (srcLevel l))

/-- Levels of one cell: LA, LB, SUM, output. `chain` lists where paths entered the carry chain (level, cell). -/
structure CellLevel where
  la : Nat
  lb : Nat
  sum : Nat
  out : Nat
  deriving DecidableEq, Repr

/-- One pass over the cells' levels. A path enters the carry chain at a cell through LA, whose sum it reaches too, or through I4, which
reaches the cells above only (R337, R341). -/
def levelRound (l : List Nat) : Nat → List (Nat × Nat) → List (PCell × List Nat × List Nat) → List CellLevel
  | _, _, [] => []
  | n, chain, (c, sa, sb) :: t =>
    let la := lutLevel l sa
    let lb := lutLevel l sb
    let i4 := c.sel.getD 4 192
    -- a cell whose LA and I4 are the same constant starts the chain anew
    let fresh := sa.isEmpty && decide (192 ≤ i4) && (bitAt c.lut 0 == (i4 == 193))
    let chain := if sa.isEmpty then chain else (la, n) :: chain
    let sum := max la (maxOf (chain.map (fun e => e.1 + (n - e.2 + 16) / 16)))
    let out := match c.out with | 0 => la | 1 => lb | 4 => sum | _ => 0
    let above := if i4 < 192 then (srcLevel l i4, n) :: chain else chain
    { la := la, lb := lb, sum := sum, out := out } :: levelRound l (n + 1) (if fresh then [] else above) t

/-- The cells' levels after enough passes for the deepest logic a paddock may declare; none where they still grow. -/
def levelsOf (cells : List (PCell × List Nat × List Nat)) : Nat → List CellLevel → Option (List CellLevel)
  | 0, _ => none
  | fuel + 1, l =>
    let u := levelRound (l.map (·.out)) 0 [] cells
    if u = l then some l else levelsOf cells fuel u

/-- The depth of a paddock's logic (R341), none where it exceeds every depth an image may declare. `outs` are the source codes that
reach channel outputs and I/O cells, `ports` those of the RAM ports' inputs. -/
def logicDepth (cells : List PCell) (outs ports : List Nat) : Option Nat :=
  match levelsOf (cells.map (fun c => (c, (lutSources c).1, (lutSources c).2))) 28 [] with
  | none => none
  | some l =>
    let o := l.map (·.out)
    let stores := (cells.zip l).map (fun e =>
      maxOf [if e.1.faSum then e.2.sum else e.2.la, if e.1.fbFa then 0 else e.2.lb, srcLevel o (e.1.sel.getD 6 192),
             srcLevel o (e.1.sel.getD 7 192)])
    some (maxOf (stores ++ outs.map (srcLevel o) ++ ports.map (fun c => if c < 192 then 3 + srcLevel o c else 0)))

/-! ## RAM ports (R339, R340) -/

/-- Source codes of a port's inputs: address 0–11, data 12–83, write enable 84, port enable 85 (R385). -/
def portCodes (m : SMap Word) (p : Nat) (portB : Bool) : List Nat :=
  (upTo 86).map (fun i => ctlByte m p ((if portB then 214 else 128) + i))

/-- A number from the bits that source codes select, the first one lowest. -/
def codesNat (out ch : Nat) (codes : List Nat) : Nat := lutIndex out ch codes

/-- What a port does in a tick. -/
structure PortOp where
  enable : Bool
  write : Bool
  addr : Nat
  data : Nat
  deriving DecidableEq, Repr

/-- The operation of a port `w` bits wide. -/
def portOp (out ch w : Nat) (codes : List Nat) : PortOp :=
  { enable := srcBit out ch (codes.getD 85 192), write := srcBit out ch (codes.getD 84 192)
    addr := codesNat out ch (codes.take 12) % (36864 / w), data := codesNat out ch ((codes.drop 12).take w) }

/-- Replace `w` bits of a bit string at bit `b`. -/
def putBits (v b w x : Nat) : Nat := v - bitsOf v (b + w - 1) b * 2 ^ b + x % 2 ^ w * 2 ^ b

/-- Both ports act: port B's bits stand where both write (R339). -/
def ramStep (ram wa wb : Nat) (a b : PortOp) : Nat :=
  let r1 := if a.enable && a.write then putBits ram (wa * a.addr) wa a.data else ram
  if b.enable && b.write then putBits r1 (wb * b.addr) wb b.data else r1

/-- What a port's read data becomes. -/
def ramRead (ram w q : Nat) (o : PortOp) : Nat :=
  if o.enable && !o.write then bitsOf ram (w * o.addr + w - 1) (w * o.addr) else q

/-! ## Storage (R337) -/

/-- Capture of FA and FB of every cell at an edge; `reset` is the user reset (R364). -/
def captureFF (cells : List PCell) (v : Net) (ch fa fb : Nat) (reset : Bool) : Nat → Nat × Nat
  | 0 => (0, 0)
  | n + 1 =>
    let r := captureFF cells v ch fa fb reset n
    let c := cells.getD n (pcellOf 0)
    let a := if reset && c.faRst then c.faInit
      else if srcBit v.out ch (c.sel.getD 6 192) then (if c.faSum then bitAt v.sum n else bitAt v.la n) else bitAt fa n
    let b := if reset && c.fbRst then c.fbInit
      else if srcBit v.out ch (c.sel.getD 7 192) then (if c.fbFa then bitAt fa n else bitAt v.lb n) else bitAt fb n
    (r.1 + b2n a * 2 ^ n, r.2 + b2n b * 2 ^ n)

/-- Initial values of the storage of a paddock. -/
def initFF (m : SMap Word) (p : Nat) : Nat × Nat :=
  let cells := pcells m p
  ((upTo 128).foldl (fun a n => a + b2n (cells.getD n (pcellOf 0)).faInit * 2 ^ n) 0,
   (upTo 128).foldl (fun a n => a + b2n (cells.getD n (pcellOf 0)).fbInit * 2 ^ n) 0)

/-! ## User I/O cells (R361, R386) -/

/-- The I/O cells of the device as (bank frame, cell, word). -/
def ioCells (m : SMap Word) : List (Nat × Nat × Nat) :=
  (upTo 8).flatMap (fun b =>
    let f := frameAddr (b / 2) 2 (b % 2) 0
    (upTo 48).map (fun c => (f, c, fmWord m f c)))

/-- An I/O cell is used: its word is not all zero and DIR is not 0b11 (R362). DESIGN CHOICE (log 76): a cell whose word is zero, as no
image wrote it, is unused as a paddock of zero frames is (R385). -/
def ioUsed (w : Nat) : Bool := w != 0 && bitsOf w 9 8 != 3

/-- The paddock an I/O cell is bound to: on its own die (R386). -/
def ioPaddock (f w : Nat) : Nat := f / 2 ^ 30 * 2304 + bitsOf w 27 22 * 64 + bitsOf w 21 16

/-- A bank adjoins a paddock column (R382). -/
def bankAdjoins (f col : Nat) : Bool :=
  let die := f / 2 ^ 30
  if bitsOf f 27 22 = 0 then (if die % 2 = 0 then decide (col < 12) else decide (18 ≤ col ∧ col < 30))
  else (if die < 2 then decide (12 ≤ col ∧ col < 18) else decide (30 ≤ col ∧ col < 36))

/-- The mask of channel input bits of a paddock that come from I/O cells (R361): cells that are inputs or bidirectional. -/
def ioMask (m : SMap Word) (p : Nat) : Nat :=
  (ioCells m).foldl (fun a e =>
    let w := e.2.2
    if ioUsed w ∧ ioPaddock e.1 w = p ∧ bankAdjoins e.1 (bitsOf w 27 22) ∧ (bitsOf w 9 8 = 0 ∨ bitsOf w 9 8 = 2) then putBit a (bitsOf w 33 28) true
    else a) 0

/-- Source codes that reach I/O cells of a paddock. -/
def ioOuts (m : SMap Word) (p : Nat) : List Nat :=
  (ioCells m).flatMap (fun e =>
    let w := e.2.2
    if ioUsed w ∧ ioPaddock e.1 w = p ∧ bankAdjoins e.1 (bitsOf w 27 22) ∧ (bitsOf w 9 8 = 1 ∨ bitsOf w 9 8 = 2) then [bitsOf w 40 34, bitsOf w 47 41]
    else [])

end Sys2Proof.Machine
end

