-- ==== Sys2Proof/Machine/CfgCheck.lean ====
section
/-!
DEFINITION. What a configuration image says and how the device checks it: header (R388, R400), body commands (R392 to R394),
structure (R395), frames (R383 to R386, R396), bindings (R397) and flows (R438).
-/

namespace Sys2Proof.Machine

/-! ## Registers set by configuration (R392, R441, R466, R514, R635) -/

/-- A register that a REG command may set. -/
def isCfgReg (r : Reg) : Bool :=
  match r with
  | .CFG_TRUNC_MS | .CFG_CONSIST_PERIOD | .NOC_TIMEOUT | .NOC_FLOW_A | .NOC_FLOW_ROUTE | .NOC_FLOW_SLOTS | .HBM_SR_IDLE | .HBM_HASH
  | .HBM_SPLIT | .RNL_PORT_CFG | .RNL_RETRY | .RNL_IDENT | .RNL_STRING | .RNL_RELAY_CFG | .RNL_GROUTE | .PWR_LOOP | .PWR_VRM => true
  | _ => false

/-- The block of a REG command (R392). -/
def regBlock (b : Nat) : Option Blk :=
  match b with
  | 0 => some .cfg | 1 => some .noc | 2 => some .hbm | 3 => some .rnl | 4 => some .pwr | _ => none

/-- The register a REG command names, if it may be set. -/
def regTarget (w : Nat) : Option RegPlace :=
  match regBlock (bitsOf w 55 52) with
  | none => none
  | some b =>
    let i := bitsOf w 51 36
    if i < (blkWindow b).2.2.2 then
      match findReg (bitsOf w 35 20) i (regsOf b) with
      | some p => if isCfgReg p.reg then some p else none
      | none => none
    else none

/-- Configuration sets a register: every field, but for a reserved encoding, which leaves it (R13). -/
def cfgWritten (r : Reg) (old v : Word) : Word :=
  (regInfo r).fields.foldl (fun a f =>
    if fieldReserved r f.hi (v.fld f.hi f.lo) ∨ (r = .RNL_IDENT ∧ f.hi = 36) then a else a.put f.hi f.lo (v.fld f.hi f.lo)) old

/-- A value that an HBM_ register reserves (R453, R454, R473, R475). -/
def hbmRegBad (p : RegPlace) (v : Word) : Bool :=
  match p.reg with
  | .HBM_SR_IDLE => decide (1000000 < v.fld 19 0)
  | .HBM_HASH => v.fld 23 9 != 2 ^ (1 + p.idx)
  | .HBM_SPLIT =>
    v.fld 20 16 == 0 || v.fld 12 8 == 0 || v.fld 4 0 == 0 || v.fld 20 16 + v.fld 12 8 + v.fld 4 0 != 20
  | _ => false

/-! ## The header (R388 to R391, R400) -/

/-- A number of `n` bytes at an offset of a header. -/
def hdrNat (h : List Byte) (off n : Nat) : Nat := leNat ((h.drop off).take n)

def hdrFlags (h : List Byte) : Nat := hdrNat h 6 2
def hdrPartial (h : List Byte) : Bool := bitAt (hdrFlags h) 15
def hdrEncrypted (h : List Byte) : Bool := bitAt (hdrFlags h) 14
def hdrSlot (h : List Byte) : Nat := bitsOf (hdrFlags h) 13 12
def hdrSession (h : List Byte) : Bool := bitAt (hdrFlags h) 11
def hdrAuto (h : List Byte) : Bool := bitAt (hdrFlags h) 10
def hdrEpoch (h : List Byte) : Nat := hdrNat h 16 4
def hdrRanges (h : List Byte) : Nat := hdrNat h 20 4
def hdrBody (h : List Byte) : Nat := hdrNat h 24 8
def hdrMask (h : List Byte) : Nat := hdrNat h 32 32
def hdrDigest (h : List Byte) : Nat := hdrNat h 64 32
def hdrNonce (h : List Byte) : List Byte := (h.drop 96).take 12

/-- Bytes of the frame list, padding included (R380). -/
def hdrList (h : List Byte) : Nat := 512 * cdiv (8 * hdrRanges h) 512

/-- Bytes of the whole image (R380). -/
def hdrTotal (h : List Byte) : Nat := 512 + hdrList h + hdrBody h + (if hdrEncrypted h then 16 else 0)

/-- Check 1 on the header alone (R400). -/
def hdrCheck1 (h : List Byte) : Option Nat :=
  let part := hdrPartial h
  if hdrNat h 0 4 ≠ 0x7C0F1A6E ∨ hdrNat h 4 2 ≠ 1 ∨ bitsOf (hdrFlags h) 9 0 ≠ 0 ∨ hdrNat h 108 4 ≠ 0 ∨ hdrNat h 169 7 ≠ 0
      ∨ hdrNat h 290 222 ≠ 0 ∨ (!hdrEncrypted h && (hdrNat h 96 12 != 0 || hdrSession h))
      ∨ (!part && hdrMask h != 2 ^ 256 - 1) then some E_FIELD_RESERVED
  else if hdrBody h % 8 ≠ 0 ∨ hdrBody h < 8 ∨ 134216704 < hdrBody h
      ∨ (if part then hdrRanges h = 0 ∨ 4096 < hdrRanges h else hdrRanges h ≠ 0) then some E_FIELD_RANGE
  else none

/-- The entries of a frame list as (frame, count). -/
def listEntries (h l : List Byte) : List (Nat × Nat) :=
  (upTo (hdrRanges h)).map (fun i => let w := wordAt l (8 * i); (bitsOf w 31 0, bitsOf w 47 32))

/-- A frame list entry, as R388 requires (REGION, FRAME and FILL name frames the same way). -/
def rangeOk (f n : Nat) : Bool :=
  frameOk f && decide (1 ≤ n) && decide (n ≤ 512)
    && decide (bitsOf f 8 0 + n ≤ columnMinors (bitsOf f 29 28) (bitsOf f 27 22))

/-- Check 1 on the frame list: its encodings and its padding (R380, R388). -/
def listCheck1 (h l : List Byte) : Bool :=
  (upTo (hdrRanges h)).all (fun i => bitsOf (wordAt l (8 * i)) 63 48 == 0) && (listEntries h l).all (fun e => rangeOk e.1 e.2)
    && (l.drop (8 * hdrRanges h)).all (· == 0)

/-- An owner key slot (R545). -/
def FuseSt.owner (f : FuseSt) (n : Nat) : KeySlot :=
  match n with | 0 => f.owner0 | 1 => f.owner1 | 2 => f.owner2 | _ => f.owner3

/-- The signature is valid (R390). -/
def sigValid (f : FuseSt) (h l : List Byte) : Bool :=
  let key := (h.drop 112).take 57
  let slot := f.owner (hdrSlot h)
  slot.st == .provisioned && (Config.shake256 key).toNat == slot.hash
    && Config.ed448Verify key [] (h.take 176 ++ l) ((h.drop 176).take 114)

/-- Checks 2 to 4 of R400, and check 1 on the list. -/
def State.hdrChecks (s : State) (h l : List Byte) : Option Nat :=
  if !listCheck1 h l then some E_FIELD_RESERVED
  else if bitsOf (hdrNat h 8 4) 27 0 ≠ bitsOf 0x1307296B 27 0 ∨ !bitAt (hdrNat h 12 2) 1 ∨ hdrNat h 14 2 ≠ 0x71 then some E_CFG_IDCODE
  else if !sigValid s.fuse h l then some E_CFG_SIGNATURE
  else if hdrPartial h && (bitAt (hdrMask h) 0 || hdrMask h == 0 || (listEntries h l).any (fun e =>
      (upTo e.2).any (fun i => !bitAt (hdrMask h) (regionIn (e.1 + i) s.cfg.live.regions)))) then some E_CFG_REGION
  else none

/-! ## Frames (R383 to R386, R396) -/

/-- Bits beyond a mask of named bits. -/
def outside (w : Nat) (named : List (Nat × Nat)) : Bool :=
  named.foldl (fun a p => a - bitsOf a p.1 p.2 * 2 ^ p.2) w != 0

/-- A source code that is a reserved encoding (R384). -/
def srcBad (c : Nat) : Bool := decide (194 ≤ c)

/-- A logic cell with a reserved field or encoding (R383). -/
def cellBad (n w : Nat) : Bool :=
  bitsOf w 159 147 != 0 || (bitAt w 146 && n != 0) || decide (72 ≤ bitsOf w 141 135) || decide (6 ≤ bitsOf w 133 131)
    || (upTo 8).any (fun i => srcBad (bitsOf w (71 + 8 * i) (64 + 8 * i)))

/-- A peer word with reserved bits (R385). -/
def peerBad (bind w : Nat) : Bool := match bind with | 1 => bitsOf w 63 14 != 0 | _ => bitsOf w 63 24 != 0

/-- The control block of a paddock has a reserved field or encoding; DEPTH 0 is left to END (R385, R396). -/
def ctlBad (m : SMap Word) (p : Nat) : Bool :=
  let w0 := ctlWord m p 0
  outside w0 [(4, 0), (15, 8), (23, 16), (31, 24), (33, 32), (35, 34), (41, 40), (43, 42)] || decide (25 ≤ bitsOf w0 4 0)
    || srcBad (bitsOf w0 15 8) || srcBad (bitsOf w0 23 16) || srcBad (bitsOf w0 31 24) || bitsOf w0 35 34 == 3
    || peerBad (bitsOf w0 33 32) (ctlWord m p 1) || peerBad (bitsOf w0 35 34) (ctlWord m p 2)
    || (upTo 5).any (fun i => ctlWord m p (3 + i) != 0)
    || (upTo 64).any (fun b => let c := ctlByte m p (64 + b); srcBad c || (decide (128 ≤ c) && decide (c < 192)))
    || (upTo 172).any (fun b => srcBad (ctlByte m p (128 + b)))
    || (upTo 212).any (fun b => ctlByte m p (300 + b) != 0)

/-- An I/O frame has a reserved field or encoding (R362, R386). -/
def ioFrameBad (m : SMap Word) (f : Nat) : Bool :=
  (upTo 48).any (fun c => let w := fmWord m f c; bitsOf w 63 48 != 0 || bitsOf w 7 0 != 0 || bitsOf w 12 11 == 3)
    || (upTo 80).any (fun i => fmWord m f (48 + i) != 0)

/-- A network frame has a reserved field (R428, R429). -/
def netFrameBad (m : SMap Word) (f : Nat) : Bool :=
  let n := bitsOf f 8 0
  let any (a k : Nat) : Bool := (upTo k).any (fun i => fmWord m f (a + i) != 0)
  if n < 18 then false
  else if n = 18 then any 64 64 || (f / 2 ^ 30 != 0 && any 32 32)
  else if n = 19 ∨ n = 20 then (upTo 128).any (fun i => fmWord m f i / 16 != 0) || (n == 20 && any 64 64)
  else any 0 128

/-- A frame whose reserved fields are not zero, or that holds a reserved encoding (R396). -/
def frameBad (m : SMap Word) (f : Nat) : Bool :=
  match bitsOf f 29 28 with
  | 0 =>
    let p := f / 2 ^ 30 * 2304 + bitsOf f 27 22 * 64 + bitsOf f 8 0 / 8
    let j := bitsOf f 8 0 % 8
    if j ≤ 2 then
      (upTo 128).any (fun n => (160 * n + 159) / 8192 == j && cellBad n (cellWord m p n)) || (j == 2 && ctlBad m p)
    else if j = 7 then (upTo 64).any (fun i => fmWord m f (64 + i) != 0)
    else false
  | 1 => false
  | 2 => ioFrameBad m f
  | _ => netFrameBad m f

/-! ## The body (R392 to R394) -/

/-- An image's body as far as it has been processed: the staged structure, configuration memory as written so far, the frames
written (newest first), and whether the frame section has begun. -/
structure Staged where
  st : CfgStruct
  frames : SMap Word
  wrote : List Nat
  inFrames : Bool
  deriving DecidableEq, Repr

/-- Number of resources of a kind (R20, R392). -/
def ownLimit (k : OwnKind) : Nat :=
  match k with
  | .stall => 3072 | .paddock => 9216 | .queue => 65536 | .context => 131072 | .tether => 32768 | .carousel => 196608 | .hbm => 262144

/-- The kind of an OWN command. -/
def ownKind (n : Nat) : Option OwnKind :=
  match n with
  | 0 => some .stall | 1 => some .paddock | 2 => some .queue | 3 => some .context | 4 => some .tether | 5 => some .carousel
  | 6 => some .hbm | _ => none

/-- Payload words of a structure command; none for an opcode that is not one. -/
def structWords (opc : Nat) : Option Nat :=
  match opc with
  | 0 => some 0 | 1 => some 1 | 2 => some 1 | 3 => some 5 | 4 => some 1 | 5 => some 1 | 6 => some 1 | 7 => some 1 | _ => none

/-- The FIRST and COUNT of a payload word are within a number of items. -/
def spanOk (w limit : Nat) : Bool := decide (bitsOf w 31 0 + bitsOf w 63 32 ≤ limit)

/-- Stage one structure command (R392, R394): none where it holds a reserved field or encoding, or a value outside its range. A
later command that sets the same item comes first in its list. -/
def stageCmd (isPart : Bool) (c : CfgStruct) (w : Nat) (pay : List Nat) : Option CfgStruct :=
  let p0 := pay.getD 0 0
  match bitsOf w 63 56 with
  | 0 => if outside w [(63, 56)] then none else some c
  | 1 =>
    let l := bitsOf w 46 42
    if outside w [(63, 42)] ∨ bitsOf p0 63 48 ≠ 0 ∨ (bitAt w 47 ∧ (l = 0 ∨ 24 < l)) then none
    else some { c with corrals := smSet (fun _ => none) c.corrals (bitsOf w 55 48)
                                    (if bitAt w 47 then some { l := l, shapes := bitsOf p0 47 0 } else none) }
  | 2 =>
    match ownKind (bitsOf w 55 52) with
    | none => none
    | some k =>
      if outside w [(63, 43)] ∨ !spanOk p0 (ownLimit k) then none
      else some { c with own := { kind := k, first := bitsOf p0 31 0, count := bitsOf p0 63 32
                                  corral := if bitAt w 51 then none else some (bitsOf w 50 43) } :: c.own }
  | 3 =>
    if outside w [(63, 42)] ∨ !spanOk p0 (ownLimit .hbm) then none
    else
      let readers := pay.getD 1 0 + pay.getD 2 0 * 2 ^ 64 + pay.getD 3 0 * 2 ^ 128 + pay.getD 4 0 * 2 ^ 192
      some { c with shares := { slot := bitsOf w 55 50, writer := bitsOf w 49 42, first := bitsOf p0 31 0, count := bitsOf p0 63 32
                                readers := readers } :: c.shares.filter (fun r => r.slot != bitsOf w 55 50) }
  | 4 =>
    if outside w [(63, 43)] ∨ 18 < bitsOf w 47 43 ∨ !spanOk p0 9216 then none
    else some { c with groups := { group := bitsOf w 55 48, h := bitsOf w 47 43, first := bitsOf p0 31 0, count := bitsOf p0 63 32 } :: c.groups.filter (fun r => r.group != bitsOf w 55 48) }
  | 5 =>
    if outside w [(63, 48)] ∨ bitsOf p0 63 48 ≠ 0 ∨ !rangeOk (bitsOf p0 31 0) (bitsOf p0 47 32) then none
    else some { c with regions := { region := bitsOf w 55 48, frame := bitsOf p0 31 0, count := bitsOf p0 47 32 } :: c.regions }
  | 6 =>
    let a := bitsOf p0 31 0
    let b := bitsOf p0 63 32
    if outside w [(63, 32)] ∨ bitsOf w 47 32 = 0 ∨ a < 100 ∨ 10 ^ 9 < a ∨ b < 100 ∨ 10 ^ 9 < b then none
    else some { c with rparams := smSet (fun _ => RParam.dflt) c.rparams (bitsOf w 55 48) { ticks := bitsOf w 47 32, waitA := a, waitB := b } }
  | 7 =>
    match regTarget w with
    | none => none
    | some r =>
      if outside w [(63, 20)] ∨ (!isPart && hbmRegBad r (BitVec.ofNat 64 p0)) then none
      else some { c with regs := c.regs ++ [(regAddr r.reg r.inst r.idx, BitVec.ofNat 64 p0)] }
  | _ => none

/-! ## The structure check (R395) -/

/-- The items of a kind that some range of a corral covers in effect. -/
def ownedIn (l : List OwnRange) (k : OwnKind) (c : Nat) : List Nat :=
  sortAsc ((l.filter (fun r => r.kind = k ∧ r.corral = some c)).flatMap (fun r =>
    ((upTo r.count).map (· + r.first)).filter (fun i => ownerIn k i l == some c)))

/-- A corral is enabled in a structure. -/
def enabledIn (c : CfgStruct) (n : Nat) : Bool := (smGet (fun _ => none) c.corrals n).isSome

/-- Rows owned by a corral from a stall downward in its die column. -/
def runLen (l : List OwnRange) (c : Nat) : Nat → Nat → Nat
  | 0, _ => 0
  | n + 1, st =>
    if ownerIn .stall st l = some c then 1 + (if st % 768 + 32 < 768 then runLen l c n (st + 32) else 0) else 0

/-- Ownership as R31 and the first two rows of R395 require. -/
def ownOk (c : CfgStruct) : Bool :=
  c.own.all (fun r => match r.corral with
    | some n => enabledIn c n || !((upTo r.count).any (fun i => ownerIn r.kind (r.first + i) c.own == some n))
    | none => true)
  && c.shares.all (fun r => (r.count == 0 || enabledIn c r.writer)
    && (upTo r.count).all (fun i => (ownerIn .hbm (r.first + i) c.own).isNone)
    && c.shares.all (fun q => q.slot == r.slot || !(decide (r.first < q.first + q.count) && decide (q.first < r.first + r.count))))
  && c.corrals.all (fun e => match e.2 with
    | none => true
    | some d => (ownedIn c.own .stall e.1).all (fun st =>
        (decide (32 ≤ st % 768) && ownerIn .stall (st - 32) c.own == some e.1) || runLen c.own e.1 24 st % d.l == 0))

/-- The members of a gait group. -/
def groupIs (c : CfgStruct) (g : Nat) : List Nat :=
  (c.groups.filter (fun r => r.group = g)).flatMap (fun r =>
    ((upTo r.count).map (· + r.first)).filter (fun p => groupNo p c.groups == some g))

/-- A list holds one value only. -/
def allSame (l : List Nat) : Bool := match l with | [] => true | h :: t => t.all (· == h)

/-- Every gait group lies in one die, one corral and one region and has 1 to 2,304 members, and no paddock is in two groups (R347). A
member that no corral owns lies in none. -/
def groupsOk (c : CfgStruct) : Bool :=
  c.groups.all (fun r => let l := groupIs c r.group
    decide (1 ≤ r.count) && decide (r.count ≤ 2304)
    && c.groups.all (fun q => q.group == r.group || !(decide (r.first < q.first + q.count) && decide (q.first < r.first + r.count)))
    && allSame (l.map (· / 2304)) && l.all (fun p => (ownerIn .paddock p c.own).isSome)
    && allSame (l.map (fun p => (ownerIn .paddock p c.own).getD 0)) && allSame (l.map (fun p => regionIn (pdkFrame p) c.regions)))

/-- All eight frames of every paddock lie in one region (R395). The members of a gait group do by then: the row before has tested R347. -/
def regionsOk (c : CfgStruct) : Bool :=
  c.regions.all (fun r => bitsOf r.frame 29 28 != 0 || [r.frame, r.frame + r.count].all (fun e =>
      e % 8 == 0 || allSame ((upTo 8).map (fun i => regionIn (e / 8 * 8 + i) c.regions))))

/-- What a partial image may hold, command by command (R395). -/
def partialOk (c : CfgStruct) (mask w p0 : Nat) : Bool :=
  let inMask (f : Nat) : Bool := bitAt mask (regionIn f c.regions)
  let items (f : Nat → Bool) : Bool := (upTo (bitsOf p0 63 32)).all (fun i => f (i + bitsOf p0 31 0))
  match bitsOf w 63 56 with
  | 0 => true
  | 2 => match bitsOf w 55 52 with
    | 0 => items (fun st => inMask (stallFrame st))
    | 1 => items (fun p => inMask (pdkFrame p))
    | _ => false
  | 4 => items (fun p => inMask (pdkFrame p))
  | 6 => bitAt mask (bitsOf w 55 48)
  | _ => false

/-- The structure check (R395): the code of its first failure, row by row. A gait group over two regions breaks R347, whose row comes
before that of E_CFG_REGION (log 68). `bad` says that a partial image holds a command it may not. -/
def structCheck (c : CfgStruct) (bad : Bool) : Option Nat :=
  if !ownOk c || !groupsOk c then some E_CFG_OWNERSHIP
  else if !regionsOk c || bad then some E_CFG_REGION
  else none

/-! ## Processing a body -/

/-- Write one frame into configuration memory. -/
def putFrame (m : SMap Word) (f : Nat) (ws : Nat → Nat) : SMap Word :=
  (upTo 128).foldl (fun a i => smSet (fun _ => 0) a (f * 128 + i) (BitVec.ofNat 64 (ws i))) m

/-- Write and check the frames of one FRAME or FILL command (R396); `list` is the frame list of a partial image. -/
def putFrames (list : Option (List (Nat × Nat))) (word : Nat → Nat → Nat) : Staged → List (Nat × Nat) → Staged × Option Nat
  | g, [] => (g, none)
  | g, (f, k) :: t =>
    let named := match list with | none => true | some l => l.any (fun e => decide (e.1 ≤ f) && decide (f < e.1 + e.2))
    if !named then (g, some E_CFG_REGION)
    else
      let m := putFrame g.frames f (word k)
      if frameBad m f then (g, some E_FIELD_RESERVED)
      else putFrames list word { g with frames := m, wrote := f :: g.wrote } t

/-- Words of a body, one at a time, with fuel for its commands (R393): the staged image, and the code of its first failure. `seen`
says that a partial image has held a command it may not (R395). -/
def runBody (mask : Option Nat) (list : Option (List (Nat × Nat))) : Nat → Bool → Staged → List Nat → Staged × Option Nat
  | 0, _, g, _ => (g, some E_FIELD_RESERVED)
  | _, _, g, [] => (g, some E_FIELD_RESERVED)
  | n + 1, seen, g, w :: t =>
    let opc := bitsOf w 63 56
    let check : Option Nat := if g.inFrames then none else structCheck g.st seen
    match structWords opc with
    | some k =>
      if (g.inFrames ∧ opc ≠ 0) ∨ t.length < k then (g, some E_FIELD_RESERVED)
      else
        match stageCmd mask.isSome g.st w (t.take k) with
        | none => (g, some E_FIELD_RESERVED)
        | some c =>
          let bad := match mask with | some m => !partialOk c m w (t.getD 0 0) | none => false
          runBody mask list n (seen || bad) { g with st := c } (t.drop k)
    | none =>
      if opc = 0x0F then
        if outside w [(63, 56)] ∨ !t.isEmpty then (g, some E_FIELD_RESERVED) else (g, check)
      else if opc = 0x08 ∨ opc = 0x09 then
        let f := bitsOf w 31 0
        let count := bitsOf w 55 40
        let k := if opc = 8 then 128 * count else 1
        match check with
        | some e => (g, some e)
        | none =>
          if bitsOf w 39 32 ≠ 0 ∨ !rangeOk f count ∨ t.length < k then ({ g with inFrames := true }, some E_FIELD_RESERVED)
          else
            let pay := t.take k
            let r := putFrames list (fun j i => if opc = 8 then pay.getD (128 * j + i) 0 else pay.getD 0 0) { g with inFrames := true }
              ((upTo count).map (fun j => (f + j, j)))
            match r.2 with
            | some e => (r.1, some e)
            | none => runBody mask list n seen r.1 (t.drop k)
      else (g, some E_FIELD_RESERVED)

/-! ## END: bindings (R397) and flows (R438) -/

/-- The bindings of a paddock's channels agree with the staged structure (R397). -/
def bindOk (c : CfgStruct) (m : SMap Word) (p : Nat) (out : Bool) : Bool :=
  let peer := pdkPeer m p out
  let own (q : Nat) : Option Nat := ownerIn .paddock q c.own
  match pdkBind m p out with
  | 1 =>
    let q := bitsOf peer 13 0
    decide (q < 9216) && q / 2304 == p / 2304 && own q == own p && pdkBind m q (!out) == 1 && bitsOf (pdkPeer m q (!out)) 13 0 == p
  | 2 =>
    let b := ringBuffer peer
    decide (b / 64 < 3072) && ownerIn .stall (b / 64) c.own == own p && decide (b % 64 + ringSlots peer ≤ 64)
      && (allPdkRings m).all (fun r => (r.1 == p && r.2.1 == out) || !bufOverlap b (ringSlots peer) r.2.2.1 r.2.2.2)
  | _ => true

/-- A used I/O cell of a loaded region binds to a paddock its bank adjoins, and no paddock takes more than 48 inputs (R397). -/
def ioOk (m : SMap Word) (inLoad : Nat → Bool) : Bool :=
  (ioCells m).all (fun e => let w := e.2.2
    !ioUsed w || !inLoad e.1
      || (bankAdjoins e.1 (bitsOf w 27 22)
        && decide (((ioCells m).filter (fun x => ioUsed x.2.2 && (bitsOf x.2.2 9 8 == 0 || bitsOf x.2.2 9 8 == 2)
            && ioPaddock x.1 x.2.2 == ioPaddock e.1 w)).length ≤ 48)))

/-- The checks of END over the paddocks of loaded regions (R396, R397): the code of the first failure. -/
def endCheck (c : CfgStruct) (m : SMap Word) (inLoad : Nat → Bool) : Option Nat :=
  let ps := (listedPaddocks m).filter (fun p => inLoad (pdkFrame p) && !pdkUnused m p)
  let written := sortAsc (m.filterMap (fun e =>
    let f := e.1 / 128
    if bitsOf f 29 28 = 0 ∧ inLoad f then some (f / 2 ^ 30 * 2304 + bitsOf f 27 22 * 64 + bitsOf f 8 0 / 8) else none))
  if written.any (fun p => bitsOf (ctlWord m p 0) 4 0 == 0) then some E_FIELD_RESERVED
  else if !(ps.all (fun p => bindOk c m p false && bindOk c m p true) && ioOk m inLoad) then some E_CFG_OWNERSHIP
  else none

/-- The hops of a route from a router, as (router, direction), with its directions in order; none where it faults or is longer
than 64 hops (R425, R431). -/
def State.routeHops (s : State) (p : NocPacket) : Nat → Option (List (Nat × Dir))
  | 0 => none
  | n + 1 =>
    let hop (q : NocPacket) (d : Dir) (left pos : Nat) : Option (List (Nat × Dir)) :=
      match stepRouter q.router d with
      | none => none
      | some r =>
        if s.linkOff q.router r d then none
        else
          (s.routeHops { q with router := r, dir := if 1 < left then some d else none, left := left - 1
                                pos := if 1 < left then pos else pos + 2 } n).map (fun l => (q.router, d) :: l)
    match p.dir with
    | some d => hop p d p.left p.pos
    | none =>
      match nextTurn p 16 p.pos with
      | .deliver => some []
      | .go d left pos => hop p d left pos
      | .fault _ _ => none

/-- Rules 1 and 2 of R431 over a route's directions. -/
def turnsOk : Bool → Option Dir → List Dir → Bool
  | _, _, [] => true
  | left, last, d :: t =>
    !(d == .west && left) && (match last with | some l => d != dirBack l | none => true)
      && turnsOk (left || d != .west) (some d) t

/-- The carousel slot numbers a flow holds (R435, R436). -/
def flowSlots (slots : Word) (hops : List (Nat × Dir)) : List Nat :=
  let bridge (h : Nat × Dir) : Nat :=
    match stepRouter h.1 h.2 with | some r => b2n (routerDie r != routerDie h.1) | none => 0
  (upTo hops.length).flatMap (fun h =>
    let e := hops.getD h (0, .north)
    let b := ((hops.take h).map bridge).foldl (· + ·) 0
    (upTo (slots.fld 11 6 + 1)).map (fun i => 64 * (4 * e.1 + dirCode e.2) + (slots.fld 5 0 + h + b + i) % 64))

/-- The enabled flows with their slots, or none where some route is broken (R438). -/
def State.flowList (s : State) : Option (List (Word × List Nat)) :=
  ((upTo 256).filter (fun n => (s.reg .NOC_FLOW_A (n / 64) (n % 64)).bit 63)).foldr (fun n acc =>
    let a := s.reg .NOC_FLOW_A (n / 64) (n % 64)
    let p : NocPacket :=
      { router := a.fld 9 0, net := 3, route := s.reg .NOC_FLOW_ROUTE (n / 64) (n % 64)
        ctl := BitVec.ofNat 64 (a.fld 25 16 * 2 ^ 54), pos := 0, dir := none, left := 0, flits := 0, missed := false, hops := 0, bridges := 0, readData := false, crossed := 0, lane := none,
        flow := none, spread := false }
    match acc, (if a.fld 9 0 < 768 ∧ a.fld 25 16 < 768 ∧ routerDie (a.fld 9 0) = n / 64 then s.routeHops p 65 else none) with
    | some l, some hops =>
      if turnsOk false none (hops.map (·.2)) then some ((a, flowSlots (s.reg .NOC_FLOW_SLOTS (n / 64) (n % 64)) hops) :: l) else none
    | _, _ => none) (some [])

/-- No two entries of a list share a key. -/
def distinctKeys : List Nat → Bool
  | [] => true
  | h :: t => !t.contains h && distinctKeys t

/-- Every enabled flow meets R438 in a state that holds the staged structure. -/
def State.flowsOk (s : State) : Bool :=
  match s.flowList with
  | none => false
  | some l =>
    l.all (fun e => s.owner .queue (e.1.fld 47 32) == some (e.1.fld 55 48) && e.2.all (fun k => s.owner .carousel k == some (e.1.fld 55 48)))
      && distinctKeys (l.flatMap (·.2))
      && distinctKeys (l.map (fun e => e.1.fld 47 32 * 2 ^ 20 + e.1.fld 9 0 * 2 ^ 10 + e.1.fld 25 16))

end Sys2Proof.Machine
end

