-- ==== Sys2Proof/Machine/HostCtl.lean ====
section
/-!
DEFINITION. Control operations of the driver: queues, doorbells and stream control, queue pairs, region flushes and translation
invalidations (R268, R271, R298, R302 to R305, R333, R334).
-/

namespace Sys2Proof.Machine

/-- Bytes of HBM at a physical address, none where they cannot be read. -/
def State.hbmRead (s : State) (pa n : Nat) : Option (List Byte) :=
  if hbmTop < pa + n ∨ !s.hbmServed pa ∨ (s.badIn pa n).isSome then none else some (s.rdBytes pa n)

/-- Words of a table in HBM; a table that cannot be read gives zeros. -/
def State.tableWords (s : State) (pa n : Nat) : List Word :=
  match s.hbmRead pa (8 * n) with
  | some bs => bytesWords n bs
  | none => List.replicate n 0

/-! ## Doorbells (R304, R305) -/

/-- A refused doorbell write, recorded at the port it came through (R333). -/
def State.badDoorbell (s : State) (port : Nat) : State := (s.bump .HST_CNT port 12 1).raise0 .hst port 4

/-- DB_PI (R305): at most a ring ahead of ADMIT, and no value behind the producer index. DEDUCED (log 24): "a later but smaller
value" is one that lies behind the value in force. -/
def State.dbPi (s : State) (port q v : Nat) : State :=
  let x := s.queue q
  if x.phase = .enabled ∧ sub32 v x.admitIx ≤ 2 ^ entryRingLog x ∧ sub32 x.pi x.admitIx ≤ sub32 v x.admitIx then
    (s.setQueue q { x with pi := v % 2 ^ 32 }).fetchNext q
  else s.badDoorbell port

/-- DB_CI (R305): records that were held may now be written (R309). DEDUCED (log 24): the consumer index goes forward, up to the
completion index, the index of the next record. -/
def State.dbCi (s : State) (port q v : Nat) : State :=
  let x := s.queue q
  if x.phase ≠ .disabled ∧ !x.entry.isEmpty ∧ sub32 v x.ci ≤ sub32 x.recs x.ci then
    (s.setQueue q { x with ci := v % 2 ^ 32 }).flushRecords q (x.held.length + 1)
  else s.badDoorbell port

/-- DB_STATUS (R304). -/
def State.dbStatus (s : State) (q : Nat) : Word :=
  let x := s.queue q
  let st := match x.phase with | .disabled => 0 | .enabled => 1 | .disabling => 2 | .stopped => 3
  BitVec.ofNat 64 (st * 2 ^ 61 + x.inflight % 128 * 2 ^ 54 + x.error % 2 ^ 16 * 2 ^ 32 + x.admitIx % 2 ^ 32)

/-- A context that is HALTED for a command of the queue, with its command (R271). -/
def State.haltedCmd (s : State) (q k : Nat) : Option Cmd :=
  let x := s.ctx k
  if x.phase = .halted ∧ x.queue = q then
    match s.cmd q x.seq with
    | some c => if c.phase = .running then some c else none
    | none => none
  else none

/-- DB_STREAM with OP RESUME (R271): the stream goes on from its recorded position; time HALTED does not count (R272). -/
def State.streamGo (s : State) (q k : Nat) : State :=
  match s.haltedCmd q k with
  | some _ => let x := s.ctx k; s.setCtx k { x with phase := .active, advanced := s.time - x.advanced }
  | none => s

/-- DB_STREAM with OP ABORT (R271): the command fails alone. -/
def State.streamStop (s : State) (q k : Nat) : State :=
  match s.haltedCmd q k with
  | some c => s.failCmd c E_XLATE_FAULT 0 (s.ctx k).stage
  | none => s

/-- A write of DB_STREAM (R271). -/
def State.dbStream (s : State) (port q : Nat) (v : Word) : State :=
  let op := v.fld 63 62
  if v.fld 61 17 ≠ 0 ∨ op = 0 ∨ op = 3 then s.badDoorbell port
  else if op = 1 then s.streamGo q (v.fld 16 0)
  else s.streamStop q (v.fld 16 0)

/-- A write of one word of a doorbell window (R304). -/
def State.doorWrite (s : State) (port q off : Nat) (v : Word) : State :=
  if off = 0 then s.dbPi port q (v.fld 31 0)
  else if off = 8 then s.dbStream port q v
  else if off = 16 then s.dbCi port q (v.fld 31 0)
  else if off = 24 then s
  else s.badReg

/-- A read of one word of a doorbell window (R304, R9). -/
def State.doorRead (s : State) (q off : Nat) : Word := if off = 24 then s.dbStatus q else 0

/-! ## Queues (R302, R303) -/

/-- Fields of a queue entry that ENABLE takes as reserved encodings (R302). -/
def entryReserved (e : List Word) : Bool :=
  let w2 := dw e 2
  let ring := bitsOf w2 61 57
  let cr := bitsOf w2 56 52
  let most := bitsOf w2 47 40
  let badAddr (host : Bool) (a : Nat) : Bool := a % 64 != 0 || (!host && (a % 512 != 0 || decide (2 ^ 57 ≤ a)))
  !decide (4 ≤ ring ∧ ring ≤ 16) || !decide (4 ≤ cr ∧ cr ≤ 16) || !decide (1 ≤ most ∧ most ≤ 64)
    || badAddr (bitAt w2 63) (dw e 0) || badAddr (bitAt w2 62) (dw e 1)

/-- HST_QCTL ENABLE (R303). -/
def State.enableQueue (s : State) (q start : Nat) : State :=
  if (s.queue q).phase ≠ .disabled then s
  else
    let e := s.tableWords (s.fld .HST_QTABLE_BASE 0 0 56 12 * 4096 + 64 * q) 8
    let x : QueueSt := { QueueSt.idle with entry := e, pi := start, admitIx := start, ci := start, start := start, recs := start,
                                           written := start }
    if entryReserved e then (s.setQueue q x).stopQueue q E_FIELD_RESERVED
    else if (s.owner .queue q).isNone then (s.setQueue q x).stopQueue q E_CORRAL_ACCESS
    else s.setQueue q { x with phase := .enabled }

/-- HST_QCTL DISABLE (R303). -/
def State.disableQueue (s : State) (q : Nat) : State :=
  let x := s.queue q
  if x.phase = .disabled then s
  else (s.setQueue q { x with phase := .disabling, waiter := none, fetched := none, walkUnits := 0 }).settleDisable q

/-- One control operation has been written and has completed (R303, R334). -/
def State.ctlDone (s : State) : State :=
  let w := s.reg .HST_CTL_STATUS 0 0
  s.setReg .HST_CTL_STATUS 0 0 ((w.put 63 32 (w.fld 63 32 + 1)).put 31 0 (w.fld 31 0 + 1))

/-- A write of HST_QCTL (R303, R334): a reserved OP is ignored. -/
def State.qctl (s : State) (v : Word) : State :=
  let op := v.fld 63 60
  if op = 1 then (s.enableQueue (v.fld 47 32) (v.fld 31 0)).ctlDone
  else if op = 2 then (s.disableQueue (v.fld 47 32)).ctlDone
  else s

/-! ## Queue pairs and regions (R298 to R300) -/

/-- The bootstrap queue pair of its port (R299). -/
def isBoot (i : Nat) : Bool := i % 2048 == 0

/-- STATE of a queue pair's table entry (R298). -/
def qpCode : QpPhase → Nat
  | .reset => 0 | .rts => 1 | .error => 2

/-- Put a queue pair into a new state, and its STATE into the table once the table's base has been written (R298). -/
def State.qpInto (s : State) (i : Nat) (p : QpSt) : State :=
  let a := s.fld .HST_QP_TABLE_BASE 0 0 56 12 * 4096 + 64 * i
  let t := s.setQp i p
  if s.svc.qptableSet && decide (a + 64 ≤ hbmTop) && s.hbmServed a && (s.badMerge a 8).isNone then
    t.wrWord a (Word.put (BitVec.ofNat 64 (t.rdWord a)) 63 61 (qpCode p.phase)).toNat
  else t

/-- Queues whose ring accesses wait on a queue pair that no longer answers are STOPPED (R310). -/
def State.stopUsers (s : State) (l : List Request) : State :=
  l.foldl (fun t r =>
    match (t.queue r.queue).phase with
    | .disabled => t
    | .stopped => t
    | _ => (t.stopQueue r.queue E_HOST_ACCESS).settleDisable r.queue) s

/-- A queue pair enters ERROR (R298). -/
def State.qpFail (s : State) (i : Nat) : State :=
  let p := s.qp i
  ((s.qpInto i { p with phase := .error, outstanding := [] }).raise0 .hst (i / 2048) 2).stopUsers p.outstanding

/-- HST_QP_CMD ARM (R298): a queue pair that is not in RESET is left as it is. -/
def State.armQp (s : State) (i : Nat) : State :=
  if (s.qp i).phase ≠ .reset then s
  else
    let e := s.tableWords (s.fld .HST_QP_TABLE_BASE 0 0 56 12 * 4096 + 64 * i) 8
    let pmtu := bitsOf (dw e 0) 58 56
    if pmtu < 3 ∨ 5 < pmtu ∨ bitsOf (dw e 1) 20 16 = 0 then s.raise0 .hst (i / 2048) 2
    else
      s.qpInto i { QpSt.idle with phase := .rts, entry := e, rqPsn := bitsOf (dw e 1) 47 24, sqPsn := bitsOf (dw e 0) 23 0,
                                  rateAt := s.time }

/-- HST_QP_CMD RESET (R298, R299). -/
def State.resetQp (s : State) (i : Nat) : State := (s.qpInto i QpSt.idle).stopUsers (s.qp i).outstanding

/-- HST_QP_CMD MR_FLUSH (R300). -/
def State.flushMr (s : State) (i : Nat) : State := { s with mrs := smSet (fun _ => none) s.mrs i none }

/-- A write of HST_QP_CMD (R334): a reserved OP, or a region index above 4,095, is ignored. -/
def State.qpCmd (s : State) (v : Word) : State :=
  let i := v.fld 12 0
  match v.fld 63 60 with
  | 1 => (s.armQp i).ctlDone
  | 2 => (s.resetQp i).ctlDone
  | 3 => if i < 4096 then (s.flushMr i).ctlDone else s
  | _ => s

/-- The page size, as a power of two, that a walk through a memory finds for an address: 16 where it finds no valid leaf. -/
def leafSpan (mem : List Host.Cell) (va : Nat) : Nat → List (Nat × Nat × Nat) → Nat
  | _, [] => 16
  | table, (_, hi, lo) :: t =>
    let e := oldWord mem (table + 8 * bitsOf va hi lo)
    if !bitAt e 0 then 16 else if bitAt e 1 then lo else leafSpan mem va (bitsOf e 56 8 * 256) t

/-- The page of an invalidation (R265, R334): the largest leaf that maps the address now, or did as far as the caches hold. -/
def State.invalSpan (s : State) (ctx va : Nat) : Nat :=
  let root := (s.xlateRoot ctx).fld 56 12 * 4096
  let held := s.walkUses (s.xold.view ctx va) va root walkLevels
  max (max (leafSpan s.mem va root walkLevels) (leafSpan (s.xold.view ctx va).mem va root walkLevels))
    (if held.getLast?.any (fun p => bitAt p.2 1) then (match held.length with | 3 => 30 | 4 => 21 | _ => 16) else 16)

/-- What the caches hold once an invalidation has dropped the entries it covers (R268, R334): SCOPE 0 every context, 1 one context, 2 one
page of `2 ^ span` bytes of one context. -/
def XlateOld.drop (x : XlateOld) (mem : List Host.Cell) (scope ctx va span : Nat) : XlateOld :=
  match scope with
  | 0 => { all := mem, ctxs := [], pages := [], used := [] }
  | 1 => { x with ctxs := smSet (fun _ => none) x.ctxs ctx (some mem), pages := x.pages.filter fun p => p.ctx != ctx
                  used := x.used.filter fun k => k.ctx != ctx }
  | _ =>
    let p : OldPage := { ctx := ctx, base := va / 2 ^ span * 2 ^ span, span := span, mem := mem }
    { x with pages := p :: x.pages.filter fun q => !(p.covers q.ctx q.base && decide (q.span ≤ span))
             used := x.used.filter fun k => !p.covers k.ctx (k.page * 65536) }

/-- A write of HST_XLATE_INVAL (R268, R334): the caches drop what it covers. A walk is one step, so none is under way, and the
invalidation completes. -/
def State.xlateInval (s : State) (v : Word) : State :=
  if v.fld 63 62 = 3 ∨ 256 < v.fld 61 53 then s
  else
    let va := v.fld 40 0 * 65536
    ({ s with xold := s.xold.drop s.mem (v.fld 63 62) (v.fld 61 53) va (s.invalSpan (v.fld 61 53) va) }).ctlDone

/-! ## The rows -/

/-- DB_PI_WRITE (R305). -/
def execDbPiWrite (port : Fin 4) (queue : Fin 65536) (value : Word) (s : State) : Host.Outcome State Fault Refusal :=
  s.live (s.dbPi port.val queue.val (value.fld 31 0))

/-- DB_CI_WRITE (R305). -/
def execDbCiWrite (port : Fin 4) (queue : Fin 65536) (value : Word) (s : State) : Host.Outcome State Fault Refusal :=
  s.live (s.dbCi port.val queue.val (value.fld 31 0))

/-- STREAM_RESUME (R271): a write of DB_STREAM whose OP is RESUME; any other word has its own effect. -/
def execStreamResume (port : Fin 4) (queue : Fin 65536) (value : Word) (s : State) : Host.Outcome State Fault Refusal :=
  s.live (s.dbStream port.val queue.val value)

/-- STREAM_ABORT (R271). -/
def execStreamAbort (port : Fin 4) (queue : Fin 65536) (value : Word) (s : State) : Host.Outcome State Fault Refusal :=
  s.live (s.dbStream port.val queue.val value)

/-- QUEUE_ENABLE (R303). -/
def execQueueEnable (queue : Fin 65536) (start : BitVec 32) (s : State) : Host.Outcome State Fault Refusal :=
  s.live (s.enableQueue queue.val start.toNat).ctlDone

/-- QUEUE_DISABLE (R303). -/
def execQueueDisable (queue : Fin 65536) (s : State) : Host.Outcome State Fault Refusal :=
  s.live (s.disableQueue queue.val).ctlDone

/-- QP_ARM (R298). -/
def execQpArm (qp : Fin 8192) (s : State) : Host.Outcome State Fault Refusal :=
  s.live (s.armQp qp.val).ctlDone

/-- QP_RESET (R298). -/
def execQpReset (qp : Fin 8192) (s : State) : Host.Outcome State Fault Refusal :=
  s.live (s.resetQp qp.val).ctlDone

/-- MR_FLUSH (R300): an index above 4,095 is a reserved encoding and is ignored (R334). -/
def execMrFlush (index : Fin 8192) (s : State) : Host.Outcome State Fault Refusal :=
  s.live (if index.val < 4096 then (s.flushMr index.val).ctlDone else s)

/-- XLATE_INVAL (R268). -/
def execXlateInval (value : Word) (s : State) : Host.Outcome State Fault Refusal :=
  s.live (s.xlateInval value)

end Sys2Proof.Machine
end

