-- ==== Sys2Proof/Machine/Paddock.lean ====
section
/-!
DEFINITION. Paddocks (chapter 10): gaits and their edges, channels and rings, probe ports, release stages, and the RAM window.
-/

namespace Sys2Proof.Machine

/-! ## What holds a paddock -/

/-- Two paddocks of one gait group (R350, R351). -/
def State.sameGroup (s : State) (p q : Nat) : Bool := (s.groupOf p).isSome && s.groupOf p == s.groupOf q

/-- How a paddock's input is bound (R349). -/
inductive InKind where
  | unbound | lock | hand | ring
  deriving DecidableEq, Repr

/-- The input binding of a paddock. -/
def State.inKind (s : State) (p : Nat) : InKind :=
  match pdkBind s.cfg.frames p false with
  | 1 => if s.sameGroup p (bitsOf (pdkPeer s.cfg.frames p false) 13 0) then .lock else .hand
  | 2 => .ring
  | _ => .unbound

/-- The output binding of a paddock. -/
def State.outKind (s : State) (p : Nat) : InKind :=
  match pdkBind s.cfg.frames p true with
  | 1 => if s.sameGroup p (bitsOf (pdkPeer s.cfg.frames p true) 13 0) then .lock else .hand
  | 2 => .ring
  | _ => .unbound

/-- The receiver of a paddock's output channel. -/
def State.pdkTo (s : State) (p : Nat) : Nat := bitsOf (pdkPeer s.cfg.frames p true) 13 0

/-- Buffer ID and bytes of a paddock's ring. -/
def State.pdkRingAt (s : State) (p : Nat) (out : Bool) : Nat × Nat :=
  (ringBuffer (pdkPeer s.cfg.frames p out), ringSlots (pdkPeer s.cfg.frames p out) * 4096)

/-! ## The input of a tick -/

/-- The stimulus word a running replay presents, if it has come (R359). -/
def replayWord (k : PdkSt) : Option Word :=
  match k.repBuf.find? (fun b => b.1 == k.repNext / 64) with
  | some b => some (b.2.getD (k.repNext % 64) 0)
  | none => none

/-- The word a handshake channel or ring presents, if one is there. -/
def State.inWord (s : State) (p : Nat) : Option Word :=
  let k := s.pdk p
  match s.inKind p with
  | .hand => k.fifo.head?
  | .ring =>
    let r := s.pdkRingAt p false
    if k.inRing.c + 8 ≤ k.inRing.p then some (BitVec.ofNat 64 (leNat (s.ringLoad r.1 r.2 k.inRing.c 8))) else none
  | _ => none

/-- The channel input bits of a tick (R349, R359, R361). Where a handshake channel or ring has no word, what it presents is a free
value. -/
def State.chanIn (s : State) (p : Nat) (free : Word) : Nat :=
  let k := s.pdk p
  let base : Word :=
    if k.rep = .running then (replayWord k).getD 0
    else
      match s.inKind p with
      | .unbound => 0
      | .lock => k.lock
      | _ => (s.inWord p).getD free
  let mask := BitVec.ofNat 64 (ioMask s.cfg.frames p)
  ((base &&& ~~~mask) ||| (BitVec.ofNat 64 k.userIn &&& mask)).toNat

/-! ## What holds an edge (R344) -/

/-- A capture in STALL mode has no place for the tick's sample (R358). -/
def State.captureFull (s : State) (p : Nat) : Bool :=
  let k := s.pdk p
  let ctl := s.reg .PDK_PROBE_CTL p 0
  let linearEnd := !ctl.bit 4 && decide (s.fld .PDK_PROBE_LEN p 0 31 0 ≤ s.fld .PDK_PROBE_WPTR p 0 31 0 + k.full.length)
  k.cap == .running && k.block.isNone && decide (2 ≤ k.full.length) && !linearEnd

/-- The receiver of a handshake channel takes nothing and discards (R354, R359). -/
def State.discards (s : State) (r : Nat) : Bool :=
  decide ((s.pdk r).stage < 2) || s.pdkShut r || s.pdkHeld r || (s.pdk r).rep == .running

/-- Why the edge of a paddock is held: 0 not, 2 input or IDLE, 3 output, 4 probe port (R344, R369). -/
def State.edgeHeld (s : State) (p : Nat) : Nat :=
  let k := s.pdk p
  let replay := k.rep == .running
  let kind := s.inKind p
  let word := if replay then (replayWord k).isSome else kind == .lock || (s.inWord p).isSome
  let input := (replay && !word) || (!replay && k.take && (kind == .hand || kind == .ring) && !word) || (k.idle && !word)
  let out := k.push &&
    (match s.outKind p with
     | .hand => !s.discards (s.pdkTo p) && decide (4 ≤ (s.pdk (s.pdkTo p)).fifo.length + k.flight.length)
     | .ring =>
       let r := s.pdkRingAt p true
       decide (r.2 < k.outRing.p - k.outRing.c + 8 * (k.outRing.batch.length + 1))
     | _ => false)
  if input then 2 else if out then 3 else if s.captureFull p && !(s.reg .PDK_PROBE_CTL p 0).bit 3 then 4 else 0

/-- The members of a paddock's gait that tick. -/
def State.gaitMembers (s : State) (p : Nat) : List Nat := (s.groupMembers p).filter (fun x => s.pdkTicks x)

/-! ## Rings -/

/-- A batch of pushed words leaves for its ring (R352). -/
def State.flushBatch (s : State) (p : Nat) : State :=
  let k := s.pdk p
  if k.outRing.batch.isEmpty then s
  else
    let r := s.pdkRingAt p true
    (s.ringStore r.1 r.2 k.outRing.p (wordsBytes k.outRing.batch)).setPdk p
      { k with outRing := { k.outRing with p := k.outRing.p + 8 * k.outRing.batch.length, batch := [] } }

/-! ## Probe ports (R356 to R358) -/

/-- The sample of a tick under a selection (R356, R379). -/
def sampleOf (sel : List Word) (out ch : Nat) : Word :=
  BitVec.ofNat 64 (lutIndex out ch ((upTo 64).map (fun i => (sel.getD (i / 8) 0).fld (8 * (i % 8) + 7) (8 * (i % 8)))))

/-- Take the sample of a tick (R357, R358); the last flag says that it was lost. DESIGN CHOICE (log 102): the stamp of a sample is the timebase
value of its edge, though R29 lets a stamp lie up to 3 ns after the event. -/
def capture (k : PdkSt) (sel : List Word) (linearEnd : Bool) (time tick : Nat) (mk : List Word → Word) : PdkSt × Bool × Bool :=
  if k.cap ≠ .running then (k, false, false)
  else
    match k.block with
    | some b =>
      let b1 := { b with samples := b.samples ++ [mk k.capSel], stampLast := time }
      if b1.samples.length = 60 then ({ k with block := none, full := k.full ++ [b1] }, true, false)
      else ({ k with block := some b1 }, true, false)
    | none =>
      if linearEnd then (k, false, false)
      else if 2 ≤ k.full.length then ({ k with lostRun := k.lostRun + 1 }, false, true)
      else
        let b : CapBlock := { stampFirst := time, stampLast := time, tickFirst := tick, samples := [mk sel],
                              gap := k.lostRun != 0, lost := k.lostRun }
        ({ k with block := some b, capSel := sel, lostRun := 0 }, true, false)

/-- The 512 bytes of a capture block (R357). -/
def blockBytes (p : Nat) (b : CapBlock) : List Byte :=
  wordsBytes ([BitVec.ofNat 64 b.stampFirst, BitVec.ofNat 64 b.stampLast,
      BitVec.ofNat 64 (b.tickFirst % 2 ^ 48 * 2 ^ 16 + b.samples.length * 2 ^ 8 + b2n b.gap),
      BitVec.ofNat 64 (sat32 b.lost * 2 ^ 32 + p)] ++ b.samples ++ List.replicate (60 - b.samples.length) 0)

/-- A probe transfer fails (R360, R463): the port is DONE, with its error. -/
def State.probeFail (s : State) (p code : Nat) (replay : Bool) : State :=
  let k := s.pdk p
  let s1 := if replay then (s.setPdk p { k with rep := .done, repBuf := [] }).setFld .PDK_REPLAY_CTL p 0 31 16 code
    else (s.setPdk p { k with cap := .done, block := none, full := [] }).setFld .PDK_PROBE_CTL p 0 31 16 code
  s1.raise0 .pdk p 4

/-- Write one closed block (R357, R360). -/
def State.writeBlock (s : State) (p : Nat) (b : CapBlock) : State :=
  let w := s.reg .PDK_PROBE_WPTR p 0
  let a := s.fld .PDK_PROBE_BASE p 0 56 9 * 512 + 512 * w.fld 31 0
  if hbmTop < a + 512 ∨ !s.hbmServed a then s.probeFail p E_ADDR_UNMAPPED false
  else
    let s1 := (s.blockUnit .capture (s.owner .paddock p) true a).wr a (blockBytes p b)
    let next := w.fld 31 0 + 1
    if next < s.fld .PDK_PROBE_LEN p 0 31 0 then s1.setReg .PDK_PROBE_WPTR p 0 (w.put 31 0 next)
    else if (s.reg .PDK_PROBE_CTL p 0).bit 4 then s1.setReg .PDK_PROBE_WPTR p 0 ((w.put 31 0 0).put 63 32 (w.fld 63 32 + 1))
    else
      let s2 := s1.setReg .PDK_PROBE_WPTR p 0 (w.put 31 0 next)
      (s2.setPdk p { s2.pdk p with cap := .done, block := none, full := [] }).raise0 .pdk p 2

/-- Write blocks in order while the port has not ended. -/
def State.writeBlocks (s : State) (p : Nat) : List CapBlock → State
  | [] => s
  | b :: t => let s1 := s.writeBlock p b; if (s1.pdk p).cap = .done then s1 else s1.writeBlocks p t

/-! ## Time past an edge's period (R345, R373) -/

/-- Some member of a paddock's gait holds its edge (R348). -/
def State.gaitHeld (s : State) (p : Nat) : Bool := (s.gaitMembers p).any (fun x => s.edgeHeld x != 0)

/-- A stopped gait restarts when the condition that holds it clears (R345), which the timebase sees within a nanosecond (R27). -/
def State.wakeGait (s : State) (p : Nat) : State :=
  if (s.pdk p).stopped && !s.gaitHeld p then
    (s.bump .PDK_STOP_NS p 0 (s.stoppedNs p)).setPdk p { s.pdk p with stopped := false }
  else s

/-- Every stopped gait whose condition has cleared restarts. -/
def State.wakeGaits (s : State) : State := (smKeys s.pdks).foldl (fun t p => t.wakeGait p) s

/-- The stopped gaits of a paddock's group whose condition has cleared restart. -/
def State.wakeGroup (s : State) (p : Nat) : State := (s.groupMembers p).foldl (fun t x => t.wakeGait x) s

/-! ## The edge (R337, R344, R350 to R352) -/

/-- The values of a paddock's cells in its tick. Logic that is deeper than the declared depth may capture wrong values: they are
free (R342). `d` numbers the free values. -/
def State.pdkNet (s : State) (p d : Nat) : Net × Nat :=
  let m := s.cfg.frames
  let k := s.pdk p
  let cells := pcells m p
  let w (i : Nat) : Nat := (Config.freeWord (d + i)).toNat
  let ch := s.chanIn p (Config.freeWord d)
  let x : NetIn := { fa := k.fa, fb := k.fb, qa := k.qa, qb := k.qb, wa := ramWidth m p false, wb := ramWidth m p true, ch := ch,
                     free := w 1 + w 2 * 2 ^ 64 }
  let outs := (upTo 64).map (fun b => ctlByte m p (64 + b)) ++ ioOuts m p
  let deep : Net := { la := w 3 + w 4 * 2 ^ 64, lb := w 5 + w 6 * 2 ^ 64, sum := w 7 + w 8 * 2 ^ 64, out := w 9 + w 10 * 2 ^ 64 }
  match logicDepth cells outs (portCodes m p false ++ portCodes m p true) with
  | none => (deep, ch)
  | some n =>
    if s.pdkDepth p < n then (deep, ch)
    else ((netSettle x cells 130 { la := 0, lb := 0, sum := 0, out := 0 }).getD deep, ch)

/-- A paddock's control signal, by its source code (R344). -/
def ctlBit (m : SMap Word) (p : Nat) (out ch lo : Nat) : Bool := srcBit out ch (bitsOf (ctlWord m p 0) (lo + 7) lo)

/-- One paddock's edge in state `s`, its effects applied to `t` (R337, R339, R344). -/
def State.edgeOne (s t : State) (p pins d : Nat) : State :=
  let m := s.cfg.frames
  let k := s.pdk p
  let nc := s.pdkNet p d
  let v := nc.1
  let ch := nc.2
  let cells := pcells m p
  let wa := ramWidth m p false
  let wb := ramWidth m p true
  let ram := leNat (s.rdBytes (pdkRamAddr p 0) 4608)
  let oa := portOp v.out ch wa (portCodes m p false)
  let ob := portOp v.out ch wb (portCodes m p true)
  let ff := captureFF cells v ch k.fa k.fb (k.stage == 2) 128
  let word := BitVec.ofNat 64 (codesNat v.out ch ((upTo 64).map (fun b => ctlByte m p (64 + b))))
  let replay := k.rep == .running
  let kind := s.inKind p
  let takes := !replay && k.take && (kind == .hand || kind == .ring)
  let pushes := k.push && (s.outKind p == .hand || s.outKind p == .ring)
  let sel := (upTo 8).map (fun n => s.reg .PDK_PROBE_SEL p n)
  let linearEnd := !(s.reg .PDK_PROBE_CTL p 0).bit 4
    && decide (s.fld .PDK_PROBE_LEN p 0 31 0 ≤ s.fld .PDK_PROBE_WPTR p 0 31 0 + k.full.length)
  let cap := capture k sel linearEnd s.time k.tick (fun l => sampleOf l v.out ch)
  let k1 := cap.1
  let last := replay && !(s.reg .PDK_REPLAY_CTL p 0).bit 4 && k.repNext + 1 == 64 * s.fld .PDK_REPLAY_LEN p 0 31 0
  let repNext := if replay then k.repNext + 1 else k.repNext
  let tick := k.tick + 1
  let stage := if k.stage = 2 ∧ k.tick + 1 = (smGet (fun _ => RParam.dflt) s.cfg.live.rparams (s.pdkRegion p)).ticks then 3 else k.stage
  let k2 : PdkSt :=
    { k1 with
      fa := ff.1, fb := ff.2, qa := ramRead ram wa k.qa oa, qb := ramRead ram wb k.qb ob
      take := ctlBit m p v.out ch 8, push := ctlBit m p v.out ch 16, idle := ctlBit m p v.out ch 24
      stage := stage, tick := tick, lastEdge := s.time, stopped := false, lock := (t.pdk p).lock
      fifo := if takes && kind == .hand then k.fifo.drop 1 else k.fifo
      inRing := if takes && kind == .ring then { k.inRing with c := k.inRing.c + 8 } else k.inRing
      flight := if pushes && s.outKind p == .hand then k.flight ++ [word] else k.flight
      outRing := if pushes && s.outKind p == .ring then
          { k.outRing with batch := k.outRing.batch ++ [word], batchAt := if k.outRing.batch.isEmpty then s.time else k.outRing.batchAt }
        else k.outRing
      repNext := repNext
      repBuf := if replay then k.repBuf.filter (fun b => decide (repNext / 64 ≤ b.1)) else k.repBuf
      rep := if last then .done else if k.rep = .armed ∧ s.fld .PDK_REPLAY_START p 0 47 0 ≤ tick then .running else k.rep
      cap := if k1.cap = .armed ∧ s.fld .PDK_PROBE_START p 0 47 0 ≤ tick then .running else k1.cap
      userIn := pins }
  let t1 := (t.setPdk p k2).bump .PDK_EDGE_COUNT p 0 1
  let t2 := (t1.bump .PDK_STRETCH_NS p 0 (s.lateNs p)).bump .PDK_STOP_NS p 0 (s.stoppedNs p)
  let t3 := (t2.bump .PDK_CH_IN_WORDS p 0 (b2n takes + b2n replay)).bump .PDK_CH_OUT_WORDS p 0 (b2n pushes)
  let t4 := t3.bump .PDK_PROBE_SAMPLES p 0 (b2n cap.2.1)
  let t5 := if cap.2.2 then (t4.bump .PDK_PROBE_LOST p 0 1).raise0 .pdk p 3 else t4
  let t6 := if last then t5.raise0 .pdk p 1 else t5
  let writes := (oa.enable && oa.write) || (ob.enable && ob.write)
  let t7 := if writes then t6.wr (pdkRamAddr p 0) (leBytes 4608 (ramStep ram wa wb oa ob)) else t6
  -- a lockstep channel that spans more columns than H may show another tick's value (R590): a free value
  let far (r : Nat) : Bool := 
    let c := max (p % 2304 / 64) (r % 2304 / 64) - min (p % 2304 / 64) (r % 2304 / 64)
    decide ((s.groupOf p).elim 0 (·.2) < min c (36 - c))
  let t8 := if s.outKind p = .lock then
      (let r := s.pdkTo p; t7.setPdk r { t7.pdk r with lock := if far r then Config.freeWord (d + 15) else word })
    else t7
  if 16 ≤ k2.outRing.batch.length then t8.flushBatch p else t8

/-- Show a region RUN once each of its paddocks that is used has left user reset (R365). -/
def State.regionRun (s : State) (r : Nat) : State :=
  let x := s.region r
  if x.stage = 2 ∧ (listedPaddocks s.cfg.frames).all (fun p => s.pdkRegion p != r || pdkUnused s.cfg.frames p || (s.pdk p).stage == 3) then
    s.setRegion r { x with stage := 3 }
  else s

/-- An edge of a paddock's gait: every member of its group ticks (R344, R348). `pins` are the bits that I/O cells present to this
paddock for the next tick. -/
def State.gaitEdge (s : State) (p pins : Nat) : State :=
  if !s.pdkTicks p then s
  else
    let l := s.gaitMembers p
    if l.any (fun x => s.edgeHeld x != 0) then s
    else
      let t := (upTo l.length).foldl (fun a i =>
        let x := l.getD i 0
        s.edgeOne a x (if x = p then pins else (s.pdk x).userIn) (s.draws + 16 * i)) s
      { t with draws := s.draws + 16 * l.length }.regionRun (s.pdkRegion p)

/-- GAIT_STOP (R345): an edge of the gait has been held for 1 µs. -/
def State.gaitStop (s : State) (p : Nat) : State :=
  let k := s.pdk p
  if !s.pdkTicks p ∨ k.stopped ∨ !(s.gaitMembers p).any (fun x => s.edgeHeld x != 0)
      ∨ s.time * 1000 < k.lastEdge * 1000 + s.pdkPeriod p + 1000000 then s
  else (s.gaitMembers p).foldl (fun t x => (t.setPdk x { t.pdk x with stopped := true, stopAt := s.time }).flushBatch x) s

/-- CHANNEL_WORD_DELIVER (R350, R354): the oldest word in flight from a paddock reaches its receiver, which discards it or holds it as one
of at most four. -/
def State.wordDeliver (s : State) (p : Nat) (w : Word) : State :=
  let k := s.pdk p
  if k.flight.head? ≠ some w then s
  else
    let s1 := s.setPdk p { k with flight := k.flight.drop 1 }
    let r := s.pdkTo p
    if s.discards r then (s1.bump .PDK_CH_DROP_WORDS p 0 1).raise0 .pdk p 0
    else if 4 ≤ (s.pdk r).fifo.length then s
    else let x := s1.pdk r; s1.setPdk r { x with fifo := x.fifo ++ [w] }

/-- A word in flight is delivered, and the gaits that waited for it, or for room, restart (R345). -/
def State.wordRow (s : State) (p : Nat) (w : Word) : State :=
  if (s.pdk p).flight.head? ≠ some w then s else ((s.wordDeliver p w).wakeGroup p).wakeGroup (s.pdkTo p)

/-- The words in flight from a paddock reach their receiver. -/
def State.landFlight (s : State) (p : Nat) : State := (s.pdk p).flight.foldl (fun t w => t.wordDeliver p w) s

/-- RING_BATCH_FLUSH (R352). -/
def State.batchFlush (s : State) (p : Nat) : State :=
  let k := s.pdk p
  if k.outRing.batchAt + 100 ≤ s.time ∨ k.stopped ∨ 16 ≤ k.outRing.batch.length then s.flushBatch p else s

/-- An access to a paddock's RAM slot (R340): words are applied whole; one that is not 8-byte aligned and whole is counted. -/
def State.ramAccess (s : State) (p off : Nat) (data : Option (List Byte)) (len : Nat) : State :=
  let n := match data with | some d => d.length | none => len
  if 0x1200 < off + n then s
  else if off % 8 ≠ 0 ∨ n % 8 ≠ 0 then s.badReg
  else match data with | some d => s.wr (pdkRamAddr p off) d | none => s

/-! ## Probe control (R360) -/

/-- Why an ARM is refused, 0 if it is not (R360). A paddock of a quarantined region is held (R402). No field of the port's registers ever
holds a reserved encoding, for a write of one leaves the field as it was (R13). -/
def State.armError (s : State) (p base blocks : Nat) (write : Bool) : Nat :=
  match s.owner .paddock p with
  | none => E_CORRAL_ACCESS
  | some c =>
    if s.pdkHeld p || s.pdkShut p then E_CORRAL_ACCESS
    else if hbmTop < base * 512 + blocks * 512 then E_ADDR_UNMAPPED
    else if (upTo ((base * 512 + blocks * 512 - 1) / 2 ^ 21 - base * 512 / 2 ^ 21 + 1)).all (fun i =>
        s.granuleOk c write (base * 512 / 2 ^ 21 + i)) then 0
    else E_MEM_OUT_OF_CORRAL

/-- PDK_PROBE_CTL ARM. -/
def State.armProbe (s : State) (p : Nat) : State :=
  let k := s.pdk p
  if k.cap = .armed ∨ k.cap = .running then s
  else
    let e := s.armError p (s.fld .PDK_PROBE_BASE p 0 56 9) (s.fld .PDK_PROBE_LEN p 0 31 0) true
    let s1 := s.setFld .PDK_PROBE_CTL p 0 31 16 e
    if e ≠ 0 then s1.setPdk p { k with cap := .off }
    else (s1.setPdk p { k with cap := .armed, block := none, full := [], lostRun := 0 }).setReg .PDK_PROBE_WPTR p 0 0

/-- PDK_PROBE_CTL STOP: a RUNNING capture closes its block, writes it and is DONE. -/
def State.stopProbe (s : State) (p : Nat) : State :=
  let k := s.pdk p
  match k.cap with
  | .armed => s.setPdk p { k with cap := .off }
  | .running =>
    let s1 := s.writeBlocks p (k.full ++ k.block.toList)
    s1.setPdk p { s1.pdk p with cap := .done, block := none, full := [] }
  | _ => s

/-- PDK_REPLAY_CTL ARM. -/
def State.armReplay (s : State) (p : Nat) : State :=
  let k := s.pdk p
  if k.rep = .armed ∨ k.rep = .running then s
  else
    let e := s.armError p (s.fld .PDK_REPLAY_BASE p 0 56 9) (s.fld .PDK_REPLAY_LEN p 0 31 0) false
    let s1 := s.setFld .PDK_REPLAY_CTL p 0 31 16 e
    if e ≠ 0 then s1.setPdk p { k with rep := .off }
    else (s1.setPdk p { k with rep := .armed, repBuf := [], repNext := 0 }).setReg .PDK_REPLAY_RPTR p 0 0

/-- PDK_REPLAY_CTL STOP. -/
def State.stopReplay (s : State) (p : Nat) : State :=
  let k := s.pdk p
  match k.rep with
  | .armed => s.setPdk p { k with rep := .off }
  | .running => s.setPdk p { k with rep := .done, repBuf := [] }
  | _ => s

/-- A write of PDK_PROBE_CTL or PDK_REPLAY_CTL (R374): WRAP and LOSSY stand still while the port is ARMED or RUNNING. -/
def State.probeCtl (s : State) (p : Nat) (replay : Bool) (v : Word) : State :=
  let k := s.pdk p
  let phase := if replay then k.rep else k.cap
  let busy := phase == .armed || phase == .running
  let r : Reg := if replay then .PDK_REPLAY_CTL else .PDK_PROBE_CTL
  let s1 := if busy then s else s.setReg r p 0 (regWritten r (s.reg r p 0) v)
  match v.fld 1 0 with
  | 1 => if replay then s1.armReplay p else s1.armProbe p
  | 2 => if replay then s1.stopReplay p else s1.stopProbe p
  | _ => s1

/-- PROBE_START_TICK (R360): the tick that an ARMED port's START names is current. -/
def State.startTick (s : State) (p : Nat) : State :=
  let k := s.pdk p
  if !s.pdkTicks p then s
  else
    s.setPdk p { k with cap := if k.cap = .armed ∧ s.fld .PDK_PROBE_START p 0 47 0 = k.tick then .running else k.cap
                        rep := if k.rep = .armed ∧ s.fld .PDK_REPLAY_START p 0 47 0 = k.tick then .running else k.rep }

/-- CAPTURE_BLOCK_WRITE (R357). -/
def State.captureWrite (s : State) (p : Nat) : State :=
  let k := s.pdk p
  match k.full with
  | [] => s
  | b :: t => if k.cap = .running then (s.setPdk p { k with full := t }).writeBlock p b else s

/-- STIMULUS_BLOCK_ARRIVAL (R359): the next block of the region arrives while the port prefetches fewer than two. -/
def State.stimulus (s : State) (p : Nat) : State :=
  let k := s.pdk p
  let w := s.reg .PDK_REPLAY_RPTR p 0
  let blocks := s.fld .PDK_REPLAY_LEN p 0 31 0
  let loop := (s.reg .PDK_REPLAY_CTL p 0).bit 4
  let i := w.fld 31 0
  if (k.rep ≠ .armed ∧ k.rep ≠ .running) ∨ 2 ≤ k.repBuf.length ∨ blocks ≤ i then s
  else
    let a := s.fld .PDK_REPLAY_BASE p 0 56 9 * 512 + 512 * i
    if hbmTop < a + 512 ∨ !s.hbmServed a then s.probeFail p E_ADDR_UNMAPPED true
    else
      match s.badIn a 512 with
      | some b => (s.logUncorr 5 b).probeFail p E_HBM_UNCORR true
      | none =>
        let n := blocks * w.fld 63 32 + i
        let s1 := (s.blockUnit .replay (s.owner .paddock p) false a).setPdk p {
          k with repBuf := k.repBuf ++ [(n, bytesWords 64 (s.rdBytes a 512))] }
        if i + 1 = blocks ∧ loop then s1.setReg .PDK_REPLAY_RPTR p 0 ((w.put 31 0 0).put 63 32 (w.fld 63 32 + 1))
        else s1.setReg .PDK_REPLAY_RPTR p 0 (w.put 31 0 (i + 1))

/-! ## Release stages (R364 to R366) -/

/-- The RAM of a paddock that leaves a later stage takes its loaded contents (R364, R385). -/
def State.ramReload (s : State) (p : Nat) : State :=
  if (s.pdk p).stage = 0 then s
  else s.wr (pdkRamAddr p 0) ((upTo 576).flatMap (fun i => leBytes 8 (fmWord s.cfg.frames (pdkFrame p + 3 + i / 128) (i % 128))))

/-- A paddock returns to stage 0 (R364, R366): storage takes its initial values and RAM its loaded contents, rings close and discard what
they hold, ports are OFF, and what the tick under way was late by is counted. A ring keeps its partner, a word on its way reaches its
receiver, and the words at the paddock's own input are gone (log 103). -/
def State.pdkHold (s : State) (p : Nat) : State :=
  let k := s.pdk p
  let f := initFF s.cfg.frames p
  let s1 := (s.bump .PDK_STRETCH_NS p 0 (s.lateNs p)).bump .PDK_STOP_NS p 0 (s.stoppedNs p)
  (s1.ramReload p).setPdk p
    { PdkSt.idle0 with fa := f.1, fb := f.2, flight := k.flight
                       inRing := { PdkRing.idle with partner := k.inRing.partner }
                       outRing := { PdkRing.idle with partner := k.outRing.partner } }

/-- A paddock enters stage 1. -/
def State.pdkOutputs (s : State) (p : Nat) : State := s.setPdk p { s.pdk p with stage := 1 }

/-- A ring that opens, empty, with the partner that waits for it (R352). -/
def PdkRing.reopen (r : PdkRing) (ring : Bool) : PdkRing := { PdkRing.idle with opened := ring, partner := r.partner }

/-- A paddock enters stage 2: its rings open and tick 0 begins. What I/O cells present in tick 0 is a free value. -/
def State.pdkWrites (s : State) (p : Nat) : State :=
  let d := s.draw
  let m := s.cfg.frames
  let k := s.pdk p
  d.2.setPdk p
    { k with stage := 2, tick := 0, lastEdge := s.time, userIn := d.1.toNat
             inRing := k.inRing.reopen (pdkBind m p false == 2), outRing := k.outRing.reopen (pdkBind m p true == 2) }

/-- The used paddocks of a region. -/
def State.regionPdks (s : State) (r : Nat) : List Nat :=
  (listedPaddocks s.cfg.frames).filter (fun p => s.pdkRegion p == r && !pdkUnused s.cfg.frames p)

/-- Those of them that a release brings on: a paddock that no corral owns keeps its outputs off and stays in stage 0 (R33). -/
def State.releasedPdks (s : State) (r : Nat) : List Nat := (s.regionPdks r).filter (fun p => (s.owner .paddock p).isSome)

/-! ## The rows -/

/-- GAIT_EDGE (R344). -/
def execGaitEdge (paddock : Fin 9216) (pins : BitVec 64) (s : State) : Host.Outcome State Fault Refusal :=
  let t := s.gaitEdge paddock.val pins.toNat
  s.live { s with pdks := t.pdks, regs := t.regs, svc := t.svc, mem := t.mem, bad := t.bad, draws := t.draws, cfg := t.cfg }

/-- USER_RESET_DEASSERT (R365): the edge that ends tick RESET_TICKS − 1 of a paddock in stage 2. -/
def execUserResetDeassert (paddock : Fin 9216) (s : State) : Host.Outcome State Fault Refusal :=
  let p := paddock.val
  let k := s.pdk p
  let last := k.stage = 2 ∧ k.tick + 1 = (smGet (fun _ => RParam.dflt) s.cfg.live.rparams (s.pdkRegion p)).ticks
  let t := if last then s.gaitEdge p k.userIn else s
  s.live { s with pdks := t.pdks, regs := t.regs, svc := t.svc, mem := t.mem, bad := t.bad, draws := t.draws, cfg := t.cfg }

/-- GAIT_STOP (R345). -/
def execGaitStop (paddock : Fin 9216) (s : State) : Host.Outcome State Fault Refusal :=
  let t := s.gaitStop paddock.val
  s.live { s with pdks := t.pdks, mem := t.mem, bad := t.bad }

/-- CHANNEL_WORD_DELIVER (R350): a stopped gait that waited for the word, or for room, restarts (R345). -/
def execChannelWordDeliver (paddock : Fin 9216) (word : Word) (s : State) : Host.Outcome State Fault Refusal :=
  let t := s.wordRow paddock.val word
  s.live { s with pdks := t.pdks, regs := t.regs, svc := t.svc }

/-- RING_BATCH_FLUSH (R352). -/
def execRingBatchFlush (paddock : Fin 9216) (s : State) : Host.Outcome State Fault Refusal :=
  let t := s.batchFlush paddock.val
  s.live { s with pdks := t.pdks, mem := t.mem, bad := t.bad }

/-- PADDOCK_RAM_ACCESS (R340). -/
def execPaddockRamAccess (paddock : Fin 9216) (off : BitVec 13) (data : Option (List Byte)) (len : BitVec 13) (s : State) :
    Host.Outcome State Fault Refusal :=
  let t := s.ramAccess paddock.val off.toNat data len.toNat
  s.live { s with regs := t.regs, svc := t.svc, mem := t.mem, bad := t.bad }

/-- PROBE_ARM (R360). -/
def execProbeArm (paddock : Fin 9216) (s : State) : Host.Outcome State Fault Refusal :=
  let t := s.armProbe paddock.val
  s.live { s with pdks := t.pdks, regs := t.regs }

/-- PROBE_STOP (R360). -/
def execProbeStop (paddock : Fin 9216) (s : State) : Host.Outcome State Fault Refusal :=
  let t := s.stopProbe paddock.val
  s.live { s with pdks := t.pdks, regs := t.regs, svc := t.svc, mem := t.mem, bad := t.bad, hbm := t.hbm }

/-- REPLAY_ARM (R360). -/
def execReplayArm (paddock : Fin 9216) (s : State) : Host.Outcome State Fault Refusal :=
  let t := s.armReplay paddock.val
  s.live { s with pdks := t.pdks, regs := t.regs }

/-- REPLAY_STOP (R360). -/
def execReplayStop (paddock : Fin 9216) (s : State) : Host.Outcome State Fault Refusal :=
  s.live { s with pdks := (s.stopReplay paddock.val).pdks }

/-- PROBE_START_TICK (R360). -/
def execProbeStartTick (paddock : Fin 9216) (s : State) : Host.Outcome State Fault Refusal :=
  s.live { s with pdks := (s.startTick paddock.val).pdks }

/-- CAPTURE_BLOCK_WRITE (R357). -/
def execCaptureBlockWrite (paddock : Fin 9216) (s : State) : Host.Outcome State Fault Refusal :=
  let t := s.captureWrite paddock.val
  s.live { s with pdks := t.pdks, regs := t.regs, svc := t.svc, mem := t.mem, bad := t.bad, hbm := t.hbm }

/-- STIMULUS_BLOCK_ARRIVAL (R359): a stopped gait that waited for the block restarts (R345). -/
def execStimulusBlockArrival (paddock : Fin 9216) (s : State) : Host.Outcome State Fault Refusal :=
  let t := (s.stimulus paddock.val).wakeGroup paddock.val
  s.live { s with pdks := t.pdks, regs := t.regs, svc := t.svc, hbm := t.hbm }

end Sys2Proof.Machine
end

