-- ==== Sys2Proof/Machine/ReinBase.lean ====
section
/-!
DEFINITION. What rein links share with other chapters: the fixed trees (R510, R511, R609), responses to requests at other devices
(R269, R270, R439, R491), packets that a port discards, and the end of a link (R494).
-/

namespace Sys2Proof.Machine

/-! ## The fixed trees (R510, R511, R609) -/

/-- One step from a position toward the lead in a dimension whose coordinate is not 0: the position reached and the direction
(R510): the shorter way round, down on a tie. -/
def State.leadStep (s : State) (p dim : Nat) : Nat × Nat :=
  let d := s.dimSize dim
  let c := coordOf p dim
  if d / 2 < c then (withCoord p dim ((c + 1) % d), 0) else (withCoord p dim (c - 1), 1)

/-- The parent of a position in the hitch tree, with the dimension and direction that lead to it: the first present neighbour
nearer the lead in the order Z, Y, X (R510, R609). -/
def State.parentOf (s : State) (p : Nat) : Option (Nat × Nat × Nat) :=
  ([2, 1, 0].filter (fun d => coordOf p d != 0)).findSome? (fun d =>
    let r := s.leadStep p d
    if s.posAbsent r.1 then none else some (r.1, d, r.2))

/-- The device ID of this device's parent in the hitch tree. -/
def State.treeParent (s : State) : Option Nat := (s.parentOf s.ownPos).map (fun r => s.ownHitch * 64 + r.1)

/-- The children of this device in the hitch tree. -/
def State.treeChildren (s : State) : List Nat :=
  ((upTo 64).filter (fun p => p != s.ownPos && s.posNames p && !s.posAbsent p
    && ((s.parentOf p).map (·.1)) == some s.ownPos)).map (fun p => s.ownHitch * 64 + p)

/-- The leads below this lead in the string tree (R511). Which hitches name this one as their parent stands in their own RNL_STRING
registers: a free value. -/
def State.stringChildren (s : State) : List Nat :=
  (Config.stringChildren s.ownHitch).filterMap (fun h => if h = s.ownHitch ∨ 1024 ≤ h then none else some (h * 64))

/-- The present devices of this hitch, ascending (R407, R608). -/
def State.hitchDevices (s : State) : List Nat :=
  ((upTo 64).filter (fun p => p == s.ownPos || (s.posNames p && !s.posAbsent p))).map (fun p => s.ownHitch * 64 + p)

/-- The port of a tree link in a direction: member 0, or member 1 if member 0 is not UP (R510). -/
def State.treeLink (s : State) (dim dir : Nat) : Option Nat :=
  ([0, 1].filterMap (fun m => s.torusPort dim dir m)).find? (fun i => s.portUsable i)

/-- The port that leads to a neighbour in the hitch tree, this device's parent or a child (R510). -/
def State.treePort (s : State) (dev : Nat) : Option Nat :=
  if dev / 64 ≠ s.ownHitch then none
  else
    match s.parentOf s.ownPos, s.parentOf (dev % 64) with
    | some (p, dim, dir), c =>
      if p = dev % 64 then s.treeLink dim dir
      else c.bind (fun r => if r.1 = s.ownPos then s.treeLink r.2.1 (1 - r.2.2) else none)
    | none, some (p, dim, dir) => if p = s.ownPos then s.treeLink dim (1 - dir) else none
    | none, none => none

/-- Send a packet of a tree: to a neighbour in the hitch tree over the tree's link (R510), to another device by R503 (R511). Where no
port leads there it is lost. -/
def State.sendTyped (s : State) (typ vc : Nat) (p : ReinPkt) : State :=
  match s.treePort p.dst.toNat with
  | some i => s.queuePkt i { typ := typ, pkt := { p with vc := BitVec.ofNat 5 vc } }
  | none => (s.sendPkt typ p).1

/-- Send a TREE packet. -/
def State.sendTree (s : State) (code dev : Nat) (addr : Word) (payload : List Byte) : State :=
  s.sendTyped T_TREE 16 (mkPkt dev s.devId 0 0 0 code addr payload.length payload)

/-! ## The trees of the timebase (R506 to R511) -/

/-- The parent that a device follows in the hitch tree, over the links that are left (R508, R510): the first direction of Z, Y, X toward
the lead with a present neighbour and a link that is UP. -/
def State.linkedParent (s : State) : Option Nat :=
  ([2, 1, 0].filter (fun d => coordOf s.ownPos d != 0)).findSome? (fun d =>
    let r := s.leadStep s.ownPos d
    if s.posAbsent r.1 ∨ (s.treeLink d r.2).isNone then none else some (s.ownHitch * 64 + r.1))

/-- This device's parent in the trees of R510 and R511: a lead's is the lead of hitch PARENT, and the string root has none. -/
def State.timeParent (s : State) : Option Nat :=
  if s.isLead then
    (if s.fld .RNL_STRING 0 0 63 54 = s.ownHitch then none else some (s.fld .RNL_STRING 0 0 53 44 * 64))
  else s.linkedParent

/-- The peer of a torus port in the exchange of TIME packets (R507): the neighbour there, where one of the two may be the other's parent
in the hitch tree (R508). -/
def State.timePeer (s : State) (i : Nat) : Option Nat :=
  let dim := s.portDim i
  let dir := s.portDir i
  let c := coordOf s.ownPos dim
  let q := withCoord s.ownPos dim (if dir = 0 then (c + 1) % max 1 (s.dimSize dim) else (c + s.dimSize dim - 1) % max 1 (s.dimSize dim))
  if s.portRole i = 1 ∧ s.treeLink dim dir = some i ∧ q ≠ s.ownPos ∧ s.posNames q ∧ !s.posAbsent q
      ∧ ((c ≠ 0 ∧ s.leadStep s.ownPos dim = (q, dir)) ∨ (coordOf q dim ≠ 0 ∧ s.leadStep q dim = (s.ownPos, 1 - dir)))
  then some (s.ownHitch * 64 + q) else none

/-- The TIME packet of a port whose marker has gone out (R507, R509): the stamp of its comma's departure, the marker's SEQ and LOCKED.
DEDUCED (log 83): ADDR brings the stamp of the last comma that arrived. -/
def State.timePkt (s : State) (i dev : Nat) : ReinPkt :=
  let x := (s.port i).tx
  mkPkt dev s.devId 0 0 0 0 (BitVec.ofNat 64 (s.port i).rx.commaAt) 32
    (leBytes 8 (x.commaAt / 64) ++ leBytes 8 (x.commaAt % 64) ++ leBytes 8 ((x.marker + 65535) % 65536)
      ++ leBytes 8 (s.fld .RNL_TIME_STATUS 0 0 63 63))

/-- A marker has gone out of a port that is UP: TIME goes to the tree's device there (R507), and from a lead to the leads next to it in
the string tree whose route leaves by this port (R511). -/
def State.sendTime (s : State) (i : Nat) : State :=
  let near := match s.timePeer i with
    | some d => s.queuePkt i { typ := T_TIME, pkt := { s.timePkt i d with vc := 17 } }
    | none => s
  if s.isLead then
    (s.timeParent.toList ++ s.stringChildren).foldl (fun t d =>
      match t.nextHop t.devId d 0 0 none with
      | .out j g _ => if j = i then t.queuePkt i { typ := T_TIME, pkt := { t.timePkt i d with ghops := BitVec.ofNat 2 g, vc := 17 } } else t
      | _ => t) near
  else near

/-! ## Codes of TREE packets

R491 says that TREE carries a configuration, probe or stable-card segment beside the contributions of R513 and names no code for
them. DESIGN CHOICE (log 67): the codes below. -/

def TREE_CONTRIB : Nat := 1
def TREE_IMAGE : Nat := 2
def TREE_REPORT : Nat := 3
def TREE_PROBE : Nat := 4
def TREE_ANSWER : Nat := 5
def TREE_CARD_ASK : Nat := 6
def TREE_CARD : Nat := 7

/-! ## Responses (R269, R270, R439, R440, R491) -/

/-- A code whose record names the device in DETAIL (R321). -/
def namesDevice (code : Nat) : Bool :=
  code == E_LINK_DOWN || code == E_LINK_UNREACHABLE || code == E_LINK_RETRY || code == E_DEVICE_REMOVED || code == E_REMOTE_CORRAL

/-- A stream's request has ended: its position moves on (R256), and a stream that has met a failed translation halts when no request is
left. -/
def State.remoteSettle (s : State) (r : TrackedReq) : State :=
  if (s.cmd r.queue r.seq).isSome ∧ r.kind ≠ 0 then (s.settlePos r.queue r.seq r.ctx).remoteHalt r.queue r.seq r.ctx else s

/-- The request a response belongs to (R440): its tag is in use with the same generation. -/
def State.answered (s : State) (die tag gen : Nat) : Option TrackedReq :=
  match s.tracked die tag with
  | some r => if r.gen = gen ∧ r.remote.isSome then some r else none
  | none => none

/-- A request failed with a code (R491): a failed translation halts the stream (R269), anything else fails the command. -/
def State.reqFailed (s : State) (r : TrackedReq) (code : Nat) : State :=
  match s.cmd r.queue r.seq with
  | none => s
  | some c =>
    if c.corral ≠ r.corral ∨ c.phase ≠ .running then s
    else
      let dev := r.remote.getD 0
      if code = E_XLATE_FAULT then
        let f : RemoteFault := { pos := r.dest, va := r.addr, dev := dev, write := r.kind == T_WRITE }
        let x := s.ctx r.ctx
        s.setCtx r.ctx { x with rfault := some (match x.rfault with | some h => if h.pos ≤ f.pos then h else f | none => f)
                                sent := if f.write then min x.sent f.pos else x.sent }
      else s.failCmd c code (if namesDevice code then dev else 0) (streamStage c r.ctx)

/-- An ERROR response reaches its initiator (R491). -/
def State.errorArrive (s : State) (die tag gen code : Nat) : State :=
  match s.answered die tag gen with
  | none => s.lateRsp die tag gen
  | some r => ((s.untrack die tag).reqFailed r code).remoteSettle r

/-- The die that tracks a request: that of its SRC_ROUTER (R490). -/
def pktDie (p : ReinPkt) : Nat := routerDie p.srcRouter.toNat % 4

/-- Answer a packet with an ERROR to its SRC_DEV; at this device itself it arrives at once. -/
def State.sendError (s : State) (p : ReinPkt) (code : Nat) : State :=
  if p.src.toNat = s.devId then s.errorArrive (pktDie p) p.tag.toNat p.gen.toNat code
  else
    (s.sendPkt T_ERROR { mkPkt p.src.toNat s.devId p.corral.toNat p.tag.toNat p.gen.toNat code p.addr 0 [] with
      srcIndex := p.srcIndex, srcRouter := p.srcRouter }).1

/-! ## The end of a link (R494) -/

/-- A packet that a port discards: a REQ packet is answered with an ERROR. -/
def State.dropPkt (s : State) (p : TypedPkt) (code : Nat) : State :=
  if typeClass p.typ = some 0 then (s.accepted p).sendError p.pkt code else s.accepted p

/-- A port enters a state (R493, R515). DEDUCED (log 135): no lane is phase-locked in a state before the end of TRAINING, nor in
FAILED. -/
def State.enterState (s : State) (i st : Nat) : State :=
  let t := s.setFld .RNL_PORT_STATUS i 0 3 0 st
  if st ≤ 2 ∨ st = 7 then t.setFld .RNL_PORT_STATUS i 0 19 16 0 else t

/-- A link leaves UP (R494): 1 SIGNAL, 2 MARKERS, 3 RETRY, 4 CONFIG, 5 FREQ; `next` is the state it enters. -/
def State.linkLeaves (s : State) (i cause next : Nat) : State :=
  let k := s.port i
  let lost := (k.retry.flatMap (·.pkts)) ++ k.txq
  let s1 := ((s.enterState i next).setFld .RNL_PORT_STATUS i 0 6 4 cause).bump .RNL_CNT i 7 1
  let s2 := (s1.setPort i { k with retry := [], txq := [], partPkt := [], markers := 0, badMarkers := 0, fecLock := false,
                                   drain := false, nakSent := false, eyeRun := false, owed := []
                                   tx := LineTx.start, rx := LineRx.start }).raise0 .rnl i 0
  lost.foldl (fun t p => t.dropPkt p (if cause = 3 then E_LINK_RETRY else E_LINK_DOWN)) s2

/-- A port is enabled: EN is 1 and its role is not OFF (R493). -/
def State.portEnabled (s : State) (i : Nat) : Bool := (s.reg .RNL_PORT_CFG i 0).bit 63 && s.portRole i != 0

/-- RNL_PORT_CFG has been written, by software or by a commit that changed it (R493, R494): the link starts anew. -/
def State.portRestart (s : State) (i : Nat) : State :=
  let s1 := if s.portState i = 5 then s.linkLeaves i 4 1 else s
  let s2 := s1.setPort i { s1.port i with failures := 0, markers := 0, badMarkers := 0, fecLock := false, drain := false }
  s2.enterState i (if s2.portEnabled i then 1 else 0)

/-- A write of RNL_PORT_CFG (R494, R516). -/
def State.portCfgWrite (s : State) (i : Nat) (v : Word) : State :=
  (s.setReg .RNL_PORT_CFG i 0 (regWritten .RNL_PORT_CFG (s.reg .RNL_PORT_CFG i 0) v)).portRestart i

end Sys2Proof.Machine
end

