-- ==== Sys2Proof/Machine/CfgLoad.lean ====
section
/-!
DEFINITION. Loading configuration (R398 to R409): sources, the start of a load, acceptance, commit, failure and fallback, release and
hold, hitch loads and their reports.
-/

namespace Sys2Proof.Machine

/-! ## Small operations -/

/-- CFG_STATUS.STATE (R413): 0 UNCONFIGURED, 1 LOADING_FULL, 2 LOADING_PARTIAL, 3 CONFIGURED, 4 FALLING_BACK. -/
def State.cfgState (s : State) : Nat := s.fld .CFG_STATUS 0 0 31 29
def State.setCfgState (s : State) (v : Nat) : State := s.setFld .CFG_STATUS 0 0 31 29 v
def State.cfgError (s : State) (code : Nat) : State := s.setFld .CFG_STATUS 0 0 63 48 code

/-- The load in progress. -/
def State.setLoad (s : State) (l : Option LoadSt) : State := { s with cfg := { s.cfg with load := l } }

/-- A corral's 256-bit digest as four register words (R416). -/
def State.setDigest (s : State) (d : Nat) : State :=
  (upTo 4).foldl (fun t w => t.setReg .CFG_CONFIG_DIGEST 0 w (BitVec.ofNat 64 (d / 2 ^ (64 * w)))) s

/-- The configuration digest (R409). -/
def State.cfgDigest (s : State) : Nat :=
  (Config.shake256 (leBytes 4 (s.fld .CFG_EPOCH 0 0 31 0) ++ (upTo 256).flatMap (fun r => leBytes 32 (s.region r).digest))).toNat

/-- Once the start-up load has ended the groom is READY (R531). -/
def State.startDone (s : State) : State :=
  if s.fld .GRM_STATUS 0 0 3 0 = 3 then s.setFld .GRM_STATUS 0 0 3 0 4 else s

/-! ## Sources (R398) -/

/-- Bytes of an HBM source: up to the end of HBM or the first granule whose stack is not served (R463). -/
def State.hbmSource (s : State) (addr len : Nat) : Nat :=
  let n := min len (hbmTop - addr)
  match (upTo (cdiv (addr % 2 ^ 21 + n) (2 ^ 21))).find? (fun i => !s.hbmServed ((addr / 2 ^ 21 + i) * 2 ^ 21)) with
  | some i => min n ((addr / 2 ^ 21 + i) * 2 ^ 21 - addr)
  | none => n

/-- Bytes a source holds. -/
def State.srcLen (s : State) (l : LoadSt) : Nat :=
  match l.source with
  | .hbm => s.hbmSource l.addr l.len
  | .flashUpdate => 2 ^ 28 - 0x8000000
  | .flashFallback => 2 ^ 28
  | .reins => l.bytes.length

/-- `n` bytes of a source from an offset. -/
def State.srcBytes (s : State) (l : LoadSt) (off n : Nat) : List Byte :=
  match l.source with
  | .hbm => s.rdBytes (l.addr + off) n
  | .flashUpdate => (upTo n).map (fun i => smGet (fun _ => 0xFF) s.fuse.flash (0x8000000 + off + i))
  | .flashFallback => (upTo n).map (fun i => smGet (fun _ => 0xFF) s.fuse.flash (off + i))
  | .reins => (l.bytes.drop off).take n

/-- The units of the bytes that a load reads from a source in HBM, 512 bytes to a unit (R588). -/
def State.readSource (s : State) (l : LoadSt) (off n : Nat) : State :=
  match l.source with
  | .hbm => (unitPieces (l.addr + off) n).foldl (fun t p => t.unitAt .fetch none false p.1 p.2) s
  | _ => s

/-- An uncorrectable word in a part of an HBM source. -/
def State.srcBad (s : State) (l : LoadSt) (off n : Nat) : Option Nat :=
  match l.source with | .hbm => s.badIn (l.addr + off) n | _ => none

/-- The code of CFG_STATUS.SOURCE (R413). -/
def srcCode : LoadSource → Nat
  | .hbm => 0 | .flashUpdate => 1 | .flashFallback => 2 | .reins => 3

/-- A load that has just started. -/
def newLoad (src : LoadSource) (addr len time : Nat) (hitch asFallback atStart : Bool) : LoadSt :=
  { source := src, hitch := hitch, addr := addr, len := len, asFallback := asFallback, atStart := atStart, accepted := false, head := [],
    flist := [], key := none, bytes := [], ended := false, lastByte := time, oldEpoch := 0 }

/-- Start a load (R398). -/
def State.beginLoad (s : State) (l : LoadSt) : State :=
  (s.setLoad (some { l with oldEpoch := s.reg .CFG_EPOCH 0 0 })).setFld .CFG_STATUS 0 0 28 27 (srcCode l.source)
    |>.setReg .CFG_PROGRESS 0 0 0

/-! ## Reports of a hitch load (R406, R407) -/

/-- The report entry of a device (R407): EPOCH, CODE, STATE. -/
def reportWord (r : Nat × Nat × Nat) : Nat := r.1 % 2 ^ 32 * 2 ^ 32 + r.2.1 % 2 ^ 16 * 2 ^ 16 + r.2.2 % 4 * 2 ^ 14

/-- Reports with one state. -/
def countState (h : HitchLoad) (v : Nat) : Nat := (h.got.filter (fun e => e.2.2.2 == v)).length

/-- Write the report array and the totals when every device of the hitch has reported. -/
def State.hitchSettle (s : State) : State :=
  match s.cfg.hitch with
  | none => s
  | some h =>
    if !h.devices.all (fun d => (smFind h.got d).isSome) then s
    else
      let a := s.fld .CFG_REPORT_ADDR 0 0 56 0
      let t := (upTo h.devices.length).foldl (fun (t : State) i =>
        let p := a + 8 * i
        match smFind h.got (h.devices.getD i 0) with
        | some r => if p + 8 ≤ hbmTop ∧ p % 8 = 0 ∧ t.hbmServed p then t.wrWord p (reportWord r) else t
        | none => t) s
      let w := h.devices.length * 2 ^ 56 + countState h 0 * 2 ^ 48 + countState h 1 * 2 ^ 40 + countState h 2 * 2 ^ 32 + countState h 3 * 2 ^ 24
      let u := (t.setReg .CFG_MCAST_STATUS 0 0 (BitVec.ofNat 64 w)).setFld .CFG_STATUS 0 0 24 24 0
      { u with cfg := { u.cfg with hitch := none } }

/-- A report reaches the lead: the first one of each device counts. -/
def State.hitchReport (s : State) (dev epoch code st : Nat) : State :=
  match s.cfg.hitch with
  | none => s
  | some h =>
    if h.devices.contains dev ∧ (smFind h.got dev).isNone then
      { s with cfg := { s.cfg with hitch := some { h with got := smPut h.got dev (epoch, code, st) } } }.hitchSettle
    else s

/-- A device tells its lead how a hitch load ended: over the tree, or at once where it is the lead. -/
def State.sendReport (s : State) (l : LoadSt) (code st : Nat) : State :=
  let epoch := s.fld .CFG_EPOCH 0 0 31 0
  if l.hitch then s.hitchReport s.devId epoch code st
  else if l.source = .reins then
    s.sendTree TREE_REPORT (s.ownHitch * 64) (BitVec.ofNat 64 (reportWord (epoch, code, st))) []
  else s

/-! ## Regions held, released and shut -/

/-- Every used paddock of a list of regions returns to stage 0 at once (R366), and the words they have pushed reach their receivers (R350). -/
def State.holdRegions (s : State) (inLoad : Nat → Bool) : State :=
  let l := (upTo 256).filter (fun r => inLoad r)
  let held := l.foldl (fun (t : State) r =>
    let t1 := (t.regionPdks r).foldl (fun u p => u.pdkHold p) t
    t1.setRegion r { t1.region r with stage := 0, command := false }) s
  (l.flatMap (fun r => s.regionPdks r)).foldl (fun t p => t.landFlight p) held

/-- What a resource undergoes whose corral changed, and every stall of a loaded region (R404, steps 2 and 3). -/
def State.resetStalls (s : State) (hit : Nat → Bool) : State :=
  { s with
    acs := { s.acs with segs := (s.acs.segs.map (fun e => if hit (e.1 / 64) then (e.1, { e.2 with valid := false }) else e)).filter (fun e => e.2 != SegSt.idle) }
    seqs := s.seqs.map (fun e => if hit e.1 then (e.1, { e.2 with verified := [] }) else e) }

/-- A queue becomes DISABLED, and what waits there is dropped (R404). -/
def State.dropQueue (s : State) (q : Nat) : State :=
  let v := s.queue q
  s.setQueue q { v with phase := .disabled, waiter := none, fetched := none, held := [], inflight := 0 }

/-- The device becomes UNCONFIGURED (R402, R409). -/
def State.unconfigure (s : State) : State :=
  let s1 := s.queues.foldl (fun t e => t.dropQueue e.1) s
  let s2 := s1.resetStalls (fun _ => true)
  let s3 := s2.holdRegions (fun _ => true)
  let s4 : State := { s3 with tethers := [], cfg := { s3.cfg with live := CfgStruct.empty, regions := [], load := none } }
  (((s4.setFld .CFG_EPOCH 0 0 32 32 0).setDigest 0).setCfgState 0).startDone

/-- Start the fallback load (R402). -/
def State.startFallback (s : State) (hitch : Bool) : State :=
  let s1 := (s.setFld .CFG_STATUS 0 0 25 25 1).raise0 .cfg 0 2
  ((s1.setCfgState 4).beginLoad (newLoad .flashFallback 0 0 s.time false true hitch))

/-- A load fails (R402). The failure of a fallback image leaves the device UNCONFIGURED, whatever the image is. -/
def State.cfgFail (s : State) (l : LoadSt) (code : Nat) : State :=
  let s1 := ((s.setLoad none).cfgError code).raise .cfg 0 1 code 0xFFFF none
  if !l.accepted then
    let s2 := s1.sendReport l code 1
    if l.asFallback then s2.unconfigure else if l.atStart then s2.startFallback false else s2
  else if hdrPartial l.head ∧ !l.asFallback then
    let inLoad (r : Nat) : Bool := bitAt (hdrMask l.head) r
    let s2 := s1.holdRegions inLoad
    let s3 := (upTo 256).foldl (fun (t : State) r =>
      if inLoad r then t.setRegion r { t.region r with loading := false, quarantined := true } else t) s2
    let s4 := ((s3.setReg .CFG_EPOCH 0 0 l.oldEpoch).setCfgState (if s3.cfg.live = CfgStruct.empty ∧ !l.oldEpoch.bit 32 then 0 else 3))
    (s4.raise .cfg 0 3 code 0xFFFF none).sendReport l code 1
  else
    let s2 : State := { s1 with cfg := { s1.cfg with regions := s1.cfg.regions.map (fun e => (e.1, { e.2 with loading := false })) } }
    let s3 := s2.sendReport l code 1
    if l.asFallback ∨ l.source = .flashFallback then s3.unconfigure else s3.startFallback false

/-! ## CFG_LOAD (R398, R399, R415) -/

/-- A load is refused (R399). -/
def State.refuseLoad (s : State) : State := (s.bump .CFG_REFUSED_COUNT 0 0 1).raise0 .cfg 0 4

/-- Bytes the lead reads of an image whose header it has (R406). -/
def imageLen (h : List Byte) (have_ : Nat) : Nat := if have_ < 512 then have_ else min have_ (hdrTotal h)

/-- Bytes of a source before the first uncorrectable word in its first `n`: what a device can read of it. -/
def State.srcReadable (s : State) (l : LoadSt) (n : Nat) : Nat :=
  match l.source with
  | .hbm => s.bad.foldl (fun m w => if w < l.addr + n ∧ l.addr < w + 32 then min m (w - l.addr) else m) n
  | _ => n

/-- Send the bytes of an image to the children of this device, in order, 512 bytes to a packet; bit 63 of the address word marks the last
packet of an image that was read whole. -/
def State.sendImage (s : State) (bs : List Byte) (whole : Bool) : State :=
  let n := max 1 (cdiv bs.length 512)
  s.treeChildren.foldl (fun t d =>
    (upTo n).foldl (fun (u : State) i =>
      u.sendTree TREE_IMAGE d (BitVec.ofNat 64 (512 * i + (if i + 1 = n ∧ whole then 2 ^ 63 else 0))) ((bs.drop (512 * i)).take 512)) t) s

/-- A write of CFG_LOAD (R398, R399, R406, R415). -/
def State.cfgLoad (s : State) (v : Word) : State :=
  let src : LoadSource := match v.fld 59 58 with | 0 => .hbm | 1 => .flashUpdate | _ => .flashFallback
  let hitch := v.fld 57 56 == 1
  if woReserved .CFG_LOAD v then s
  else if s.cfg.load.isSome then s.refuseLoad
  else if hitch ∧ !s.isLead then s.cfgError E_CFG_ROLE
  else if src = .hbm ∧ s.fld .CFG_LOAD_ADDR 0 0 56 0 % 512 ≠ 0 then s.cfgError E_OPERAND_ALIGN
  else
    let l := newLoad src (s.fld .CFG_LOAD_ADDR 0 0 56 0) (s.reg .CFG_LOAD_LEN 0 0).toNat s.time hitch false false
    let s1 := s.beginLoad l
    if !hitch then s1
    else
      let devs := s.hitchDevices
      let s2 : State := { s1 with cfg := { s1.cfg with hitch := some { devices := devs, got := [], since := s.time } } }
      let s3 := (s2.setReg .CFG_MCAST_STATUS 0 0 (BitVec.ofNat 64 (devs.length * 2 ^ 56 + 1))).setFld .CFG_STATUS 0 0 24 24 1
      let n := imageLen (s.srcBytes l 0 512) (s.srcLen l)
      let k := s.srcReadable l n
      s3.sendImage (s.srcBytes l 0 k) (k == n)

/-- Image bytes over the reins (R399, R403, R406): they go on to this device's children, and into its load. -/
def State.imageArrive (s : State) (a : Word) (bs : List Byte) : State :=
  let off := a.fld 62 0
  let s1 := s.treeChildren.foldl (fun t d => t.sendTree TREE_IMAGE d a bs) s
  let s2 :=
    if off = 0 then
      match s1.cfg.load with
      | some _ => s1.refuseLoad.sendReport (newLoad .reins 0 0 s.time false false false) 0 2
      | none => s1.beginLoad (newLoad .reins 0 0 s.time false false false)
    else s1
  match s2.cfg.load with
  | some l =>
    if l.source = .reins ∧ off = l.bytes.length ∧ !l.ended ∧ (off ≠ 0 ∨ s1.cfg.load.isNone) then
      s2.setLoad (some { l with bytes := l.bytes ++ bs, ended := a.bit 63, lastByte := s.time })
    else s2
  | none => s2

/-! ## CFG_HEADER_ACCEPT (R400, R401) -/

/-- Enabled queues stop when a full image is accepted (R401). -/
def State.stopAll (s : State) : State :=
  s.queues.foldl (fun (t : State) e =>
    if e.2.phase = .enabled ∨ e.2.phase = .disabling then
      (t.setQueue e.1 { t.queue e.1 with phase := .enabled }).stopQueue e.1 E_CFG_QUARANTINE
    else t) s

/-- The corrals that own a stall or paddock of a target region. -/
def State.corralsIn (s : State) (inLoad : Nat → Bool) : List Nat :=
  (upTo 256).filter (fun c => (s.owned .stall c).any (fun i => inLoad (s.stallRegion i))
    || (s.owned .paddock c).any (fun i => inLoad (s.pdkRegion i)))

/-- Waiting commands that name a shut resource are rejected at their quarantine check (R401, R640). -/
def State.rejectShut (s : State) : State :=
  s.queues.foldl (fun (t : State) e =>
    match (t.queue e.1).waiter with
    | none => t
    | some w =>
      match t.admission (t.queueCorral e.1) e.1 (t.queue e.1).admitIx w.desc with
      | .reject r stage => if r.code = E_CFG_QUARANTINE then t.rejectHead e.1 w.desc r.code r.detail stage else t
      | _ => t) s

/-- The effects of acceptance (R401). -/
def State.acceptLoad (s : State) (l : LoadSt) : State :=
  let part := hdrPartial l.head
  let inLoad (r : Nat) : Bool := !part || bitAt (hdrMask l.head) r
  let busy := sortAsc (s.cmds.map (·.corral))
  let hit := if part then (s.corralsIn inLoad).filter (fun c => busy.contains c) else busy
  let s1 := s.holdRegions inLoad
  let s2 := (upTo 256).foldl (fun (t : State) r => if inLoad r then t.setRegion r { t.region r with loading := true } else t) s1
  let s3 := hit.foldl (fun (t : State) c => t.fault c E_CFG_QUARANTINE 0xFFFF none []) s2
  let s4 := if part then s3.rejectShut else s3.stopAll
  let s5 := (s4.setFld .CFG_EPOCH 0 0 32 32 0).setFld .CFG_STATUS 0 0 26 26 (b2n part)
  let s6 := if l.asFallback then s5 else s5.setCfgState (if part then 2 else 1)
  s6.setLoad (some { l with accepted := true })

/-- CFG_HEADER_ACCEPT: the header and frame list are read and checked (R400), and the image is accepted (R401) or the load ends. A
stream over the reins that has not brought them yet waits. -/
def State.headerRow (s : State) : State :=
  match s.cfg.load with
  | none => s
  | some l =>
    let n := s.srcLen l
    let more := l.source = .reins ∧ !l.ended
    let s1 := s.readSource l 0 (min n 512)
    if l.accepted then s
    else if n < 512 then (if more then s else s1.cfgFail l E_CFG_TRUNCATED)
    else
      let h := s.srcBytes l 0 512
      match s.srcBad l 0 512, hdrCheck1 h with
      | some w, _ => (s1.logUncorr 5 w).cfgFail l E_HBM_UNCORR
      | none, some e => s1.cfgFail l e
      | none, none =>
        let k := hdrList h
        let s2 := s1.readSource l 512 (min (n - 512) k)
        if n < 512 + k then (if more then s else s2.cfgFail l E_CFG_TRUNCATED)
        else
          let fl := s.srcBytes l 512 k
          match s.srcBad l 512 k, s.hdrChecks h fl with
          | some w, _ => (s2.logUncorr 5 w).cfgFail l E_HBM_UNCORR
          | none, some e => s2.cfgFail l e
          | none, none =>
            let key := if !hdrEncrypted h then none else if hdrSession h then s.groom.sessionKey else s.fuse.imageKey
            let l1 := { l with head := h, flist := fl, key := key }
            let s3 := (s2.acceptLoad l1).setReg .CFG_PROGRESS 0 0 (BitVec.ofNat 64 (512 + k))
            if n < hdrTotal h ∧ !more then s3.cfgFail { l1 with accepted := true } E_CFG_TRUNCATED else s3

/-! ## CFG_COMMIT (R395 to R397, R404) -/

/-- The contents of a physical location move when the hash masks that map addresses to it change (R451, R452): the address at which
a byte stands under new masks. -/
def remapAddr (old new : List Nat) (pa : Nat) : Nat :=
  if hbmTop ≤ pa then pa
  else
    let rest := pa - bitsOf pa 23 10 * 2 ^ 10
    rest + ((upTo 14).map (fun f =>
      let bit := parity (Nat.land pa (old.getD f 0))
      (bit + parity (Nat.land rest (new.getD f 0))) % 2 * 2 ^ (10 + f))).foldl (· + ·) 0

/-- Re-map memory after a commit that changed the masks. -/
def State.remapHbm (s : State) (old new : List Nat) : State :=
  if old = new then s
  else
    let undef := s.hbm.undef.map (fun u => { u with masks := [11, 12, 13].map (fun f => new.getD f 0) })
    let d := memDefault undef
    { s with
      mem := s.mem.foldl (fun m c => smSet d m (remapAddr old new c.1) c.2) []
      bad := s.bad.map (remapAddr old new)
      hbm := { s.hbm with undef := undef, soft := s.hbm.soft.map (remapAddr old new) } }

/-- The current hash masks. -/
def State.hashMasks (s : State) : List Nat := (upTo 14).map (fun f => (s.reg .HBM_HASH 0 f).toNat)

/-- The plaintext body of an image and whether its tag holds (R391): an image whose key is absent holds no valid tag. -/
def imageBody (l : LoadSt) (cipher tag : List Byte) : List Byte × Bool :=
  if !hdrEncrypted l.head then (cipher, true)
  else
    match l.key with
    | none => ([], false)
    | some k =>
      let aad := l.head ++ l.flist
      (Config.gcmPlain k (hdrNonce l.head) aad cipher, (Config.gcmOpen k (hdrNonce l.head) aad cipher tag).isSome)

/-- Where a frame's RAM contents lie in the paddock's RAM slot, if it holds any (R385). -/
def ramPart (f : Nat) : Option (Nat × Nat × Nat) :=
  let j := bitsOf f 8 0 % 8
  if bitsOf f 29 28 = 0 ∧ 3 ≤ j then
    some (f / 2 ^ 30 * 2304 + bitsOf f 27 22 * 64 + bitsOf f 8 0 / 8, 1024 * (j - 3), if j = 7 then 512 else 1024)
  else none

/-- Frames written by an image stand in configuration memory and in paddock RAM. -/
def State.framesIn (s : State) (g : Staged) : State :=
  let s1 : State := { s with cfg := { s.cfg with frames := g.frames } }
  g.wrote.foldr (fun f (t : State) =>
    match ramPart f with
    | some (p, off, n) => t.wr (pdkRamAddr p off) ((upTo (n / 8)).flatMap (fun i => leBytes 8 (fmWord g.frames f i)))
    | none => t) s1

/-- The structure an image is staged from (R394). -/
def State.stageBase (s : State) (l : LoadSt) : CfgStruct :=
  if hdrPartial l.head then
    let c := s.cfg.live
    let gone := ((upTo 9216).filter (fun p => bitAt (hdrMask l.head) (regionIn (pdkFrame p) c.regions))).filterMap (fun p => groupNo p c.groups)
    { c with groups := c.groups.filter (fun r => !gone.contains r.group), regs := [] }
  else CfgStruct.empty

/-- REG writes take effect in image order, on registers at their reset values (R394, R404). RNL_IDENT keeps what it holds where no
REG names it. -/
def State.applyRegs (s : State) (regs : List (Nat × Word)) : State :=
  let s1 : State := { s with regs := s.regs.filter (fun e =>
    match regAt e.1 with | some p => !isCfgReg p.reg || p.reg == .RNL_IDENT | none => true) }
  regs.foldl (fun t e =>
    match regAt e.1 with
    | some p => t.setReg p.reg p.inst p.idx (cfgWritten p.reg (t.reg p.reg p.inst p.idx) e.2)
    | none => t) s1

/-- LEAD follows ROLE and the strap (R499). -/
def State.settleRole (s : State) : State :=
  let role := s.fld .RNL_IDENT 0 0 38 37
  s.setFld .RNL_IDENT 0 0 36 36 (b2n (role == 1 || (role == 0 && s.pwr.roleLead)))

/-- A device whose enumerated position differs from the image's (R500). -/
def State.positionDiffers (s t : State) : Bool :=
  (s.rein.numbered || (s.isLead && s.dimSize 0 != 0))
    && (t.fld .RNL_IDENT 0 0 53 48 != s.fld .RNL_IDENT 0 0 53 48)

/-- Some resource of a kind whose corral changed (R404). -/
def State.moved (s t : State) (k : OwnKind) (i : Nat) : Bool := s.owner k i != t.owner k i

/-- The committed structure takes effect (R404). -/
def State.commitLoad (s : State) (l : LoadSt) (g : Staged) (digest : Nat) : State :=
  let part := hdrPartial l.head
  let inLoad (r : Nat) : Bool := !part || bitAt (hdrMask l.head) r
  -- 1: structure and REG writes
  let s1 : State := { s with cfg := { s.cfg with live := { g.st with regs := [] } } }
  let s2 := if part then s1 else (s1.applyRegs g.st.regs).settleRole
  let s3 := s2.remapHbm s.hashMasks s2.hashMasks
  let s4 : State := if part then s3 else { s3 with hbm := { s3.hbm with ctrls := s3.hbm.ctrls.map (fun e =>
    (e.1, { e.2 with read := 0, write := 0, remote := 0 })) } }
  let s5 := (upTo 16).foldl (fun (t : State) i => if s.reg .RNL_PORT_CFG i 0 = t.reg .RNL_PORT_CFG i 0 then t else t.portRestart i) s4
  -- 2: stalls, tethers and queues
  let s6 := s5.resetStalls (fun st => s.moved s5 .stall st || inLoad (s5.stallRegion st))
  let s7 : State := { s6 with tethers := s6.tethers.filter (fun e => !s.moved s6 .tether e.1) }
  -- 3: every queue after a full image
  let s8 := s7.queues.foldl (fun (t : State) e => if !part || s.moved s7 .queue e.1 then t.dropQueue e.1 else t) s7
  -- 4: epoch and digests
  let s9 := (upTo 256).foldl (fun (t : State) r =>
    if inLoad r then
      t.setRegion r { t.region r with loading := false, quarantined := false, digest := digest, epoch := hdrEpoch l.head,
                                      loadedAt := s.time, command := hdrAuto l.head, stage := 0 }
    else t) s8
  let s10 := s9.setReg .CFG_EPOCH 0 0 (BitVec.ofNat 64 (2 ^ 32 + hdrEpoch l.head))
  let s11 := (s10.setDigest s10.cfgDigest).cfgError 0
  -- 5: the event, and what the paddocks of a loaded region hold in stage 0
  let s12 := (upTo 256).foldl (fun (t : State) r => if inLoad r then (t.regionPdks r).foldl (fun u p => u.pdkHold p) t else t) s11
  let s13 := (s12.setCfgState 3).raise0 .cfg 0 0
  let s14 := if part ∨ l.asFallback then s13 else s13.setFld .CFG_STATUS 0 0 25 25 0
  (s14.setLoad none).startDone

/-- Some discard that acceptance began still runs, or work it discards is left. -/
def State.loadBusy (s : State) (l : LoadSt) : Bool :=
  if hdrPartial l.head then
    (s.corralsIn (fun r => bitAt (hdrMask l.head) r)).any (fun c => (s.discard c).isSome)
  else !s.cmds.isEmpty || s.svc.discards.any (fun e => e.2.isSome)

/-- CFG_COMMIT: the body is processed word by word and the image commits at END, or the load fails (R395 to R397, R402 to R404). -/
def State.commitRow (s0 : State) : State :=
  match s0.cfg.load with
  | none => s0
  | some l =>
    let h := l.head
    let off := 512 + hdrList h
    let n := s0.srcLen l
    let s := s0.readSource l off (min n (hdrTotal h) - off)
    if !l.accepted ∨ s0.loadBusy l then s0
    else if n < hdrTotal h then (if l.source = .reins ∧ !l.ended then s0 else s.cfgFail l E_CFG_TRUNCATED)
    else
      match s0.srcBad l off (hdrTotal h - off) with
      | some w => (s.logUncorr 5 w).cfgFail l E_HBM_UNCORR
      | none =>
        let cipher := s0.srcBytes l off (hdrBody h)
        let b := imageBody l cipher (s0.srcBytes l (off + hdrBody h) 16)
        let words := (upTo (hdrBody h / 8)).map (fun i => wordAt b.1 (8 * i))
        let part := hdrPartial h
        let base : Staged := { st := s.stageBase l, frames := s.cfg.frames, wrote := [], inFrames := false }
        let r := if hdrEncrypted h && l.key.isNone then (base, some E_CFG_DIGEST)
          else runBody (if part then some (hdrMask h) else none) (if part then some (listEntries h l.flist) else none)
            (words.length + 1) false base words
        let s1 := (s.framesIn r.1).setReg .CFG_PROGRESS 0 0 (BitVec.ofNat 64 (hdrTotal h))
        let inLoad (f : Nat) : Bool := !part || bitAt (hdrMask h) (regionIn f r.1.st.regions)
        -- the registers and structure as they would stand, for the checks of END
        let t0 : State := { s1 with cfg := { s1.cfg with live := r.1.st } }
        let t := if part then t0 else (t0.applyRegs r.1.st.regs).settleRole
        match r.2 with
        | some e => s1.cfgFail l e
        | none =>
          match endCheck r.1.st r.1.frames inLoad with
          | some e => s1.cfgFail l e
          | none =>
            if !part ∧ !t.flowsOk then s1.cfgFail l E_CFG_OWNERSHIP
            else if !part ∧ s.positionDiffers t then s1.cfgFail l E_CFG_ROLE
            else if (Config.shake256 b.1).toNat ≠ hdrDigest h ∨ !b.2 then s1.cfgFail l E_CFG_DIGEST
            else
              -- a device reports before it applies any RNL_ register (R406)
              let e := s1.fld .CFG_EPOCH 0 0 31 0
              let s2 := (s1.setFld .CFG_EPOCH 0 0 31 0 (hdrEpoch h)).sendReport l 0 0
              (s2.setFld .CFG_EPOCH 0 0 31 0 e).commitLoad l r.1 (hdrDigest h)

/-! ## Timeouts and reports -/

/-- CFG_STREAM_TIMEOUT: an image over the reins has delivered no byte for CFG_TRUNC_MS (R400, R403). -/
def State.streamTimeout (s : State) : State :=
  match s.cfg.load with
  | some l =>
    if l.source = .reins ∧ l.lastByte + s.fld .CFG_TRUNC_MS 0 0 31 0 * 1000000 ≤ s.time
        ∧ (l.bytes.length < 512 ∨ l.bytes.length < hdrTotal (l.bytes.take 512)) then s.cfgFail l E_CFG_TRUNCATED
    else s
  | none => s

/-- CFG_REPORT_TIMEOUT: a device of the hitch has not reported within the initiator timeout of its path (R407). EPOCH and CODE of its
entry are free values: the spec gives none for NO_RESPONSE. -/
def State.reportTimeout (s : State) (dev : Nat) : State :=
  match s.cfg.hitch with
  | some h =>
    if h.devices.contains dev ∧ (smFind h.got dev).isNone ∧ dev ≠ s.devId ∧ h.since + s.nocTimeout 0 true ≤ s.time then
      let d := s.draw
      d.2.hitchReport dev (d.1.fld 31 0) (d.1.fld 47 32) 3
    else s
  | none => s

/-! ## Release and hold (R365, R405) -/

/-- A write of CFG_RELEASE with OP RELEASE. -/
def State.releaseRegion (s : State) (r : Nat) : State :=
  let x := s.region r
  if s.cfgState = 0 ∨ x.stage ≠ 0 ∨ x.quarantined ∨ x.loading then s else s.setRegion r { x with command := true }

/-- A write of CFG_RELEASE with OP HOLD. -/
def State.holdRegion (s : State) (r : Nat) : State :=
  if (s.region r).stage = 0 then s else s.holdRegions (· == r)

/-- A write of CFG_RELEASE (R405, R415). -/
def State.cfgRelease (s : State) (v : Word) : State :=
  match v.fld 63 62 with
  | 1 => s.releaseRegion (v.fld 7 0)
  | 2 => s.holdRegion (v.fld 7 0)
  | _ => s

/-- Wait A of a region's release is over (R365, step 2). -/
def State.waitA (s : State) (r : Nat) : State :=
  let x := s.region r
  let p := smGet (fun _ => RParam.dflt) s.cfg.live.rparams r
  if x.stage = 0 ∧ x.command ∧ !x.loading ∧ !x.quarantined ∧ x.loadedAt + p.waitA ≤ s.time then
    let s1 := (s.releasedPdks r).foldl (fun t q => t.pdkOutputs q) s
    s1.setRegion r { x with stage := 1, stageAt := s.time }
  else s

/-- Wait B of a region's release is over (R365, step 3). -/
def State.waitB (s : State) (r : Nat) : State :=
  let x := s.region r
  let p := smGet (fun _ => RParam.dflt) s.cfg.live.rparams r
  if x.stage = 1 ∧ x.stageAt + p.waitB ≤ s.time then
    let s1 := (s.releasedPdks r).foldl (fun t q => t.pdkWrites q) s
    (s1.setRegion r { x with stage := 2, stageAt := s.time }).regionRun r
  else s

/-! ## The rows -/

/-- CFG_LOAD (R398). -/
def execCfgLoad (value : Word) (s : State) : Host.Outcome State Fault Refusal :=
  s.live (s.cfgLoad value)

/-- CFG_HEADER_ACCEPT (R401). -/
def execCfgHeaderAccept (s : State) : Host.Outcome State Fault Refusal :=
  s.live s.headerRow

/-- CFG_COMMIT (R404). -/
def execCfgCommit (s : State) : Host.Outcome State Fault Refusal :=
  s.live s.commitRow

/-- CFG_STREAM_TIMEOUT (R403). -/
def execCfgStreamTimeout (s : State) : Host.Outcome State Fault Refusal :=
  s.live s.streamTimeout

/-- CFG_LOAD_REPORT (R407). -/
def execCfgLoadReport (dev : BitVec 16) (epoch : BitVec 32) (code : BitVec 16) (state : BitVec 2) (s : State) :
    Host.Outcome State Fault Refusal :=
  let t := s.hitchReport dev.toNat epoch.toNat code.toNat state.toNat
  s.live { s with cfg := t.cfg, regs := t.regs, mem := t.mem, bad := t.bad }

/-- CFG_REPORT_TIMEOUT (R407). -/
def execCfgReportTimeout (dev : BitVec 16) (s : State) : Host.Outcome State Fault Refusal :=
  let t := s.reportTimeout dev.toNat
  s.live { s with cfg := t.cfg, regs := t.regs, mem := t.mem, bad := t.bad, draws := t.draws }

/-- CFG_RELEASE (R405). -/
def execCfgRelease (region : BitVec 8) (s : State) : Host.Outcome State Fault Refusal :=
  s.live { s with cfg := (s.releaseRegion region.toNat).cfg }

/-- CFG_HOLD (R405). -/
def execCfgHold (region : BitVec 8) (s : State) : Host.Outcome State Fault Refusal :=
  let t := s.holdRegion region.toNat
  s.live { s with cfg := t.cfg, pdks := t.pdks, regs := t.regs, svc := t.svc, mem := t.mem, bad := t.bad }

/-- RELEASE_WAIT_A_EXPIRY (R365). -/
def execReleaseWaitAExpiry (region : BitVec 8) (s : State) : Host.Outcome State Fault Refusal :=
  let t := s.waitA region.toNat
  s.live { s with cfg := t.cfg, pdks := t.pdks }

/-- RELEASE_WAIT_B_EXPIRY (R365). -/
def execReleaseWaitBExpiry (region : BitVec 8) (s : State) : Host.Outcome State Fault Refusal :=
  let t := s.waitB region.toNat
  s.live { s with cfg := t.cfg, pdks := t.pdks, draws := t.draws }

end Sys2Proof.Machine
end

