-- ==== Sys2Proof/Machine/CfgProbe.lean ====
section
/-!
DEFINITION. Consistency probes (R410, R411, R417).
-/

namespace Sys2Proof.Machine

/-- The lesser of two optional device IDs. -/
def optMin (a b : Option Nat) : Option Nat :=
  match a, b with | some x, some y => some (min x y) | some x, none => some x | none, y => y

/-- Exact sums and minima (R411). -/
def ProbeSum.plus (a b : ProbeSum) : ProbeSum :=
  { matched := a.matched + b.matched, mismatch := a.mismatch + b.mismatch, loading := a.loading + b.loading
    missing := a.missing + b.missing, firstMismatch := optMin a.firstMismatch b.firstMismatch
    firstMissing := optMin a.firstMissing b.firstMissing }

/-- The configuration digest registers as one number. -/
def State.ownDigest (s : State) : Nat := ((upTo 4).map (fun w => (s.reg .CFG_CONFIG_DIGEST 0 w).toNat * 2 ^ (64 * w))).foldl (· + ·) 0

/-- The expected digest registers as one number. -/
def State.wantDigest (s : State) : Nat := ((upTo 4).map (fun w => (s.reg .CFG_CONSIST_EXPECT 0 w).toNat * 2 ^ (64 * w))).foldl (· + ·) 0

/-- This device's answer to a probe (R410): 0 none, as its ID is outside the range, 1 LOADING, 2 MATCH, 3 MISMATCH. -/
def State.probeAnswer (s : State) (p : ProbeSt) : Nat :=
  if s.devId < p.first ∨ p.last < s.devId then 0
  else if !(s.reg .CFG_EPOCH 0 0).bit 32 then 1
  else if s.fld .CFG_EPOCH 0 0 31 0 = p.expEpoch ∧ s.ownDigest = p.expDigest then 2
  else 3

/-- An answer as a sum. -/
def answerSum (dev a : Nat) : ProbeSum :=
  match a with
  | 1 => { ProbeSum.zero with loading := 1 }
  | 2 => { ProbeSum.zero with matched := 1 }
  | 3 => { ProbeSum.zero with mismatch := 1, firstMismatch := some dev }
  | _ => ProbeSum.zero

/-- The payload of a probe on the tree. DESIGN CHOICE (log 67): the spec gives no layout. -/
def probeWords (p : ProbeSt) : List Word :=
  [BitVec.ofNat 64 (p.seq % 2 ^ 16 + p.scope * 2 ^ 16), BitVec.ofNat 64 (p.first + p.last * 2 ^ 16 + p.expEpoch * 2 ^ 32)]
    ++ (upTo 4).map (fun w => BitVec.ofNat 64 (p.expDigest / 2 ^ (64 * w)))

/-- The payload of an answer on the tree. DESIGN CHOICE (log 67): the spec gives no layout. -/
def sumWords (a : ProbeSum) : List Word :=
  let o (x : Option Nat) : Nat := match x with | some d => 2 ^ 16 + d % 2 ^ 16 | none => 0
  [BitVec.ofNat 64 (a.mismatch % 2 ^ 32 * 2 ^ 32 + a.matched % 2 ^ 32), BitVec.ofNat 64 (a.missing % 2 ^ 32 * 2 ^ 32 + a.loading % 2 ^ 32),
   BitVec.ofNat 64 (o a.firstMissing * 2 ^ 32 + o a.firstMismatch)]

/-- The results of a probe led here (R411, R417). -/
def State.probeResults (s : State) (a : ProbeSum) : State :=
  let w := sumWords a
  let r2 := (((((0 : Word).put 33 33 (b2n a.firstMissing.isSome)).put 32 32 (b2n a.firstMismatch.isSome)).put 31 16 (a.firstMissing.getD 0)).put
    15 0 (a.firstMismatch.getD 0))
  let s1 := ((s.setReg .CFG_CONSIST_RESULT0 0 0 (w.getD 0 0)).setReg .CFG_CONSIST_RESULT1 0 0 (w.getD 1 0)).setReg .CFG_CONSIST_RESULT2 0 0 r2
  let s2 := (s1.setFld .CFG_CONSIST_STATUS 0 0 63 48 (s1.fld .CFG_CONSIST_STATUS 0 0 63 48 + 1)).setFld .CFG_CONSIST_STATUS 0 0 0 0 0
  if a.mismatch ≠ 0 ∨ a.missing ≠ 0 then s2.raise0 .cfg 0 5 else s2

/-- Probes whose children have all answered go on: to the parent, or into the registers of the lead. -/
def State.probeSettle (s : State) : State :=
  let done := s.cfg.probes.filter (fun p => p.waiting.isEmpty)
  let s1 : State := { s with cfg := { s.cfg with probes := s.cfg.probes.filter (fun p => !p.waiting.isEmpty) } }
  done.foldl (fun t p =>
    if p.led then t.probeResults p.sum else t.sendTree TREE_ANSWER p.parent 0 (wordsBytes (sumWords p.sum))) s1

/-- Take part in a probe: answer for this device, and pass it to every tree neighbour but the one it came from. -/
def State.joinProbe (s : State) (p : ProbeSt) : State :=
  let up := if s.fld .RNL_STRING 0 0 53 44 = s.ownHitch then [] else [s.fld .RNL_STRING 0 0 53 44 * 64]
  let next := (s.treeChildren ++ (if s.isLead ∧ p.scope = 1 then up ++ s.stringChildren else [])).filter (fun d => d != p.parent || p.led)
  let a := s.probeAnswer p
  let s1 := if a = 3 then s.raise0 .cfg 0 6 else s
  let s2 := next.foldl (fun t d => t.sendTree TREE_PROBE d 0 (wordsBytes (probeWords p))) s1
  { s2 with cfg := { s2.cfg with probes := s2.cfg.probes ++ [{ p with waiting := next, sum := answerSum s.devId a }] } }.probeSettle

/-- A lead starts a probe (R410). -/
def State.startProbe (s : State) (scope : Nat) (own : Bool) : State :=
  if (s.reg .CFG_CONSIST_STATUS 0 0).bit 0 then s
  else
    let s1 := s.setReg .CFG_CONSIST_STATUS 0 0 (((s.reg .CFG_CONSIST_STATUS 0 0).put 31 16 0).put 0 0 1)
    s1.joinProbe
      { seq := s.fld .CFG_CONSIST_STATUS 0 0 63 48 + 1, scope := scope, first := s.fld .CFG_CONSIST_RANGE 0 0 15 0
        last := s.fld .CFG_CONSIST_RANGE 0 0 31 16
        expEpoch := if own then s.fld .CFG_EPOCH 0 0 31 0 else s.fld .CFG_CONSIST_EPOCH 0 0 31 0
        expDigest := if own then s.ownDigest else s.wantDigest
        led := true, parent := s.devId, waiting := [], sum := ProbeSum.zero, since := s.time }

/-- A write of CFG_CONSIST_CTL (R410, R417). -/
def State.consistWrite (s : State) (v : Word) : State :=
  if v.fld 63 62 ≠ 1 ∨ 2 ≤ v.fld 61 60 then s
  else if !s.isLead then s.setFld .CFG_CONSIST_STATUS 0 0 31 16 E_CFG_ROLE
  else s.startProbe (v.fld 61 60) (v.bit 59)

/-- A probe arrives over the tree. -/
def State.probeArrive (s : State) (src : Nat) (bs : List Byte) : State :=
  let w0 := wordAt bs 0
  let w1 := wordAt bs 8
  s.joinProbe
    { seq := bitsOf w0 15 0, scope := bitsOf w0 17 16, first := bitsOf w1 15 0, last := bitsOf w1 31 16, expEpoch := bitsOf w1 63 32
      expDigest := leNat ((bs.drop 16).take 32), led := false, parent := src, waiting := [], sum := ProbeSum.zero, since := s.time }

/-- A neighbour's result comes in, or is given up as missing: the first probe that waits for it takes it. -/
def addAnswer (dev : Nat) (a : ProbeSum) : List ProbeSt → List ProbeSt
  | [] => []
  | p :: t =>
    if p.waiting.contains dev then { p with waiting := p.waiting.erase dev, sum := p.sum.plus a } :: t else p :: addAnswer dev a t

/-- The answer of a child. -/
def State.answerArrive (s : State) (dev : Nat) (a : ProbeSum) : State :=
  { s with cfg := { s.cfg with probes := addAnswer dev a s.cfg.probes } }.probeSettle

/-- A payload of TREE_ANSWER as a sum. -/
def sumOf (bs : List Byte) : ProbeSum :=
  let o (v : Nat) : Option Nat := if bitAt v 16 then some (bitsOf v 15 0) else none
  { matched := bitsOf (wordAt bs 0) 31 0, mismatch := bitsOf (wordAt bs 0) 63 32, loading := bitsOf (wordAt bs 8) 31 0
    missing := bitsOf (wordAt bs 8) 63 32, firstMismatch := o (bitsOf (wordAt bs 16) 31 0), firstMissing := o (bitsOf (wordAt bs 16) 63 32) }

/-- A child has not answered within the initiator timeout of its path (R410): it is recorded MISSING where the probe's range
holds it. -/
def State.answerTimeout (s : State) (dev : Nat) : State :=
  match s.cfg.probes.find? (fun p => p.waiting.contains dev) with
  | some p =>
    if p.since + s.nocTimeout 0 true ≤ s.time then
      s.answerArrive dev (if p.first ≤ dev ∧ dev ≤ p.last then { ProbeSum.zero with missing := 1, firstMissing := some dev } else ProbeSum.zero)
    else s
  | none => s

/-- A period of CFG_CONSIST_PERIOD has passed on a lead (R410). SCOPE and USE_OWN of the probe it runs are free values: the spec names
no source for them. -/
def State.periodProbe (s : State) : State :=
  let ms := s.fld .CFG_CONSIST_PERIOD 0 0 31 0
  if !s.isLead ∨ ms = 0 ∨ s.time < s.cfg.probeAt + ms * 1000000 then s
  else
    let d := s.draw
    let t : State := { d.2 with cfg := { d.2.cfg with probeAt := s.time } }
    t.startProbe (b2n (d.1.bit 0)) (d.1.bit 1)

/-- CONSIST_PROBE (R410). -/
def execConsistProbe (value : Word) (s : State) : Host.Outcome State Fault Refusal :=
  let t := s.consistWrite value
  s.live { s with cfg := t.cfg, regs := t.regs, svc := t.svc, rein := t.rein, sent := t.sent }

/-- CONSIST_PERIOD_EXPIRY (R410). -/
def execConsistPeriodExpiry (s : State) : Host.Outcome State Fault Refusal :=
  let t := s.periodProbe
  s.live { s with cfg := t.cfg, regs := t.regs, svc := t.svc, rein := t.rein, sent := t.sent, draws := t.draws }

/-- CONSIST_PROBE_ANSWER (R411). -/
def execConsistProbeAnswer (child : BitVec 16) (matched mismatch loading missing : BitVec 32) (firstMismatch firstMissing : Option (BitVec 16))
    (s : State) : Host.Outcome State Fault Refusal :=
  let t := s.answerArrive child.toNat
    { matched := matched.toNat, mismatch := mismatch.toNat, loading := loading.toNat, missing := missing.toNat
      firstMismatch := firstMismatch.map (·.toNat), firstMissing := firstMissing.map (·.toNat) }
  s.live { s with cfg := t.cfg, regs := t.regs, svc := t.svc, rein := t.rein, sent := t.sent }

/-- CONSIST_ANSWER_TIMEOUT (R410). -/
def execConsistAnswerTimeout (child : BitVec 16) (s : State) : Host.Outcome State Fault Refusal :=
  let t := s.answerTimeout child.toNat
  s.live { s with cfg := t.cfg, regs := t.regs, svc := t.svc, rein := t.rein, sent := t.sent }

end Sys2Proof.Machine
end

