-- ==== Sys2Proof/Machine/Hbm.lean ====
section
/-!
DEFINITION. The HBM subsystem (chapter 13): controller positions, refresh, self-refresh, scrub, training and maintenance.
-/

namespace Sys2Proof.Machine

/-- Move a stack to a state (R463, R467). -/
def State.setStack (s : State) (st v : Nat) : State := s.setFld .HBM_STATUS st 0 2 0 v

/-! ## Self-refresh (R458, R462) -/

/-- SELF_REFRESH_ENTRY (R458). -/
def State.srEnter (s : State) (st pc : Nat) : State :=
  let g := 32 * st + pc
  let p := s.pch g
  let idle := s.fld .HBM_SR_IDLE st pc 19 0
  let waits := (s.ctrl st (pc / 2)).waiting.any (fun u => s.pcOf u.addr.toNat == g)
  let state := s.stackState st
  if idle = 0 ∨ p.inSr ∨ p.waking ∨ waits ∨ s.time < p.usedAt + idle * 1000 ∨ !(state == 2 || state == 3 || state == 4) then s
  else
    let s1 := (s.setPch g { p with inSr := true }).setFld .HBM_SR_STATE st 0 pc pc 1
    if (s.reg .HBM_SCRUB_CFG 0 0).bit 31 then s1.setFld .HBM_SCRUB_STATUS st 0 pc pc 1 else s1

/-- SCRUB_DEFER_WAKE (R462). -/
def State.scrubWake (s : State) (st pc : Nat) : State :=
  let p := s.pch (32 * st + pc)
  if p.inSr ∧ (s.reg .HBM_SCRUB_CFG 0 0).bit 31 ∧ p.walkedAt + s.fld .HBM_SCRUB_CFG 0 0 63 32 * 10 ^ 9 ≤ s.time then
    s.srExit (32 * st + pc) true
  else s

/-! ## Scrub (R459, R461) -/

/-- The physical address of unit `i` of a pseudo-channel, units in ascending address order (R451, R452). -/
def State.unitAddr (s : State) (g i : Nat) : Nat :=
  let row := i / 128
  let free := row * 2 ^ 24 + i / 2 % 64 * 2 ^ 15 + i % 2 * 2 ^ 9
  let want (f : Nat) : Nat := if f = 0 then g % 2 else if f < 5 then bitOf (g / 2) (f - 1) else bitOf (g / 32) (f - 11)
  [0, 1, 2, 3, 4, 11, 12, 13].foldl (fun a f =>
    a + (want f + parity (Nat.land (row * 2 ^ 24) (s.reg .HBM_HASH 0 f).toNat)) % 2 * 2 ^ (10 + f)) free
where
  /-- Bit `n` of a number as a number. -/
  bitOf (v n : Nat) : Nat := v / 2 ^ n % 2

/-- One ECC word read by scrub: a corrected one is rewritten, an uncorrectable one logged (R459 to R461). -/
def State.scrubWord (s : State) (st w : Nat) : State :=
  if s.bad.contains w then s.logUncorr 3 w
  else if s.hbm.soft.contains w then
    ({ s with hbm := { s.hbm with soft := s.hbm.soft.erase w } }.bump .HBM_CNT st 5 1).raise0 .hbm st 0
  else s

/-- The scrub read that has fallen due takes its position (R461): the controller reads the next unit of one of its pseudo-channels. -/
def State.scrubTake (s : State) (st c : Nat) : State :=
  let k := s.ctrl st c
  let g0 := 32 * st + 2 * c + b2n k.scrubLow
  let g1 := 32 * st + 2 * c + b2n (!k.scrubLow)
  let g := if (s.pch g0).inSr then g1 else g0
  if (s.pch g).inSr then s.setCtrl st c { k with scrubDue := none }
  else
    let p := s.pch g
    let a := s.unitAddr g p.walk
    let s1 := (s.setCtrl st c { k with scrubDue := none, scrubLow := g % 2 == 0 }).bump .HBM_CNT st 8 1
    let s2 := (upTo 16).foldl (fun t i => t.scrubWord st (a + 32 * i)) s1
    if p.walk + 1 = 4194304 then
      (s2.setPch g { p with walk := 0, walkedAt := s.time, waking := false }).setFld .HBM_SCRUB_STATUS st 0 63 32
        (s.fld .HBM_SCRUB_STATUS st 0 63 32 + 1)
    else s2.setPch g { p with walk := p.walk + 1 }

/-- HBM_SCRUB_READ (R461): a scrub read falls due. It takes a position that no class claims at once, and waits for one while units
wait. -/
def State.scrubRead (s : State) (st c : Nat) : State :=
  let k := s.ctrl st c
  let cfg := s.reg .HBM_SCRUB_CFG 0 0
  let state := s.stackState st
  let asleep := (s.pch (32 * st + 2 * c)).inSr && (s.pch (32 * st + 2 * c + 1)).inSr
  if !cfg.bit 31 ∨ state < 2 ∨ 5 < state ∨ s.time < k.scrubAt + cfg.fld 19 0 * 1000 ∨ asleep then s
  else
    let s1 := s.setCtrl st c { k with scrubAt := s.time, scrubDue := some (k.scrubDue.getD s.time) }
    if k.waiting.isEmpty then s1.scrubTake st c else s1

/-! ## Positions (R455, R456, R264) -/

/-- The credits at a position: every class gains its share and the largest pays 20 (R455). -/
def takeTurn (k : CtrlSt) (r w x : Nat) : UnitClass × CtrlSt :=
  let a := k.read + (r : Int)
  let b := k.write + (w : Int)
  let d := k.remote + (x : Int)
  if b ≤ a ∧ d ≤ a then (.read, { k with read := a - 20, write := b, remote := d })
  else if d ≤ b then (.write, { k with read := a, write := b - 20, remote := d })
  else (.remote, { k with read := a, write := b, remote := d - 20 })

/-- The first unit of a class that can be served: its bank is not under refresh, and no unit that came before it touches its ECC
word (R264, R456). -/
def State.firstServable (s : State) (cls : UnitClass) (before : List HbmUnit) : List HbmUnit → Option HbmUnit
  | [] => none
  | u :: t =>
    let pa := u.addr.toNat
    if u.cls = cls ∧ !s.bankBusy (s.pcOf pa) (s.bankOf pa) ∧ !before.any (fun v => v.addr.toNat / 32 == pa / 32) then some u
    else s.firstServable cls (u :: before) t

/-- Serve a unit: it is counted by its class (R472). -/
def State.serveUnit (s : State) (st c : Nat) (u : HbmUnit) : State :=
  let k := s.ctrl st c
  let n := match u.cls with | .read => 0 | .write => 1 | .remote => 2
  let s1 := (s.setCtrl st c { k with waiting := k.waiting.erase u }).bump .HBM_CNT st n 1
  if u.partialWord && u.cls != .read then s1.bump .HBM_CNT st 3 1 else s1

/-- Refreshes of a controller's banks end with the position. -/
def State.endRefresh (s : State) (st c : Nat) : State :=
  { s with hbm := { s.hbm with busy := s.hbm.busy.filter (fun e => e.1 / 128 != 16 * st + c) } }

/-- A scrub read has waited 100 intervals: it takes the position from its class (R264, R461). -/
def State.scrubForced (s : State) (k : CtrlSt) : Bool :=
  match k.scrubDue with
  | some t => decide (t + s.fld .HBM_SCRUB_CFG 0 0 19 0 * 100000 ≤ s.time)
  | none => false

/-- A position that no class takes: a scrub read that waits takes it (R461); else a strict split leaves it unused (R472). -/
def State.idlePosition (s : State) (st c : Nat) (strict : Bool) : State :=
  if (s.ctrl st c).scrubDue.isSome then s.scrubTake st c else if strict then s.bump .HBM_CNT st 4 1 else s

/-- HBM_POSITION_SERVE (R455, R264): a position of a controller, after the units that have arrived. -/
def State.servePosition (s : State) (st c : Nat) (arrived : List HbmUnit) : State :=
  let s1 := arrived.foldl (fun t u => t.arriveUnit st c u) s
  if s1.stackState st ≠ 2 ∧ s1.stackState st ≠ 3 then s1
  else
    let w := s1.reg .HBM_SPLIT 0 0
    let t := takeTurn (s1.ctrl st c) (w.fld 20 16) (w.fld 12 8) (w.fld 4 0)
    let s2 := s1.setCtrl st c t.2
    let l := t.2.waiting
    let s3 :=
      if s2.scrubForced t.2 then s2.scrubTake st c
      else
        match s2.firstServable t.1 [] l with
        | some u => s2.serveUnit st c u
        | none =>
          if w.bit 32 then s2.idlePosition st c true
          else
            match [UnitClass.read, .write, .remote].findSome? (fun k => s2.firstServable k [] l) with
            | some u => (s2.bump .HBM_CNT st 4 1).serveUnit st c u
            | none => s2.idlePosition st c false
    s3.endRefresh st c

/-- An uncorrectable error in a controller's request buffers (R35, R598): a fault of every corral with a request there, of queue
0xFFFF; the requests are gone. -/
def State.spoilBuffers (s : State) (st c : Nat) : State :=
  let k := s.ctrl st c
  let l := (upTo 256).filter (fun n => k.waiting.any (fun u => u.corral == some (BitVec.ofNat 8 n)))
  l.foldl (fun t n => t.fault n E_HBM_UNCORR 0xFFFF none []) (s.setCtrl st c { k with waiting := [] })

/-- An error in an ECC word of a controller's memory (R459): a word with one bit in error is corrected when it is read; with more, or a
second one, it is uncorrectable. -/
def State.upsetWord (s : State) (st c w : Nat) (lost : Bool) : State :=
  if s.stackOf w ≠ st ∨ s.ctrlOf w ≠ c ∨ s.stackState st < 2 ∨ s.bad.contains w then s
  else if lost ∨ s.hbm.soft.contains w then
    { s with bad := w :: s.bad, hbm := { s.hbm with soft := s.hbm.soft.erase w } }
  else { s with hbm := { s.hbm with soft := w :: s.hbm.soft } }

/-- BANK_REFRESH (R457): a bank whose interval has passed is refreshed. -/
def State.refreshBank (s : State) (st pc bank : Nat) : State :=
  let g := 32 * st + pc
  let k := g * 64 + bank
  let gap := if (s.reg .HBM_STATUS st 0).bit 8 then 1950 else 3900
  let state := s.stackState st
  if 2 ≤ state ∧ state ≤ 5 ∧ !(s.pch g).inSr ∧ smGet (fun _ => 0) s.hbm.refreshed k + gap ≤ s.time then
    { s with hbm := { s.hbm with refreshed := smSet (fun _ => 0) s.hbm.refreshed k s.time
                                 busy := smSet (fun _ => false) s.hbm.busy k true } }
  else s

/-! ## Temperature (R457, R467) -/

/-- HBM_TEMP_HOT: the stack rises above 85 °C. -/
def State.tempHot (s : State) (st temp : Nat) : State :=
  if temp ≤ 85 then s
  else
    let s1 := s.setFld .HBM_STATUS st 0 23 16 temp
    if (s.reg .HBM_STATUS st 0).bit 8 then s1 else (s1.setFld .HBM_STATUS st 0 8 8 1).raise0 .hbm st 2

/-- HBM_HOT_CLEAR: the stack falls to 85 °C or below. -/
def State.tempCool (s : State) (st temp : Nat) : State :=
  if temp ≤ 85 then (s.setFld .HBM_STATUS st 0 23 16 temp).setFld .HBM_STATUS st 0 8 8 0 else s

/-! ## Training and maintenance (R463 to R465) -/

/-- A stack fails (R464, R637): its contents are undefined, and some of its words, by a free value, read as uncorrectable. -/
def State.failStack (s : State) (st : Nat) : State :=
  let u : UndefMem := { stack := st, draw := s.draws, masks := [11, 12, 13].map (fun f => (s.reg .HBM_HASH 0 f).toNat) }
  let s1 : State :=
    { s with draws := s.draws + 1, mem := s.mem.filter (fun c => !u.covers c.1)
             bad := s.bad.filter (fun w => !u.covers w) ++ (Config.undefinedWords s.draws).filter (fun w => u.covers w && w % 32 == 0)
             hbm := { s.hbm with undef := u :: s.hbm.undef, soft := s.hbm.soft.filter (fun w => !u.covers w) } }
  (s1.setStack st 6).raise0 .hbm st 4

/-- Start-up training of every stack ends (R464). -/
def State.trainStacks (s : State) (failed : Nat) : State :=
  (upTo 8).foldl (fun t st =>
    if t.stackState st ≠ 1 then t else if bitAt failed st then t.failStack st else t.setStack st 2) s

/-- Some byte of `[a, a + n)` lies in a stack (R453: granules lie whole in one). -/
def State.rangeInStack (s : State) (st a n : Nat) : Bool :=
  n != 0 && (upTo ((a + n - 1) / 2 ^ 21 - a / 2 ^ 21 + 1)).any (fun i => s.stackOf ((a / 2 ^ 21 + i) * 2 ^ 21) == st)

/-- Valid translation roots. -/
def State.rootTables (s : State) : List Nat :=
  ((upTo 256).map (fun c => s.reg .HST_XLATE_ROOT 0 c) ++ [s.reg .HST_XLATE_ROOT_PRIV 0 0]).filterMap (fun r =>
    if r.bit 0 then some (r.fld 56 12 * 4096) else none)

/-- A table that keeps a stack from being fenced lies in it (R465, R599). -/
def State.fenceBlocked (s : State) (st : Nat) : Bool :=
  s.rangeInStack st (s.fld .HST_QTABLE_BASE 0 0 56 12 * 4096) 0x480000
    || s.rangeInStack st (s.fld .HST_QP_TABLE_BASE 0 0 56 12 * 4096) 0x80000
    || s.rangeInStack st (s.fld .HST_MR_TABLE_BASE 0 0 56 12 * 4096) 0x20000
    || s.rootTables.any (fun a => s.rangeInStack st a 4096)
    || (match s.cfg.load with | some l => l.source == .hbm && s.rangeInStack st l.addr l.len | none => false)

/-- Operations of a stack that wait or run. -/
def State.maintQ (s : State) (st : Nat) : List Nat := smGet (fun _ => []) s.hbm.maint st

/-- Replace them. -/
def State.setMaintQ (s : State) (st : Nat) (l : List Nat) : State :=
  { s with hbm := { s.hbm with maint := smSet (fun _ => []) s.hbm.maint st l } }

/-- An operation of HBM_MAINT has completed: with its ERROR, and the event of a successful one (R465, R468). -/
def State.maintDone (s : State) (st error : Nat) : State :=
  let w := s.reg .HBM_MAINT_STATUS st 0
  let s1 := s.setReg .HBM_MAINT_STATUS st 0 ((w.put 47 32 (w.fld 47 32 + 1)).put 31 16 error)
  if error = 0 then s1.raise0 .hbm st 3 else s1

/-- Begin the operations of a stack's queue in order until one goes on for a while (R465). During a handover they wait (R540). -/
def State.maintRun (s : State) (st : Nat) : List Nat → State
  | [] => s.setMaintQ st []
  | op :: t =>
    let state := s.stackState st
    if s.fld .GRM_STATUS 0 0 3 0 = 5 then s.setMaintQ st (op :: t)
    else if op = 1 ∧ state = 2 ∧ !s.fenceBlocked st then (s.setStack st 3).setMaintQ st (op :: t)
    else if op = 2 ∧ state = 4 then ((s.setStack st 2).maintDone st 0).maintRun st t
    else if op = 3 ∧ (state = 4 ∨ state = 6) ∧ (s.reg .GRM_FEATURES_ACTIVE 0 0).bit 5 then
      (((upTo 32).foldl (fun a p => a.srExit (32 * st + p) false) s).setStack st 5).setMaintQ st (op :: t)
    else (s.maintDone st E_FIELD_RANGE).maintRun st t

/-- An operation is written (R465, R471). -/
def State.maintOp (s : State) (st op : Nat) : State :=
  let s1 := s.setFld .HBM_MAINT_STATUS st 0 63 48 (s.fld .HBM_MAINT_STATUS st 0 63 48 + 1)
  match s1.maintQ st with
  | [] => s1.maintRun st [op]
  | l => s1.setMaintQ st (l ++ [op])

/-- A write of HBM_MAINT (R471): a reserved OP is ignored. -/
def State.maintWrite (s : State) (st : Nat) (v : Word) : State :=
  let op := v.fld 63 60
  if 1 ≤ op ∧ op ≤ 3 then s.maintOp st op else s

/-- The units accepted before the fence have completed (R465). -/
def State.fenceDone (s : State) (st : Nat) : State :=
  match s.maintQ st with
  | 1 :: t =>
    if s.stackState st = 3 ∧ (upTo 16).all (fun c => (s.ctrl st c).waiting.isEmpty) then
      ((s.setStack st 4).maintDone st 0).maintRun st t
    else s
  | _ => s

/-- Retraining ends (R465). -/
def State.retrainDone (s : State) (st : Nat) (ok : Bool) : State :=
  match s.maintQ st with
  | 3 :: t =>
    if s.stackState st = 5 then
      (if ok then (s.setStack st 4).maintDone st 0 else (s.failStack st).maintDone st 0).maintRun st t
    else s
  | _ => s

/-! ## The rows -/

/-- HBM_POSITION_SERVE (R455), or an error at the controller: in its request buffers (R598), in its memory (R459), or one that the stack
has corrected (R472). -/
def execHbmPositionServe (stack : Fin 8) (ctrl : Fin 16) (pos : HbmPosition) (s : State) : Host.Outcome State Fault Refusal :=
  let t := match pos with
    | .serve arrived => s.servePosition stack.val ctrl.val arrived
    | .spoiled => s.spoilBuffers stack.val ctrl.val
    | .upset word lost => s.upsetWord stack.val ctrl.val (word.toNat * 32) lost
    | .stackFixed => s.bump .HBM_CNT stack.val 6 1
  s.live { s with hbm := t.hbm, regs := t.regs, svc := t.svc, cmds := t.cmds, bad := t.bad }

/-- SELF_REFRESH_ENTRY (R458). -/
def execSelfRefreshEntry (stack : Fin 8) (pc : Fin 32) (s : State) : Host.Outcome State Fault Refusal :=
  let t := s.srEnter stack.val pc.val
  s.live { s with hbm := t.hbm, regs := t.regs }

/-- BANK_REFRESH (R457). -/
def execBankRefresh (stack : Fin 8) (pc : Fin 32) (bank : Fin 64) (s : State) : Host.Outcome State Fault Refusal :=
  s.live { s with hbm := (s.refreshBank stack.val pc.val bank.val).hbm }

/-- HBM_SCRUB_READ (R461). -/
def execHbmScrubRead (stack : Fin 8) (ctrl : Fin 16) (s : State) : Host.Outcome State Fault Refusal :=
  let t := s.scrubRead stack.val ctrl.val
  s.live { s with hbm := t.hbm, regs := t.regs, svc := t.svc }

/-- SCRUB_DEFER_WAKE (R462). -/
def execScrubDeferWake (stack : Fin 8) (pc : Fin 32) (s : State) : Host.Outcome State Fault Refusal :=
  let t := s.scrubWake stack.val pc.val
  s.live { s with hbm := t.hbm, regs := t.regs }

/-- HBM_TEMP_HOT (R457). -/
def execHbmTempHot (stack : Fin 8) (temp : BitVec 8) (s : State) : Host.Outcome State Fault Refusal :=
  let t := s.tempHot stack.val temp.toNat
  s.live { s with regs := t.regs, svc := t.svc }

/-- HBM_HOT_CLEAR (R457). -/
def execHbmHotClear (stack : Fin 8) (temp : BitVec 8) (s : State) : Host.Outcome State Fault Refusal :=
  s.live { s with regs := (s.tempCool stack.val temp.toNat).regs }

/-- HBM_FENCE (R465). -/
def execHbmFence (stack : Fin 8) (s : State) : Host.Outcome State Fault Refusal :=
  s.live (s.maintOp stack.val 1)

/-- HBM_UNFENCE (R465). -/
def execHbmUnfence (stack : Fin 8) (s : State) : Host.Outcome State Fault Refusal :=
  s.live (s.maintOp stack.val 2)

/-- HBM_RETRAIN (R465). -/
def execHbmRetrain (stack : Fin 8) (s : State) : Host.Outcome State Fault Refusal :=
  s.live (s.maintOp stack.val 3)

/-- HBM_FENCE_COMPLETE (R465). -/
def execHbmFenceComplete (stack : Fin 8) (s : State) : Host.Outcome State Fault Refusal :=
  s.live (s.fenceDone stack.val)

/-- HBM_RETRAIN_COMPLETE (R465). -/
def execHbmRetrainComplete (stack : Fin 8) (ok : Bool) (s : State) : Host.Outcome State Fault Refusal :=
  s.live (s.retrainDone stack.val ok)

end Sys2Proof.Machine
end

