-- ==== Sys2Proof/Machine/Groom.lean ====
section
/-!
DEFINITION. The groom complex (chapter 15): start-up and boot, firmware image checks, features, requests, handover, groom faults, and
event records (R599).
-/

namespace Sys2Proof.Machine

/-! ## Phase -/

/-- GRM_STATUS.PHASE (R552): 0 ROM, 1 BOOT_WAIT, 2 CHECKING, 3 INIT, 4 READY, 5 HANDOVER, 6 RESTART. -/
def State.grmPhase (s : State) : Nat := s.fld .GRM_STATUS 0 0 3 0
def State.setPhase (s : State) (p : Nat) : State := s.setFld .GRM_STATUS 0 0 3 0 p

/-- GRM_STATUS.CORES (R552). -/
def State.setCores (s : State) (c : Nat) : State := s.setFld .GRM_STATUS 0 0 15 12 c

/-- GRM_BOOT_STATUS.STATE and REASON (R552). -/
def State.bootState (s : State) (st reason : Nat) : State :=
  (s.setFld .GRM_BOOT_STATUS 0 0 63 56 st).setFld .GRM_BOOT_STATUS 0 0 55 48 reason

/-- The groom firmware runs: it has been started, and has not been stopped by a fault that was not restarted. -/
def State.firmwareRuns (s : State) : Bool := decide (3 ≤ s.grmPhase) && s.groom.image.isSome

/-- Milliseconds in nanoseconds. -/
def ms (n : Nat) : Nat := n * 1000000

/-! ## The boot ROM (R525, R526) -/

/-- The interface identifier of the modified EUI-64 rule, RFC 4291 (R525). -/
def eui64 (mac : Nat) : Nat :=
  (bitsOf mac 47 24 * 2 ^ 40 + 0xFFFE * 2 ^ 24 + bitsOf mac 23 0) ^^^ 2 ^ 57

/-- The boot ROM starts on core 0 and configures HP0 (R525, R531 step 2). -/
def State.romStart (s : State) : State :=
  let s1 := (s.setPhase 1).setCores 1
  let s2 := (s1.setFld .HST_PORT_STATUS 0 0 7 7 1).setFld .HST_PORT_STATUS 0 0 5 4 1
  let s3 := (s2.setFld .HST_IPV4 0 0 32 32 0).setReg .HST_IPV6_HI 0 0 0xFE80000000000000
  let s4 := s3.setReg .HST_IPV6_LO 0 0 (BitVec.ofNat 64 (eui64 (s3.fld .HST_MAC 0 0 47 0)))
  { s4 with groom := { s4.groom with bootAt := s4.time, phyAt := s4.time } }

/-- HP0 is in boot mode (R525). -/
def State.bootMode (s : State) : Bool := (s.reg .HST_PORT_STATUS 0 0).bit 7

/-- A host port's LINK_UP (R328). -/
def State.linkUp (s : State) (p : Nat) : Bool := (s.reg .HST_PORT_STATUS p 0).bit 0

/-- The boot ROM tries the other attachment (R525). -/
def State.phyAlternate (s : State) : State :=
  if s.bootMode ∧ !s.linkUp 0 ∧ !s.groom.viaLead ∧ s.groom.phyAt + ms 200 ≤ s.time then
    let t := s.setFld .HST_PORT_STATUS 0 0 5 4 (3 - s.fld .HST_PORT_STATUS 0 0 5 4)
    { t with groom := { t.groom with phyAt := t.time } }
  else s

/-- Enabled rein ports that are OFF start training: those of a reset role TORUS, or all (R493, R526). -/
def State.portsUp (s : State) (torusOnly : Bool) : State :=
  (upTo 16).foldl (fun t i =>
    if t.portState i = 0 ∧ t.portEnabled i ∧ (!torusOnly ∨ (portRoleReset i).1 = 1) then t.setFld .RNL_PORT_STATUS i 0 3 0 1 else t) s

/-- The device boots through its lead (R526); a lead boots only over its own HP0. -/
def State.bootViaLead (s : State) : State :=
  if s.grmPhase = 1 ∧ s.bootMode ∧ !s.linkUp 0 ∧ !s.groom.viaLead ∧ !s.pwr.roleLead ∧ s.groom.bootAt + ms 500 ≤ s.time then
    let t := (s.setFld .HST_PORT_STATUS 0 0 5 4 0).portsUp true
    { t with groom := { t.groom with viaLead := true } }
  else s

/-! ## The firmware image (R528, R529) -/

/-- Bytes of the groom SRAM. -/
def State.sramBytes (s : State) (off n : Nat) : List Byte := (upTo n).map (fun i => smGet (fun _ => 0) s.groom.sram (off + i))

/-- Write bytes of the groom SRAM. -/
def sramWrite (m : SMap Byte) (off : Nat) : List Byte → SMap Byte
  | [] => m
  | b :: t => sramWrite (smSet (fun _ => 0) m off b) (off + 1) t

def State.setSram (s : State) (off : Nat) (bs : List Byte) : State :=
  { s with groom := { s.groom with sram := sramWrite s.groom.sram off bs } }

/-- BODY_LEN of an image header, and whether it is in range (R528). -/
def imgBody (h : List Byte) : Nat := hdrNat h 28 4
def imgBodyOk (h : List Byte) : Bool := imgBody h % 8 == 0 && decide (8 ≤ imgBody h) && decide (imgBody h ≤ 1834496)

/-- The whole image in the code area: as long as its header says, at most the code area. -/
def imgTake (read : Nat → List Byte) : List Byte :=
  let h := read 512
  if imgBodyOk h then read (512 + imgBody h) else h

/-- The image in the code area. -/
def State.codeImage (s : State) : List Byte := imgTake (s.sramBytes 0)

/-- The vendor slot that a signer key matches: provisioned and not revoked (R529, R545). -/
def FuseSt.vendorSlot (f : FuseSt) (key : List Byte) : Option Nat :=
  let d := (Config.shake256 key).toNat
  if f.vendor0.st = .provisioned ∧ f.vendor0.hash = d then some 0
  else if f.vendor1.st = .provisioned ∧ f.vendor1.hash = d then some 1
  else none

/-- ASCII text as bytes. -/
def ascii (t : String) : List Byte := t.toList.map (fun c => BitVec.ofNat 8 c.toNat)

/-- The checks of R529 in order: the REASON of the first failure. `goLen` is the image length of the GO. -/
def imageReason (f : FuseSt) (img : List Byte) (goLen : Nat) : Option Nat :=
  let zero (o n : Nat) : Bool := ((img.drop o).take n).all (fun b => b == 0)
  let key := (img.drop 80).take 57
  if hdrNat img 0 4 ≠ 0x6F729A1C ∨ !zero 137 7 ∨ !zero 258 254 ∨ !imgBodyOk img ∨ hdrNat img 40 8 / 2 ^ 10 ≠ 0 then some 1
  else if goLen ≠ 512 + imgBody img then some 3
  else if hdrNat img 4 2 ≠ 1 ∨ hdrNat img 6 2 ≠ 0 then some 2
  else if bitsOf (hdrNat img 20 4) 27 0 ≠ bitsOf 0x1307296B 27 0 ∨ !bitAt (hdrNat img 24 2) 1 ∨ hdrNat img 26 2 ≠ 0x71 then some 8
  else if (f.vendorSlot key).isNone then some 4
  else if !Config.ed448Verify key (ascii "TQ-GROOM") (img.take 144) ((img.drop 144).take 114) then some 5
  else if (Config.shake256 (img.drop 512)).toNat ≠ hdrNat img 48 32 then some 6
  else if hdrNat img 16 4 < f.svnMin then some 7
  else none

/-- The firmware digest (R528). -/
def fwDigest (img : List Byte) : Nat := (Config.shake256 img).toNat

/-- What the SEC engine records of an image (R529). -/
def imageRecord (f : FuseSt) (img : List Byte) : ImageRec :=
  { digest := fwDigest img, version := BitVec.ofNat 64 (hdrNat img 8 8), svn := hdrNat img 16 4,
    features := BitVec.ofNat 64 (hdrNat img 40 8), slot := (f.vendorSlot ((img.drop 80).take 57)).getD 0, len := img.length,
    entry := hdrNat img 32 8 }

/-- GRM_FEATURES_ACTIVE is recomputed (R534). -/
def State.featuresActive (s : State) : State :=
  let v := s.reg .GRM_FW_FEATURES 0 0 &&& s.reg .GRM_DRV_FEATURES 0 0
  if v = s.reg .GRM_FEATURES_ACTIVE 0 0 then s else (s.setReg .GRM_FEATURES_ACTIVE 0 0 v).raise0 .grm 0 4

/-- The SEC engine records the image that starts (R529, R532, R540). -/
def State.recordImage (s : State) (r : ImageRec) : State :=
  let s1 := ((s.setReg .GRM_FW_VERSION 0 0 r.version).setReg .GRM_FW_SVN 0 0 (BitVec.ofNat 64 (r.svn % 256))).setReg
    .GRM_FW_FEATURES 0 0 r.features
  let s2 := (upTo 4).foldl (fun t w => t.setReg .GRM_FW_DIGEST 0 w (BitVec.ofNat 64 (r.digest / 2 ^ (64 * w)))) s1
  ({ s2 with groom := { s2.groom with image := some r, beatAt := s2.time } } : State).featuresActive

/-! ## Start of the firmware (R530, R531) -/

/-- Memory region 0 (R301, R530): PHYSICAL over the whole device physical space, READ and WRITE, locked to HP0's bootstrap queue
pair. -/
def regionZero : List Word :=
  [BitVec.ofNat 64 (2 ^ 62 + 2 ^ 61 + 2 ^ 60 + 2 ^ 59 + 0xF1A50), 0, BitVec.ofNat 64 (2 ^ 57), BitVec.ofNat 64 (2 ^ 63)]

/-- Operations of HBM_MAINT that waited for firmware go on (R540). -/
def State.maintResume (s : State) : State :=
  (upTo 8).foldl (fun t st =>
    match t.maintQ st with
    | [] => t
    | op :: l =>
      if (op = 1 ∧ t.stackState st = 3) ∨ (op = 3 ∧ t.stackState st = 5) then t else t.maintRun st (op :: l)) s

/-- A restarted or newly started firmware goes on where R531 stands: training, the start-up load, READY. -/
def State.startGoesOn (s : State) : State :=
  let s1 := s.setPhase 3
  if (upTo 8).any (fun st => s1.stackState st == 1) then s1
  else if !s1.groom.loadStarted then
    let s2 : State := { s1 with groom := { s1.groom with loadStarted := true } }
    s2.beginLoad (newLoad .flashUpdate 0 0 s2.time false false true)
  else if s1.cfg.load.any (fun l => l.atStart) then s1
  else (s1.setPhase 4).maintResume

/-- The cores start at ENTRY after the checks of R529, and the firmware begins (R530, R531 steps 5 to 7). -/
def State.firmwareStart (s : State) (r : ImageRec) : State :=
  let s1 := ((s.recordImage r).bootState 2 0).setCores 15
  let s2 : State := { s1 with mrs := smSet (fun _ => none) s1.mrs 0 (some regionZero) }
  let s3 := (s2.setFld .HST_PORT_STATUS 0 0 7 7 0).setPhase 3
  let s4 := (upTo 8).foldl (fun t st => if t.stackState st = 0 then t.setStack st 1 else t) s3
  (s4.portsUp false).startGoesOn

/-- ATTEMPTS counts GO writes modulo 2^16 (R552). -/
def State.bumpAttempts (s : State) : State := s.setFld .GRM_BOOT_STATUS 0 0 47 32 (s.fld .GRM_BOOT_STATUS 0 0 47 32 + 1)

/-- A write of BOOT_GO (R527, R529). -/
def State.bootGo (s : State) (v : Word) : State :=
  if s.grmPhase ≠ 1 ∨ v.fld 63 56 ≠ 1 then s
  else
    let t := ((s.setFld .GRM_BOOT_STATUS 0 0 63 56 1).bumpAttempts).setPhase 2
    { t with groom := { t.groom with goLen := v.fld 31 0 } }

/-- The checks of the image end (R529). -/
def State.bootChecked (s : State) : State :=
  if s.grmPhase ≠ 2 then s
  else
    let img := s.codeImage
    match imageReason s.fuse img s.groom.goLen with
    | some r => (s.bootState 3 r).setPhase 1
    | none => s.firmwareStart (imageRecord s.fuse img)

/-- Start-up training of the stacks ends (R464); the start-up load begins (R398, R531). -/
def State.trainingDone (s : State) (failed : Nat) : State :=
  if s.grmPhase = 3 ∧ (upTo 8).any (fun st => s.stackState st == 1) then (s.trainStacks failed).startGoesOn else s

/-- A write of GRM_DRV_FEATURES (R534). -/
def State.drvFeatures (s : State) (v : Word) : State :=
  (s.setReg .GRM_DRV_FEATURES 0 0 (regWritten .GRM_DRV_FEATURES (s.reg .GRM_DRV_FEATURES 0 0) v)).featuresActive

/-! ## Requests (R535 to R537) -/

/-- Payload length of a request's OP (R536). -/
def reqLen (op : Nat) : Option Nat :=
  match op with
  | 1 => some 64 | 2 => some 0 | 3 => some 64 | 4 => some 120 | 5 => some 16 | 6 => some 40 | _ => none

/-- The feature that governs an OP (R533). -/
def reqFeature (op : Nat) : Nat :=
  match op with
  | 1 => 0 | 2 => 1 | 3 => 2 | 4 => 2 | 5 => 3 | _ => 4

/-- Reserved bits of a payload that are not zero (R536, R547, R548). -/
def reqReserved (op : Nat) (p : List Byte) : Bool :=
  match op with
  | 4 => hdrNat p 68 4 != 0
  | 5 => hdrNat p 0 8 / 2 ^ 57 != 0
  | 6 => bitsOf (hdrNat p 0 8) 47 32 != 0 || !decide (1 ≤ hdrNat p 0 8 / 2 ^ 56 ∧ hdrNat p 0 8 / 2 ^ 56 ≤ 5)
  | _ => false

/-- A range of HBM lies wholly in ONLINE stacks (R538). -/
def State.allOnline (s : State) (a n : Nat) : Bool :=
  decide (a + n ≤ hbmTop) && s.hbmSource a n == n

/-- The checks of a request when it is written: 0, or its RESULT (R536 to R538). DESIGN CHOICE (log 87): in the order of the codes. -/
def State.reqVerdict (s : State) (op len : Nat) (reserved : Bool) (p : List Byte) : Nat :=
  let a := hdrNat p 0 8 % 2 ^ 57
  if reqLen op ≠ some len ∨ reserved ∨ reqReserved op p ∨ (op = 5 ∧ (a % 512 ≠ 0 ∨ !s.allOnline a (hdrNat p 8 8))) then 1
  else if !s.feature (reqFeature op) then 2
  else if op = 5 ∧ (s.groom.hand.isSome ∨ (upTo 8).any (fun st => s.stackState st == 5)) then 3
  else 0

/-- BUSY (R535). -/
def State.grmBusy (s : State) : Bool := (s.reg .GRM_REQ_STATUS 0 0).bit 63

/-- Bytes of the mailbox from byte 0. -/
def State.mailbox (s : State) (words : Nat) : List Byte := (upTo words).flatMap (fun n => leBytes 8 (s.reg .GRM_MBOX 0 n).toNat)

/-- A write of GRM_REQ (R535). -/
def State.grmReq (s : State) (v : Word) : State :=
  if s.grmBusy ∨ s.grmPhase ≠ 4 then s.raise0 .grm 0 0
  else
    let op := v.fld 63 56
    let p := s.mailbox 16
    let r : GrmReq := { op := op, seq := v.fld 47 32, verdict := s.reqVerdict op (v.fld 31 0) (v.fld 55 48 != 0) p,
                        payload := p }
    let h : Option Handover :=
      if op = 5 ∧ r.verdict = 0 then
        some { addr := hdrNat p 0 8, len := hdrNat p 8 8, step := .checking, digest := 0, since := s.time }
      else s.groom.hand
    let t := s.setFld .GRM_REQ_STATUS 0 0 63 63 1
    { t with groom := { t.groom with req := some r, hand := h } }

/-- A request word of an OP. -/
def reqWord (op : Nat) (seq : BitVec 16) (len : BitVec 32) : Word := BitVec.ofNat 64 (op * 2 ^ 56 + seq.toNat * 2 ^ 32 + len.toNat)

/-- The firmware answers a request (R535): the response, GRM_REQ_STATUS and REQ_DONE. -/
def State.finishReq (s : State) (r : GrmReq) (result : Nat) (resp : List Byte) : State :=
  let s1 := (upTo ((resp.length + 7) / 8)).foldl (fun t n => t.setReg .GRM_MBOX 0 n (BitVec.ofNat 64 (wordAt resp (8 * n)))) s
  let s2 := s1.setReg .GRM_REQ_STATUS 0 0 (BitVec.ofNat 64 (result % 256 * 2 ^ 48 + r.seq % 2 ^ 16 * 2 ^ 32 + resp.length % 2 ^ 32))
  ({ s2 with groom := { s2.groom with req := none, hand := none } } : State).raise0 .grm 0 1

/-! ## Keys, fuses, identity (R545 to R550) -/

/-- State of a slot as two bits (R550). -/
def slotBits (k : KeySlot) : Nat :=
  match k.st with | .empty => 0 | .provisioned => 1 | .revoked => 2

/-- Report bytes 192 and 193 (R550). -/
def FuseSt.ownerBits (f : FuseSt) : Nat :=
  slotBits f.owner0 + 4 * slotBits f.owner1 + 16 * slotBits f.owner2 + 64 * slotBits f.owner3
def FuseSt.vendorBits (f : FuseSt) : Nat := slotBits f.vendor0 + 4 * slotBits f.vendor1

/-- The fuse digest (R546). DESIGN CHOICE (log 89): the serial as 8 bytes, each hash as 32 bytes followed by its state as one byte of the code of
R550, and the minimum as one byte. -/
def FuseSt.digest (f : FuseSt) : Nat :=
  let slot (k : KeySlot) : List Byte := leBytes 32 k.hash ++ leBytes 1 (slotBits k)
  (Config.shake256 (leBytes 8 f.serial ++ slot f.vendor0 ++ slot f.vendor1 ++ slot f.owner0 ++ slot f.owner1 ++ slot f.owner2
    ++ slot f.owner3 ++ leBytes 1 f.svnMin ++ leBytes 1 (b2n f.imageKey.isSome))).toNat

/-- Replace an owner slot. -/
def FuseSt.setOwner (f : FuseSt) (n : Nat) (k : KeySlot) : FuseSt :=
  match n with
  | 0 => { f with owner0 := k }
  | 1 => { f with owner1 := k }
  | 2 => { f with owner2 := k }
  | _ => { f with owner3 := k }

/-- A FUSE subop on the fuses (R547): none where it is refused. -/
def fuseOp (f : FuseSt) (running : Option ImageRec) (svn : Nat) (p : List Byte) : Option FuseSt :=
  let w := hdrNat p 0 8
  let slot := bitsOf w 55 48
  let value := bitsOf w 31 0
  let data := hdrNat p 8 32
  match bitsOf w 63 56 with
  | 1 => if slot < 4 ∧ (f.owner slot).st = .empty then some (f.setOwner slot { hash := data, st := .provisioned }) else none
  | 2 => if slot < 4 ∧ (f.owner slot).st = .provisioned then some (f.setOwner slot { f.owner slot with st := .revoked }) else none
  | 3 => if f.svnMin < value ∧ value ≤ svn then some { f with svnMin := value } else none
  | 4 =>
    if slot < 2 ∧ (running.map (·.slot)) = some (1 - slot) then
      some (if slot = 0 then { f with vendor0 := { f.vendor0 with st := .revoked } }
            else { f with vendor1 := { f.vendor1 with st := .revoked } })
    else none
  | 5 => if f.imageKey.isNone then some { f with imageKey := some data } else none
  | _ => none

/-- KEY_OFFER (R548). -/
def State.keyOffer (s : State) (nonce : List Byte) : State × List Byte :=
  let secret := Config.ephemeral s.groom.offers
  let pub := leBytes 56 (Config.x448Public secret).toNat
  let msg := nonce ++ pub ++ leBytes 8 0
  let sig := leBytes 114 (Config.ed448Sign s.fuse.idSecret (ascii "TQ-KEYOFFER") msg).toNat
  ({ s with groom := { s.groom with offers := s.groom.offers + 1, offer := some (secret.toNat, pub, nonce) } },
   msg ++ sig ++ leBytes 14 0)

/-- KEY_INSTALL (R548): the key, none where no offer is outstanding or its tag fails. -/
def State.keyOpen (s : State) (p : List Byte) : Option Nat :=
  match s.groom.offer with
  | none => none
  | some (secret, pub, nonce) =>
    let host := p.take 56
    let shared := leBytes 56 (Config.x448Shared (BitVec.ofNat 448 secret) (BitVec.ofNat 448 (leNat host))).toNat
    let kek := (Config.shake256 (shared ++ pub ++ host)).toNat
    (Config.gcmOpen kek ((p.drop 56).take 12) nonce ((p.drop 72).take 32) ((p.drop 104).take 16)).map leNat

/-- The certificate chain (R549). -/
def certChain (f : FuseSt) : List Byte :=
  let one (d : List Byte) : List Byte := leBytes 8 d.length ++ d ++ leBytes ((8 - d.length % 8) % 8) 0
  leBytes 8 (2 * 2 ^ 56) ++ one f.certDevice ++ one f.certCa

/-- FLAGS of the report (R550). -/
def State.attestFlags (s : State) : Nat :=
  s.fld .CFG_EPOCH 0 0 32 32 + 2 * s.fld .CFG_STATUS 0 0 25 25 + 4 * b2n (s.cfgState == 0) + 8 * b2n s.groom.sessionKey.isSome

/-- STL_REPAIR's nibble of a stall: EN and ROW (R550, R121). -/
def State.rowNibble (s : State) (i : Nat) : Nat := 8 * s.fld .STL_REPAIR i 0 0 0 + s.fld .STL_REPAIR i 0 6 4

/-- The stall that a spare serves, with [15] in use (R550). -/
def State.spareWord (s : State) (n : Nat) : Nat :=
  match s.svc.repairs.find? (fun e => e.2.spare == some n) with
  | some e => 2 ^ 15 + e.1
  | none => 0

/-- Report bytes 0 to 12,543 (R550), from one snapshot. -/
def State.attestBody (s : State) (nonce : List Byte) : List Byte :=
  let f := s.fuse
  let digest (r : Reg) : List Byte := (upTo 4).flatMap (fun w => leBytes 8 (s.reg r 0 w).toNat)
  leBytes 4 0x7A110E5C ++ leBytes 4 1 ++ leBytes 8 12672 ++ leBytes 4 0x1307296B ++ leBytes 4 s.devId ++ leBytes 8 s.time
    ++ leBytes 8 (s.reg .GRM_FW_VERSION 0 0).toNat ++ leBytes 4 (s.fld .GRM_FW_SVN 0 0 7 0) ++ leBytes 4 (s.fld .CFG_EPOCH 0 0 31 0)
    ++ leBytes 8 s.attestFlags ++ leBytes 8 f.serial ++ digest .GRM_FW_DIGEST ++ digest .CFG_CONFIG_DIGEST ++ nonce
    ++ leBytes 1 f.ownerBits ++ leBytes 1 f.vendorBits ++ leBytes 1 (b2n f.imageKey.isSome) ++ leBytes 29 f.svnMin
    ++ leBytes 32 f.digest
    ++ (upTo 256).flatMap (fun r =>
        let g := s.region r
        leBytes 32 g.digest ++ leBytes 4 g.epoch ++ leBytes 4 (g.stage % 4 + 4 * b2n g.quarantined + 8 * b2n g.loading))
    ++ (upTo 1536).map (fun i => BitVec.ofNat 8 (s.rowNibble (2 * i) + 16 * s.rowNibble (2 * i + 1)))
    ++ (upTo 32).flatMap (fun n => leBytes 2 (s.spareWord n))
    ++ (upTo 384).map (fun i => BitVec.ofNat 8
        ((upTo 8).foldl (fun a b => a + b2n (s.repair (8 * i + b)).retired * 2 ^ b) 0))
    ++ (upTo 8).map (fun st => BitVec.ofNat 8 (s.stackState st))
    ++ leBytes 56 0

/-- The whole report (R550). -/
def State.attestReport (s : State) (nonce : List Byte) : List Byte :=
  let b := s.attestBody nonce
  b ++ leBytes 114 (Config.ed448Sign s.fuse.idSecret (ascii "TQ-ATTEST") b).toNat ++ leBytes 14 0

/-- The firmware and the SEC engine complete a request (R535); a handover completes by its own steps. -/
def State.requestDone (s : State) : State :=
  match s.groom.req, s.groom.hand with
  | some r, none =>
    let p := r.payload
    if r.verdict ≠ 0 then s.finishReq r r.verdict []
    else if r.op = 1 then s.finishReq r 0 (s.attestReport (p.take 64))
    else if r.op = 2 then s.finishReq r 0 (certChain s.fuse)
    else if r.op = 3 then
      let o := s.keyOffer (p.take 64)
      o.1.finishReq r 0 o.2
    else if r.op = 4 then
      match s.keyOpen p with
      | some k =>
        ({ s with groom := { s.groom with sessionKey := some k, offer := none } } : State).finishReq r 0 []
      | none => s.finishReq r 6 []
    else
      match fuseOp s.fuse s.groom.image (s.fld .GRM_FW_SVN 0 0 7 0) p with
      | some f => ({ s with fuse := f } : State).finishReq r 0 []
      | none => s.finishReq r 3 []
  | _, _ => s

/-! ## Groom faults (R541 to R544) -/

/-- Maintenance that a restart of the firmware ends (R539, R542): stacks in RETRAINING fail, ports in TRAINING go DOWN. -/
def State.maintLost (s : State) : State :=
  let s1 := (upTo 8).foldl (fun t st => t.retrainDone st false) s
  (upTo 16).foldl (fun t i => if t.portState i = 2 then t.enterState i 1 else t) s1

/-- Corrals with a command outstanding at the groom complex: a RESYNC (R542). -/
def State.resyncCorrals (s : State) : List Nat :=
  s.cmds.foldl (fun l c => if descClass c.desc = 10 && c.phase == .running then insertNat c.corral l else l) []

/-- The ROM waits for a new image after a fault (R542, R544). -/
def State.backToBoot (s : State) (reason : Nat) : State :=
  (((s.bootState 0 reason).setPhase 1).setCores 1)

/-- The ROM recomputes the digest of the code area; the cores start cold, or the ROM waits (R542). -/
def State.restart (s : State) : State :=
  match s.groom.image with
  | some r =>
    if fwDigest (s.sramBytes 0 r.len) = r.digest then
      let t := (s.setPhase 6).setCores 15
      { t with groom := { t.groom with beatAt := t.time } }
    else s.backToBoot 6
  | none => s.backToBoot 6

/-- A groom fault (R542, R544). -/
def State.groomFault (s : State) : State :=
  let s1 := ((s.setCores 0).bump .GRM_FAULT_COUNT 0 0 1).raise0 .grm 0 2
  let s2 := match s1.groom.req with | some r => s1.finishReq r 5 [] | none => s1
  let s3 := s2.resyncCorrals.foldl (fun t c => t.fault c E_GROOM_FAULT 0xFFFF none []) s2
  let s4 := s3.maintLost
  let old := s4.groom.faults
  let s5 : State := { s4 with groom := { s4.groom with faults := (s4.time :: old).take 3 } }
  match old with
  | [_, _, first] => if s5.time ≤ first + ms 60000 then s5.backToBoot 9 else s5.restart
  | _ => s5.restart
/-- GRM_HEARTBEAT advances each 1 ms while firmware runs (R543). DESIGN CHOICE (log 88): a firmware that starts cold after a groom fault has
reached READY, or the step of R531 it was at, with its first beat. -/
def State.heartbeat (s : State) : State :=
  if s.firmwareRuns then
    let t := s.bump .GRM_HEARTBEAT 0 0 1
    let u : State := { t with groom := { t.groom with beatAt := t.time } }
    if u.grmPhase = 6 then u.startGoesOn else u
  else s

/-- The heartbeat has stopped (R543). -/
def State.heartbeatLost (s : State) : State :=
  if s.grmPhase = 4 ∧ s.groom.beatAt + ms 20 ≤ s.time then s.groomFault else s

/-- A core that runs fails, or an SRAM word is uncorrectable (R542, R543). -/
def State.coreFault (s : State) (runs : Bool) : State := if runs then s.groomFault else s

/-! ## Live handover (R538 to R541) -/

/-- Replace the handover in progress. -/
def State.setHandover (s : State) (h : Handover) : State := { s with groom := { s.groom with hand := some h } }

/-- The image of a handover in HBM. -/
def State.handImage (s : State) (h : Handover) : List Byte := imgTake (fun n => s.rdBytes h.addr (min n h.len))

/-- Step 2 (R540): an uncorrectable word of the image fails the digest of its body. -/
def State.handChecked (s : State) : State :=
  match s.groom.req, s.groom.hand with
  | some r, some h =>
    if h.step ≠ .checking then s
    else
      let img := s.handImage h
      let why := match imageReason s.fuse img h.len with
        | some e => some e
        | none => if (s.badIn h.addr h.len).isSome then some 6 else none
      match why with
      | some e => s.finishReq r 4 (leBytes 8 e)
      | none => s.setHandover { h with step := .checked, digest := fwDigest img }
  | _, _ => s

/-- Step 3 (R539, R540): the checkpoint stands in SRAM. -/
def State.handCheckpoint (s : State) (header : List Word) (st : List Byte) : State :=
  match s.groom.hand with
  | some h =>
    if h.step ≠ .checked then s
    else
      let bs := ((wordsBytes (header.take 8)) ++ leBytes (8 * (8 - header.length)) 0) ++ st.take 0x1FFC0
      (((s.setSram 0x1C0000 bs).setPhase 5).setHandover { h with step := .checkpointed })
  | none => s

/-- Steps 4 and 5 (R540, R541): the image is copied into the code area and its digest recomputed. -/
def State.handStart (s : State) : State :=
  match s.groom.hand with
  | some h =>
    if h.step ≠ .checkpointed then s
    else
      let img := s.handImage h
      let t := s.setSram 0 img
      if fwDigest img = h.digest then
        ((t.recordImage (imageRecord t.fuse img)).setCores 15).setHandover { h with step := .started, since := t.time }
      else t.groomFault
  | none => s

/-- Step 6 (R539, R540): the new firmware is ready, from the checkpoint or cold. -/
def State.handReady (s : State) (cold : Bool) : State :=
  match s.groom.req, s.groom.hand with
  | some r, some h =>
    if h.step ≠ .started then s
    else
      let s1 := if cold then s.maintLost else s
      let s2 := ((s1.setPhase 4).finishReq r 0 (leBytes 8 (b2n cold))).raise0 .grm 0 3
      ({ s2 with groom := { s2.groom with beatAt := s2.time } } : State).maintResume
  | _, _ => s

/-- The deadline of step 6 has passed (R541). -/
def State.handMissed (s : State) : State :=
  match s.groom.hand with
  | some h => if h.step = .started ∧ h.since + ms 100 ≤ s.time then s.groomFault else s
  | none => s

/-! ## Event records (R599 to R601) -/

/-- The firmware writes the oldest record into the event ring. A ring that HBM does not hold takes nothing. -/
def State.writeEvent (s : State) : State :=
  match s.eventsOpen, s.svc.events with
  | true, e :: t =>
    let a := s.fld .HST_QTABLE_BASE 0 0 56 12 * 4096 + 0x400000 + 64 * (e.seq % 8192)
    let phase := (e.seq / 8192 + 1) % 2
    let ws := [e.word0 + phase, e.seq, e.time, e.word3, e.detail, 0, 0, 0]
    let s1 := if a + 64 ≤ hbmTop ∧ s.hbmServed a then s.wr a (ws.flatMap (leBytes 8)) else s
    { s1 with svc := { s1.svc with events := t } }
  | _, _ => s

/-! ## The rows -/

/-- HP0_BOOT_TIMEOUT (R526). -/
def execHp0BootTimeout (s : State) : Host.Outcome State Fault Refusal := s.live s.bootViaLead

/-- BOOT_PHY_ALTERNATE (R525). -/
def execBootPhyAlternate (s : State) : Host.Outcome State Fault Refusal := s.live s.phyAlternate

/-- BOOT_GO (R529). -/
def execBootGo (value : Word) (s : State) : Host.Outcome State Fault Refusal := s.live (s.bootGo value)

/-- BOOT_CHECK_DONE (R529). -/
def execBootCheckDone (s : State) : Host.Outcome State Fault Refusal := s.live s.bootChecked

/-- HBM_TRAINING_DONE (R464). -/
def execHbmTrainingDone (failed : BitVec 8) (s : State) : Host.Outcome State Fault Refusal := s.live (s.trainingDone failed.toNat)

/-- GRM_DRV_FEATURES_WRITE (R534). -/
def execGrmDrvFeaturesWrite (value : Word) (s : State) : Host.Outcome State Fault Refusal := s.live (s.drvFeatures value)

/-- ATTEST (R535, R550). -/
def execAttest (seq : BitVec 16) (len : BitVec 32) (s : State) : Host.Outcome State Fault Refusal := s.live (s.grmReq (reqWord 1 seq len))

/-- CERT_CHAIN (R535, R549). -/
def execCertChain (seq : BitVec 16) (len : BitVec 32) (s : State) : Host.Outcome State Fault Refusal :=
  s.live (s.grmReq (reqWord 2 seq len))

/-- KEY_OFFER (R535, R548). -/
def execKeyOffer (seq : BitVec 16) (len : BitVec 32) (s : State) : Host.Outcome State Fault Refusal :=
  s.live (s.grmReq (reqWord 3 seq len))

/-- KEY_INSTALL (R535, R548). -/
def execKeyInstall (seq : BitVec 16) (len : BitVec 32) (s : State) : Host.Outcome State Fault Refusal :=
  s.live (s.grmReq (reqWord 4 seq len))

/-- HANDOVER (R535, R540). -/
def execHandover (seq : BitVec 16) (len : BitVec 32) (s : State) : Host.Outcome State Fault Refusal :=
  s.live (s.grmReq (reqWord 5 seq len))

/-- FUSE (R535, R547). -/
def execFuse (seq : BitVec 16) (len : BitVec 32) (s : State) : Host.Outcome State Fault Refusal :=
  s.live (s.grmReq (reqWord 6 seq len))

/-- GRM_REQUEST_DONE (R535). -/
def execGrmRequestDone (s : State) : Host.Outcome State Fault Refusal :=
  s.liveAll { s.requestDone with time := s.time, pwr := s.pwr, tap := s.tap }

/-- HANDOVER_IMAGE_CHECKED (R540). -/
def execHandoverImageChecked (s : State) : Host.Outcome State Fault Refusal := s.live s.handChecked

/-- HANDOVER_CHECKPOINT_DONE (R540). -/
def execHandoverCheckpointDone (header : List Word) (state : List Byte) (s : State) : Host.Outcome State Fault Refusal :=
  s.live (s.handCheckpoint header state)

/-- HANDOVER_FIRMWARE_START (R540). -/
def execHandoverFirmwareStart (s : State) : Host.Outcome State Fault Refusal := s.live s.handStart

/-- HANDOVER_READY (R540). -/
def execHandoverReady (cold : Bool) (s : State) : Host.Outcome State Fault Refusal := s.live (s.handReady cold)

/-- HANDOVER_DEADLINE_MISS (R541). -/
def execHandoverDeadlineMiss (s : State) : Host.Outcome State Fault Refusal := s.live s.handMissed

/-- CORE_WATCHDOG_EXPIRY (R542): of a core that runs firmware. -/
def execCoreWatchdogExpiry (core : Fin 4) (s : State) : Host.Outcome State Fault Refusal :=
  s.live (s.coreFault (s.firmwareRuns && (s.reg .GRM_STATUS 0 0).bit (12 + core.val)))

/-- HEARTBEAT_TIMEOUT (R543). -/
def execHeartbeatTimeout (s : State) : Host.Outcome State Fault Refusal := s.live s.heartbeatLost

/-- HEARTBEAT_ADVANCE (R543). -/
def execHeartbeatAdvance (s : State) : Host.Outcome State Fault Refusal := s.live s.heartbeat

/-- GROOM_SRAM_UNCORR (R542). -/
def execGroomSramUncorr (s : State) : Host.Outcome State Fault Refusal := s.live (s.coreFault (s.grmPhase != 0))

/-- FIRMWARE_DECLARE_FAILED (R543). -/
def execFirmwareDeclareFailed (s : State) : Host.Outcome State Fault Refusal := s.live (s.coreFault s.firmwareRuns)

/-- EVENT_RECORD_WRITE (R600). -/
def execEventRecordWrite (s : State) : Host.Outcome State Fault Refusal :=
  let t := s.writeEvent
  s.live { s with mem := t.mem, bad := t.bad, svc := t.svc }

end Sys2Proof.Machine
end

