-- ==== Sys2Proof/Machine/LineCode.lean ====
section
/-!
DEFINITION. The line code of a rein port (R479 to R485): PAM4 levels, scramblers, run counts and stuff slots, alignment markers, the
RS(544,514) code and codeword pairs. Everything here is a function of bits and levels; a port's place in its line is in its state.
-/

namespace Sys2Proof.Machine

/-! ## Bits, PAM4 levels and scramblers (R479, R480) -/

/-- The low `n` bits of a number, bit 0 first. -/
def bitList : Nat → Nat → List Bool
  | 0, _ => []
  | n + 1, v => (v % 2 == 1) :: bitList n (v / 2)

/-- The number whose bits are the list, bit 0 first. -/
def bitNum : List Bool → Nat
  | [] => 0
  | b :: t => b2n b + 2 * bitNum t

/-- The level of a bit pair, the earlier bit as b1 (R479). -/
def pamLevel (b1 b0 : Bool) : Nat :=
  match b1, b0 with | false, false => 0 | false, true => 1 | true, true => 2 | true, false => 3

/-- The bit pair of a level (R479). -/
def pamPair (v : Nat) : List Bool :=
  match v with | 0 => [false, false] | 1 => [false, true] | 2 => [true, true] | _ => [true, false]

/-- A lane's levels, from its bits in pairs. -/
def pamLevels : List Bool → List Nat
  | b1 :: b0 :: t => pamLevel b1 b0 :: pamLevels t
  | _ => []

/-- A scrambler's state after a marker: all ones (R480). -/
def scrOnes : Nat := 2 ^ 58 - 1

/-- Bits through the additive scrambler x^58 + x^39 + 1 (R480), which undoes itself: the bits and the state they leave. -/
def scramble : Nat → List Bool → List Bool × Nat
  | s, [] => ([], s)
  | s, d :: t =>
    let y := bitAt s 57 != bitAt s 38
    let r := scramble ((2 * s + b2n y) % 2 ^ 58) t
    ((d != y) :: r.1, r.2)

/-! ## Run counts and stuff slots (R481) -/

/-- A lane's last level and how many equal levels it has sent. -/
abbrev LaneRun := Nat × Nat

/-- The run after one more level. -/
def LaneRun.next (r : LaneRun) (v : Nat) : LaneRun := if v = r.1 then (v, r.2 + 1) else (v, 1)

/-- The next slot is a stuff slot. -/
def stuffDue (runs : List LaneRun) : Bool := runs.any (fun r => decide (15 ≤ r.2))

/-- A stuff slot: every lane sends 3 − v, and every run count restarts at 1. -/
def stuffSlot (runs : List LaneRun) : List Nat := runs.map (fun r => 3 - r.1)

/-- The runs after a slot of all lanes. -/
def runsAfter (runs : List LaneRun) (slot : List Nat) : List LaneRun := (runs.zip slot).map (fun p => LaneRun.next p.1 p.2)

/-- Slots with the stuff slots that they need, the runs they leave, and the number of stuff slots. -/
def stuffIn : List LaneRun → List (List Nat) → List (List Nat) × List LaneRun × Nat
  | runs, [] => ([], runs, 0)
  | runs, v :: t =>
    if stuffDue runs then
      let w := stuffSlot runs
      let r := stuffIn (runsAfter (w.map (fun x => (x, 0))) v) t
      (w :: v :: r.1, r.2.1, r.2.2 + 1)
    else
      let r := stuffIn (runsAfter runs v) t
      (v :: r.1, r.2.1, r.2.2)

/-- Received slots without their stuff slots, the runs they leave, and each lane's symbol errors: a 16th equal level where a stuff was
due and no comma followed. -/
def stuffOut : List LaneRun → List Nat → List (List Nat) → List (List Nat) × List LaneRun × List Nat
  | runs, errs, [] => ([], runs, errs)
  | runs, errs, v :: t =>
    if stuffDue runs then
      stuffOut (v.map (fun x => (x, 1))) ((errs.zip (runs.zip v)).map (fun p =>
        if 15 ≤ p.2.1.2 ∧ p.2.1.1 = p.2.2 then p.1 + 1 else p.1)) t
    else
      let r := stuffOut (runsAfter runs v) errs t
      (v :: r.1, r.2.1, r.2.2)

/-! ## Alignment markers (R482) -/

/-- Runs at the first symbol after a comma. -/
def freshRuns : List LaneRun := List.replicate 4 (0, 0)

/-- The 32-bit field of a marker on a lane (R482). -/
def markerField (seq lane : Nat) : Nat := seq % 2 ^ 16 * 2 ^ 16 + lane * 2 ^ 14

/-- The four lanes' levels, slot by slot. -/
def laneSlots (l : List (List Nat)) (n : Nat) : List (List Nat) := (upTo n).map (fun i => l.map (fun x => x.getD i 0))

/-- The slots of four marker fields, before stuffing. DESIGN CHOICE (log 108): a field's bit 0 goes first, as a flit's does. -/
def fieldSlots (fields : List Nat) : List (List Nat) := laneSlots (fields.map (fun f => pamLevels (bitList 32 f))) 16

/-- A marker on the four lanes: the raw comma, then the fields subject to stuffing; with the runs and the stuff slots. -/
def markerSlots (seq : Nat) : List (List Nat) × List LaneRun × Nat :=
  let r := stuffIn freshRuns (fieldSlots ((upTo 4).map (markerField seq)))
  (List.replicate 24 [3, 3, 3, 3] ++ [[0, 0, 0, 0]] ++ r.1, r.2.1, r.2.2)

/-- The fields of a marker agree (R483): one SEQ, and each LANE once. -/
def fieldsAgree (fields : List Nat) : Bool :=
  let seqs := fields.map (fun f => bitsOf f 31 16)
  seqs.all (· == seqs.headD 0) && (upTo 4).all (fun l => fields.any (fun f => bitsOf f 15 14 == l))

/-! ## RS(544,514) over GF(2^10) (R484)

The spec names the code of IEEE 802.3 Clause 91. PRESUMED (log 129), from that clause: the field polynomial x^10 + x^3 + 1, the generator
with the roots α^0 to α^29 for α = x, the first symbol as the highest coefficient, and bit 0 of a symbol first. -/

/-- A field element times x. -/
def gfTimesX (a : Nat) : Nat := if 512 ≤ a then Nat.xor (2 * a) 0x409 else 2 * a

/-- The product of two field elements, over the bits of the second. -/
def gfMulBits : Nat → Nat → Nat → Nat
  | 0, _, _ => 0
  | n + 1, a, b => Nat.xor (if b % 2 = 1 then a else 0) (gfMulBits n (gfTimesX a) (b / 2))

/-- The product of two field elements. -/
def gfMul (a b : Nat) : Nat := gfMulBits 10 a b

/-- A power of a field element. -/
def gfPow (a : Nat) : Nat → Nat
  | 0 => 1
  | n + 1 => gfMul a (gfPow a n)

/-- The inverse of a field element: its 1,022nd power, by squarings. -/
def gfInv (a : Nat) : Nat :=
  ((upTo 9).foldl (fun (p : Nat × Nat) _ => let q := gfMul p.1 p.1; (q, gfMul p.2 q)) (a, 1)).2

/-- A polynomial's value, lowest coefficient first. -/
def gfEval (p : List Nat) (x : Nat) : Nat := p.foldr (fun c acc => Nat.xor c (gfMul acc x)) 0

/-- The sum of two polynomials. -/
def gfAdd : List Nat → List Nat → List Nat
  | [], q => q
  | p, [] => p
  | a :: p, b :: q => Nat.xor a b :: gfAdd p q

/-- A polynomial times an element. -/
def gfScale (c : Nat) (p : List Nat) : List Nat := p.map (gfMul c)

/-- The generator without its leading 1, highest coefficient first. -/
def rsGenerator : List Nat :=
  (((upTo 30).foldl (fun g j => gfAdd (0 :: g) (gfScale (gfPow 2 j) g)) [1]).reverse).drop 1

/-- The 30 parity symbols of a message of 514 symbols. -/
def rsParity (g msg : List Nat) : List Nat :=
  msg.foldl (fun r m => let f := Nat.xor m (r.headD 0); gfAdd (r.drop 1 ++ [0]) (gfScale f g)) (List.replicate 30 0)

/-- The codeword of a message. -/
def rsEncode (msg : List Nat) : List Nat := msg ++ rsParity rsGenerator msg

/-- The 30 syndromes of a received word. -/
def rsSyndromes (r : List Nat) : List Nat :=
  (upTo 30).map (fun j => let a := gfPow 2 j; r.foldl (fun acc c => Nat.xor (gfMul acc a) c) 0)

/-- The search for the error locator: the locator so far, the last one that failed, its discrepancy, the distance to it and the length. -/
structure LocatorSt where
  loc : List Nat
  old : List Nat
  disc : Nat
  gap : Nat
  len : Nat
  deriving DecidableEq, Repr

/-- One step of the search, at syndrome `n`. -/
def LocatorSt.advance (synd : List Nat) (x : LocatorSt) (n : Nat) : LocatorSt :=
  let d := (upTo (x.len + 1)).foldl (fun acc i => Nat.xor acc (gfMul (x.loc.getD i 0) (synd.getD (n - i) 0))) 0
  if d = 0 then { x with gap := x.gap + 1 }
  else
    let next := gfAdd x.loc (gfScale (gfMul d (gfInv x.disc)) (List.replicate x.gap 0 ++ x.old))
    if 2 * x.len ≤ n then { loc := next, old := x.loc, disc := d, gap := 1, len := n + 1 - x.len }
    else { x with loc := next, gap := x.gap + 1 }

/-- The error locator of syndromes, with its length. -/
def rsLocator (synd : List Nat) : List Nat × Nat :=
  let x := (upTo 30).foldl (LocatorSt.advance synd) { loc := [1], old := [1], disc := 1, gap := 1, len := 0 }
  (x.loc, x.len)

/-- The error at a root of the locator, by the evaluator: `inv` is the inverse of the place's element. -/
def rsMagnitude (loc omega : List Nat) (place inv : Nat) : Nat :=
  let slope := (upTo loc.length).foldl (fun acc i => if i % 2 = 1 then Nat.xor acc (gfMul (loc.getD i 0) (gfPow inv (i - 1))) else acc) 0
  gfMul place (gfMul (gfEval omega inv) (gfInv slope))

/-- The evaluator of a locator: the product with the syndromes, up to degree 29. -/
def rsOmega (loc synd : List Nat) : List Nat :=
  (upTo 30).map (fun n => (upTo (n + 1)).foldl (fun acc i => Nat.xor acc (gfMul (loc.getD i 0) (synd.getD (n - i) 0))) 0)

/-- A received word with the errors that the locator names put right: each symbol with its place's element, highest place first. -/
def rsFix (loc omega : List Nat) : Nat → Nat → List Nat → List Nat
  | _, _, [] => []
  | place, inv, c :: t =>
    (if gfEval loc inv = 0 then Nat.xor c (rsMagnitude loc omega place inv) else c)
      :: rsFix loc omega (gfMul place (gfInv 2)) (gfMul inv 2) t

/-- Symbols in which two words differ. -/
def symbolsApart (a b : List Nat) : Nat := ((a.zip b).filter (fun p => p.1 != p.2)).length

/-- A received word's codeword and the symbols corrected; none where it cannot be corrected, for no codeword lies within 15 symbols. -/
def rsDecode (r : List Nat) : Option (List Nat × Nat) :=
  let synd := rsSyndromes r
  if synd.all (· == 0) then some (r, 0)
  else
    let l := rsLocator synd
    let top := gfPow 2 543
    let w := rsFix l.1 (rsOmega l.1 synd) top (gfInv top) r
    if l.2 ≤ 15 ∧ symbolsApart w r ≤ 15 ∧ (rsSyndromes w).all (· == 0) then some (w, symbolsApart w r) else none

/-! ## Codeword pairs (R484, R485) -/

/-- Bits in symbols of 10, bit 0 first. -/
def bitSymbols : Nat → List Bool → List Nat
  | 0, _ => []
  | n + 1, l => bitNum (l.take 10) :: bitSymbols n (l.drop 10)

/-- The bits of a message or of a lane's symbols. -/
def symbolBits (l : List Nat) : List Bool := l.flatMap (bitList 10)

/-- The message of a pair: the pair header with PAIR, then five flits (R485). -/
def pairMessage (pair : Nat) (flits : List (List Byte)) : List Bool :=
  bitList 40 (pair % 2 ^ 14) ++ flits.flatMap (fun f => f.flatMap (fun b => bitList 8 b.toNat))

/-- The two codewords of a message of 10,280 bits, one after the other. -/
def pairWords (msg : List Bool) : List Nat :=
  let m := bitSymbols 1028 msg
  rsEncode (m.take 514) ++ rsEncode (m.drop 514)

/-- Symbols dealt to lanes 0 to 3 in turn: the share of a lane. -/
def dealt (lane : Nat) : List Nat → List Nat
  | [] => []
  | a :: t => (if lane % 4 = 0 then [a] else []) ++ dealt (lane + 3) t

/-- The symbols of four lanes' shares, in their order. -/
def gatheredWords (shares : List (List Nat)) : List Nat := (upTo 272).flatMap (fun i => shares.map (fun l => l.getD i 0))

/-- What a pair's codewords give (R484, R485): the pair number, if its codeword could be corrected, the five flits, those lost where a
codeword that overlaps them could not be corrected, the symbols corrected and the codewords that could not be. -/
structure RxPair where
  pair : Option Nat
  flits : List (Option (List Byte))
  corrected : Nat
  lost : Nat
  deriving DecidableEq, Repr

/-- The bytes of a flit of a message. -/
def flitOf (msg : List Bool) (f : Nat) : List Byte :=
  (upTo 256).map (fun j => BitVec.ofNat 8 (bitNum ((msg.drop (40 + 2048 * f + 8 * j)).take 8)))

/-- A pair from its 1,088 received symbols. -/
def pairOf (words : List Nat) : RxPair :=
  let a := rsDecode (words.take 544)
  let b := rsDecode (words.drop 544)
  let part (x : Option (List Nat × Nat)) := match x with | some (w, _) => w.take 514 | none => List.replicate 514 0
  let msg := symbolBits (part a ++ part b)
  { pair := if a.isSome then some (bitNum (msg.take 14)) else none
    flits := (upTo 5).map (fun f => if (f ≤ 2 ∧ a.isNone) ∨ (2 ≤ f ∧ b.isNone) then none else some (flitOf msg f))
    corrected := (match a with | some (_, n) => n | none => 0) + (match b with | some (_, n) => n | none => 0)
    lost := b2n a.isNone + b2n b.isNone }

end Sys2Proof.Machine
end

