-- ==== Sys2Proof/Machine/ReinLink.lean ====
section
/-!
DEFINITION. Rein links (R483 to R496, R520): training, markers, peer identity, flits with retry and credits, eye scans.
-/

namespace Sys2Proof.Machine

/-! ## Reports of lost neighbours (R610) -/

/-- The position one step from this device in a direction: 0 is +, 1 is − (R498). -/
def State.neighbour (s : State) (dim dir : Nat) : Nat :=
  let d := max 1 (s.dimSize dim)
  let c := coordOf s.ownPos dim
  withCoord s.ownPos dim (if dir = 0 then (c + 1) % d else (c + d - 1) % d)

/-- Every port toward a position is DOWN with CAUSE SIGNAL or MARKERS (R610). -/
def State.lostTo (s : State) (p : Nat) : Bool :=
  ((upTo 16).filter (fun j => s.portRole j == 1 && s.neighbour (s.portDim j) (s.portDir j) == p)).all (fun j =>
    s.portState j == 1 && (s.fld .RNL_PORT_STATUS j 0 6 4 == 1 || s.fld .RNL_PORT_STATUS j 0 6 4 == 2))

/-- The position that a wheeler reports when its port `i` has gone DOWN (R610): the one the port leads to, once it is lost. -/
def State.lostBy (s : State) (i : Nat) : Option Nat :=
  let p := s.neighbour (s.portDim i) (s.portDir i)
  if s.portRole i = 1 ∧ s.rein.numbered ∧ !s.isLead ∧ p ≠ s.ownPos ∧ s.lostTo p then some p else none

/-- A port has gone DOWN: its lead hears of a neighbour that is lost by it (R610). -/
def State.noteDown (s : State) (i : Nat) : State :=
  match s.lostBy i with
  | some p => { s with sent := .mgmtDown p :: s.sent }
  | none => s

/-! ## Training (R493) -/

/-- A step of training failed (R493): the third in a row makes the port FAILED. -/
def State.trainFail (s : State) (i : Nat) : State :=
  let k := s.port i
  let s1 := s.setPort i { k with failures := k.failures + 1, failedAt := s.time, markers := 0, badMarkers := 0, fecLock := false }
  if 3 ≤ k.failures + 1 then (s1.enterState i 7).raise0 .rnl i 1 else (s1.enterState i 1).noteDown i

/-- REIN_TRAINING_COMPLETE (R478, R493, R515): the frequencies of a TORUS port's ends must agree. -/
def State.trained (s : State) (i : Nat) (ok freqError : Bool) (inverted : Nat) : State :=
  if s.portState i ≠ 1 ∧ s.portState i ≠ 2 then s
  else if freqError ∧ s.portRole i = 1 then (s.setFld .RNL_PORT_STATUS i 0 6 4 5).trainFail i
  else if !ok then s.trainFail i
  else
    let s1 := ((s.setFld .RNL_PORT_STATUS i 0 19 16 15).setFld .RNL_PORT_STATUS i 0 15 12 inverted).setFld .RNL_PORT_STATUS i 0 3 0 3
    s1.setPort i { s1.port i with markers := 0, badMarkers := 0, fecLock := false, tx := LineTx.start, rx := LineRx.start }

/-- The receiver at a marker (R480 to R483, R507): its number and its comma's stamp, the LANE of each physical lane where the fields
agree, the descramblers and run counts as a marker leaves them, and pair 0 next. -/
def LineRx.atMarker (x : LineRx) (now : Nat) (fields : List Nat) : LineRx :=
  { x with pair := 0, commaAt := 64 * now, marker := bitsOf (fields.headD 0) 31 16, scramblers := List.replicate 4 scrOnes
           runs := (markerSlots (bitsOf (fields.headD 0) 31 16)).2.1
           lanes := if fieldsAgree fields then fields.map (fun f => bitsOf f 15 14) else x.lanes }

/-- A port enters INIT and sends its identity (R493, R495). -/
def State.enterInit (s : State) (i : Nat) : State :=
  let t := s.enterState i 4
  { t with sent := .ident i s.devId (s.reg .RNL_PORT_CFG i 0) s.rein.numbered :: t.sent }

/-- ALIGN_MARKER_RECEIVE (R482, R483, R493, R496): `good` closes a marker interval without error, which a marker whose LANE or SEQ
disagrees does not. -/
def State.marker (s0 : State) (i : Nat) (fields : List Nat) (clean fec ber : Bool) : State :=
  let good := clean && fieldsAgree fields
  let s := if 3 ≤ s0.portState i ∧ s0.portState i ≤ 5 then s0.setPort i { s0.port i with rx := (s0.port i).rx.atMarker s0.time fields } else s0
  let k := s.port i
  let st := s.portState i
  if st = 3 then
    if good then
      let s1 := s.setPort i { k with markers := k.markers + 1, badMarkers := 0, fecLock := k.fecLock || fec }
      if 4 ≤ k.markers + 1 ∧ (k.fecLock || fec) then s1.enterInit i else s1
    else (s.setPort i { k with markers := 0 }).raise0 .rnl i 2
  else if st = 4 ∨ st = 5 then
    let s1 := if ber then s.raise0 .rnl i 5 else s
    if good then s1.setPort i { k with badMarkers := 0 }
    else
      let s2 := s1.raise0 .rnl i 2
      if k.badMarkers = 0 then s2.setPort i { k with badMarkers := 1 }
      else if st = 5 then s2.linkLeaves i 2 3
      else (s2.setPort i { k with markers := 0, badMarkers := 0 }).setFld .RNL_PORT_STATUS i 0 3 0 3
  else s

/-! ## Identity at INIT (R495, R498) -/

/-- The peer's port carries the role that the cabling rule names (R498): the same dimension and member, the other direction. -/
def State.peerRole (s : State) (i : Nat) (cfg : Word) : Bool :=
  cfg.fld 62 61 == 1 && cfg.fld 60 59 == s.portDim i && cfg.fld 58 58 == 1 - s.portDir i && cfg.fld 57 57 == s.portMember i

/-- The peer is the one the topology names (R495). A TORUS port accepts a peer that has not been numbered during enumeration, and for a
position whose presence bit is 0 (R612); a device that has no number itself can check only the role. -/
def State.peerOk (s : State) (i dev : Nat) (cfg : Word) (numbered : Bool) : Bool :=
  if s.portRole i = 2 then
    dev == s.fld .RNL_PORT_CFG i 0 54 45 * 64 + s.fld .RNL_PORT_CFG i 0 44 39
      && cfg.fld 62 61 == 2 && cfg.fld 56 55 == s.fld .RNL_PORT_CFG i 0 38 37
  else
    let want := s.neighbour (s.portDim i) (s.portDir i)
    s.peerRole i cfg &&
      (!s.rein.numbered || (if numbered then dev == s.ownHitch * 64 + want else s.svc.presence == 0 || s.posAbsent want))

/-- REIN_INIT_IDENT (R493, R495). -/
def State.initIdent (s : State) (i dev peerPort : Nat) (cfg : Word) (numbered : Bool) : State :=
  if s.portState i ≠ 4 then s
  else
    let s1 := s.setReg .RNL_PEER i 0 (BitVec.ofNat 64 (2 ^ 31 + peerPort * 2 ^ 20 + dev))
    if s1.peerOk i dev cfg numbered then
      let s2 := s1.setPort i { s1.port i with failures := 0, badMarkers := 0, rxSeq := 4095, nakSent := false, txSeq := 0, retry := [],
                                              credits := [], partPkt := [], drain := false, owed := []
                                              tx := { (s1.port i).tx with wait := [], nakOut := false } }
      let s3 := (s2.setFld .RNL_PORT_STATUS i 0 3 0 5).raise0 .rnl i 0
      s3.pumpPort i [] (s3.port i).txq
    else (s1.setFld .RNL_PORT_STATUS i 0 3 0 6).raise0 .rnl i 3

/-- REIN_LINK_DOWN (R478, R494): 1 SIGNAL, 2 MARKERS, 5 FREQ. A link that is not yet UP fails a step of its training, a TORUS port's for
its frequency with CAUSE FREQ. -/
def State.linkDown (s : State) (i cause : Nat) : State :=
  let st := s.portState i
  if cause ≠ 1 ∧ cause ≠ 2 ∧ cause ≠ 5 then s
  else if st = 5 then (s.linkLeaves i cause 1).noteDown i
  else if st = 2 ∨ st = 3 ∨ st = 4 then (if cause = 5 ∧ s.portRole i = 1 then s.setFld .RNL_PORT_STATUS i 0 6 4 5 else s).trainFail i
  else if st = 6 then s.enterState i 1
  else s

/-- A FAILED port is tried again after 1 s (R493). -/
def State.failedRetry (s : State) (i : Nat) : State :=
  if s.portState i = 7 ∧ (s.port i).failedAt + 1000000000 ≤ s.time then
    (s.setPort i { s.port i with failures := 0 }).setFld .RNL_PORT_STATUS i 0 3 0 1
  else s

/-! ## Flits (R485 to R489) -/

/-- Payload bytes of a packet on the link (R490): a READ carries none, for its LEN is what it asks for. -/
def payloadLen (typ len : Nat) : Nat := if typ = T_READ then 0 else if typ = T_RELAY then 8 * len else len

/-- A packet from its bytes (R490). -/
def pktOf (bs : List Byte) (n : Nat) : TypedPkt :=
  let w0 := wordAt bs 0
  let w1 := wordAt bs 8
  { typ := bitsOf w0 31 28
    pkt := { dst := BitVec.ofNat 16 (bitsOf w0 63 48), src := BitVec.ofNat 16 (bitsOf w0 47 32), vc := BitVec.ofNat 5 (bitsOf w0 27 23),
             ghops := BitVec.ofNat 2 (bitsOf w0 22 21), len := BitVec.ofNat 11 (bitsOf w0 20 10), corral := BitVec.ofNat 8 (bitsOf w1 63 56),
             tag := BitVec.ofNat 16 (bitsOf w1 55 40), gen := BitVec.ofNat 8 (bitsOf w1 39 32), srcIndex := BitVec.ofNat 6 (bitsOf w1 31 26),
             srcRouter := BitVec.ofNat 10 (bitsOf w1 25 16), code := BitVec.ofNat 16 (bitsOf w1 15 0), addr := BitVec.ofNat 64 (wordAt bs 16),
             payload := (bs.drop 24).take n } }

/-- The packets that a byte stream holds whole, and the bytes of one that is not yet whole (R487): a zero word, or fewer than 8 bytes,
pads the body to its end. -/
def parsePkts : Nat → List Byte → List TypedPkt × List Byte
  | 0, bs => ([], bs)
  | fuel + 1, bs =>
    if bs.length < 8 ∨ wordAt bs 0 = 0 then ([], [])
    else if bs.length < 24 then ([], bs)
    else
      let n := payloadLen (bitsOf (wordAt bs 0) 31 28) (bitsOf (wordAt bs 0) 20 10)
      if bs.length < 24 + n then ([], bs)
      else
        let r := parsePkts fuel (bs.drop (24 + n))
        (pktOf bs n :: r.1, r.2)

/-- Distance of two sequence numbers modulo 4,096. -/
def sub12 (a b : Nat) : Nat := (a + 4096 - b % 4096) % 4096

/-- Flits that an ACK covers leave the retry buffer (R488). -/
def ackFlits (ack : Nat) (l : List RetryFlit) : List RetryFlit :=
  match l with
  | [] => []
  | f :: t => if sub12 ack f.seq < 512 then ackFlits ack t else f :: t

/-- Resend from the oldest unacknowledged flit (R488, R496). -/
def State.resend (s : State) (i : Nat) : State :=
  let k := s.port i
  if k.retry.isEmpty then s
  else
    let l := k.retry.map (fun f => { f with tries := f.tries + 1 })
    let s1 := ((s.setPort i { k with retry := l, tx := { k.tx with wait := l.map (·.seq) }, ackAt := s.time }).bump .RNL_CNT i 5 1).bump .RNL_CNT i 0 l.length
    let s2 := if l.any (fun f => decide (2 ≤ f.tries)) then s1.raise0 .rnl i 5 else s1
    if l.any (fun f => decide (s.fld .RNL_RETRY i 0 39 32 < f.tries)) then s2.linkLeaves i 3 1 else s2

/-- What a good flit's header does to the sender of this port (R486, R488, R489). -/
def State.flitHeader (s : State) (i : Nat) (h : Nat) : State :=
  let k := s.port i
  let rest := ackFlits (bitsOf h 47 36) k.retry
  let vc := bitsOf h 34 30
  let cr := if vc < 18 then smSet vcFull k.credits vc (min (vcFull vc) (k.credit vc + bitsOf h 29 16)) else k.credits
  let s1 := s.setPort i { k with retry := rest, credits := cr, ackAt := if rest.length < k.retry.length then s.time else k.ackAt }
  let s2 := if bitAt h 35 then s1.resend i else s1
  s2.pumpPort i [] (s2.port i).txq

/-- A discarded flit, or one out of order (R488): one NAK goes out until the expected SEQ arrives. -/
def State.nakFlit (s : State) (i : Nat) : State := s.setPort i { s.port i with nakSent := true }

/-- A flit at a port that is UP: the state after it and the packets that it completes (R486 to R488). -/
def State.flitIn (s : State) (i : Nat) (flit : List Byte) : State × List TypedPkt :=
  let h := wordAt flit 0
  if s.portState i ≠ 5 then (s, [])
  else if flit.length ≠ 256 ∨ crc32 (flit.take 252) ≠ leNat (flit.drop 252) then ((s.bump .RNL_CNT i 4 1).nakFlit i, [])
  else if 1 < bitsOf h 63 60 ∨ bitsOf h 7 0 ≠ 0 then (s.nakFlit i, [])
  else
    let s1 := s.flitHeader i h
    if bitsOf h 63 60 = 0 ∨ s1.portState i ≠ 5 then (s1, [])
    else
      let k := s1.port i
      if bitsOf h 59 48 = (k.rxSeq + 1) % 4096 then
        let r := parsePkts 64 (k.partPkt ++ (flit.drop 8).take 244)
        ((s1.setPort i { k with rxSeq := bitsOf h 59 48, nakSent := false, partPkt := r.2, tx := { k.tx with nakOut := false } }).bump .RNL_CNT i 1 1, r.1)
      else (s1.nakFlit i, [])

/-- The ACK timeout of a port (R488, R519). -/
def State.retryTimeout (s : State) (i : Nat) : State :=
  let k := s.port i
  if s.portState i = 5 ∧ !k.retry.isEmpty ∧ k.ackAt + s.fld .RNL_RETRY i 0 31 0 ≤ s.time then s.resend i else s

/-! ## The line (R479 to R487) -/

/-- A flit with its header, body and CRC (R486): the port's ACK, its NAK once, and credits of one VC. -/
def flitBytes (kind seq ack : Nat) (nak : Bool) (vc credits next : Nat) (body : List Byte) : List Byte :=
  let b := leBytes 8 (kind * 2 ^ 60 + seq * 2 ^ 48 + ack * 2 ^ 36 + b2n nak * 2 ^ 35 + vc * 2 ^ 30 + credits * 2 ^ 16 + next * 2 ^ 8) ++ body
  b ++ leBytes 4 (crc32 b)

/-- The next flit of a port: the oldest DATA flit that waits and is still unacknowledged, or IDLE. -/
def PortSt.nextFlit (k : PortSt) : List Byte × PortSt :=
  let due := k.tx.wait.dropWhile (fun q => !k.retry.any (fun f => f.seq == q))
  let nak := k.nakSent && !k.tx.nakOut
  let give := (k.owed.filter (fun e => e.2 != 0)).headD (31, 0)
  let n := min give.2 16383
  let k1 : PortSt := { k with owed := if n = 0 then k.owed else smSet (fun _ => 0) k.owed give.1 (give.2 - n)
                              tx := { k.tx with wait := due.drop 1, nakOut := k.nakSent } }
  match due.head?.bind (fun q => k.retry.find? (fun f => f.seq == q)) with
  | some f => (flitBytes 1 f.seq k.rxSeq nak give.1 n f.nextPkt f.body, k1)
  | none => (flitBytes 0 0 k.rxSeq nak give.1 n 0xFF (List.replicate 244 0), k1)

/-- The next flits of a port. -/
def PortSt.nextFlits : Nat → PortSt → List (List Byte) × PortSt
  | 0, k => ([], k)
  | n + 1, k =>
    let r := k.nextFlit
    let t := r.2.nextFlits n
    (r.1 :: t.1, t.2)

/-- A marker goes out after every 16,384 pairs (R482): the slots, the line after it, and the stuff slots among them. -/
def LineTx.sendMarker (x : LineTx) (now : Nat) : List (List Nat) × LineTx × Nat :=
  if x.pairs < 16384 then ([], x, 0)
  else
    let m := markerSlots x.marker
    (m.1, { x with pairs := 0, commaAt := 64 * now, marker := (x.marker + 1) % 2 ^ 16, scramblers := List.replicate 4 scrOnes, runs := m.2.1 }, m.2.2)

/-- One codeword pair on the line: dealt, scrambled, mapped and stuffed (R479 to R485). -/
def LineTx.sendPair (x : LineTx) (flits : List (List Byte)) : List (List Nat) × LineTx × Nat :=
  let words := pairWords (pairMessage x.pairs flits)
  let lanes := (upTo 4).map (fun l => scramble (x.scramblers.getD l 0) (symbolBits (dealt l words)))
  let r := stuffIn x.runs (laneSlots (lanes.map (fun p => pamLevels p.1)) 1360)
  (r.1, { x with pairs := x.pairs + 1, scramblers := lanes.map (·.2), runs := r.2.1 }, r.2.2)

/-- A port that is aligning or further sends a marker where one is due, and a pair of its next five flits; stuff slots are counted
(R521). Only a port that is UP sends DATA flits, and a TIME packet with each marker (R507). -/
def State.portPair (s0 : State) (i : Nat) : State :=
  if s0.portState i < 3 ∨ 5 < s0.portState i then s0
  else
    let m := (s0.port i).tx.sendMarker s0.time
    let s1 := s0.setPort i { s0.port i with tx := m.2.1 }
    let s := if s0.portState i = 5 ∧ !m.1.isEmpty then s1.sendTime i else s1
    let f := (s.port i).nextFlits 5
    let p := f.2.tx.sendPair f.1
    (s.setPort i { f.2 with tx := { p.2.1 with slots := m.1 ++ p.1 } }).bump .RNL_CNT i 6 (m.2.2 + p.2.2)

/-- The line's time (R484): a codeword pair takes 12.8 ns of the timebase. DESIGN CHOICE (log 108): pairs of all ports end together, and
markers and stuff slots take no time of their own. -/
def State.linePairs (s : State) : State :=
  if s.time * 5 / 64 = (s.time - 1) * 5 / 64 then s else (smKeys s.rein.ports).foldl (fun t i => t.portPair i) s

/-- The levels of received slots by LANE: a lane that training found inverted is put right, and crossed lanes are sorted (R477). -/
def laneOrder (inverted : Nat) (lanes slot : List Nat) : List Nat :=
  let v := (upTo 4).map (fun j => if bitAt inverted j then 3 - slot.getD j 0 else slot.getD j 0)
  (upTo 4).map (fun l => v.getD (lanes.idxOf l) 0)

/-- What the slots of a received codeword pair give, and the receiver after it (R479 to R485). -/
def LineRx.takePair (x : LineRx) (inverted : Nat) (slots : List (List Nat)) : RxPair × LineRx :=
  let d := stuffOut x.runs x.errs (slots.map (laneOrder inverted x.lanes))
  let lanes := (upTo 4).map (fun l => scramble (x.scramblers.getD l 0) (d.1.flatMap (fun v => pamPair (v.getD l 0))))
  (pairOf (gatheredWords (lanes.map (fun p => bitSymbols 272 p.1))),
   { x with pair := (x.pair + 1) % 2 ^ 14, scramblers := lanes.map (·.2), runs := d.2.1, errs := d.2.2 })

/-- A codeword pair at a port whose line is aligned (R484, R485, R521): symbols corrected and codewords lost are counted, and a pair out of
sequence sets ALIGN. The flits that the port takes from it. DEDUCED (log 130): the number expected of the next pair counts pairs since the
marker, whatever the pairs before it bore. -/
def State.pairIn (s : State) (i : Nat) (slots : List (List Nat)) : State × List (Option (List Byte)) :=
  if s.portState i < 3 ∨ 5 < s.portState i then (s, [])
  else
    let k := s.port i
    let r := k.rx.takePair (s.fld .RNL_PORT_STATUS i 0 15 12) slots
    let s1 := ((s.setPort i { k with rx := r.2 }).bump .RNL_CNT i 2 r.1.corrected).bump .RNL_CNT i 3 r.1.lost
    match r.1.pair with
    | some n => if n = k.rx.pair then (s1, r.1.flits) else ((s1.raise0 .rnl i 2).nakFlit i, [])
    | none => (s1, r.1.flits)

/-! ## Eye scans (R520) -/

/-- A write of RNL_EYE_CTL: START begins a scan on a link that is UP. -/
def State.eyeWrite (s : State) (i : Nat) (v : Word) : State :=
  let s1 := s.setReg .RNL_EYE_CTL i 0 (regWritten .RNL_EYE_CTL (s.reg .RNL_EYE_CTL i 0) v)
  if v.bit 63 ∧ s1.portState i = 5 then (s1.setPort i { s1.port i with eyeRun := true }).setReg .RNL_EYE_RESULT i 0 0 else s1

/-- A scan has counted its bits; a link that has left UP ends none. -/
def State.eyeDone (s : State) (i errors : Nat) : State :=
  if (s.port i).eyeRun ∧ s.portState i = 5 then
    (s.setPort i { s.port i with eyeRun := false }).setReg .RNL_EYE_RESULT i 0 (BitVec.ofNat 64 (2 ^ 63 + errors % 2 ^ 48))
  else s

/-! ## Lane retraining (R607) -/

/-- The other member port of a TORUS port's dimension and direction is UP. -/
def State.partnerUp (s : State) (i : Nat) : Bool :=
  match s.torusPort (s.portDim i) (s.portDir i) (1 - s.portMember i) with
  | some j => s.portUsable j
  | none => false

/-- LANE_RETRAIN: on BER_HIGH the firmware keeps new packets off the port. -/
def State.laneRetrain (s : State) (i : Nat) : State :=
  if s.feature 6 ∧ s.ready ∧ s.portState i = 5 ∧ s.portRole i = 1 ∧ (s.reg .RNL_EVENT i 0).bit 5 ∧ s.partnerUp i then
    s.setPort i { s.port i with drain := true }
  else s

/-- LANE_RETRAIN_DRAINED: the retry buffer is empty; the port leaves UP with CAUSE CONFIG and its bad lanes are readapted. -/
def State.laneDrained (s : State) (i : Nat) : State :=
  let k := s.port i
  if k.drain ∧ s.portState i = 5 ∧ k.retry.isEmpty ∧ k.txq.isEmpty then s.linkLeaves i 4 2 else s

/-! ## The rows -/

/-- REIN_TRAINING_COMPLETE (R493). -/
def execReinTrainingComplete (port : Fin 16) (ok freqError : Bool) (inverted : BitVec 4) (s : State) : Host.Outcome State Fault Refusal :=
  let t := s.trained port.val ok freqError inverted.toNat
  s.live { s with regs := t.regs, rein := t.rein, svc := t.svc, sent := t.sent }

/-- ALIGN_MARKER_RECEIVE (R482, R483): the fields on the four physical lanes. -/
def execAlignMarkerReceive (port : Fin 16) (fields : List (BitVec 32)) (good fecLock ber : Bool) (s : State) :
    Host.Outcome State Fault Refusal :=
  s.live (s.marker port.val (fields.map (·.toNat)) good fecLock ber)

/-- REIN_INIT_IDENT (R495). -/
def execReinInitIdent (port : Fin 16) (dev : BitVec 16) (peerPort : BitVec 4) (cfg : Word) (numbered : Bool) (s : State) :
    Host.Outcome State Fault Refusal :=
  s.live (s.initIdent port.val dev.toNat peerPort.toNat cfg numbered)

/-- REIN_LINK_DOWN (R494). -/
def execReinLinkDown (port : Fin 16) (cause : BitVec 3) (s : State) : Host.Outcome State Fault Refusal :=
  s.live (s.linkDown port.val cause.toNat)

/-- REIN_RETRY_TIMEOUT (R488). -/
def execReinRetryTimeout (port : Fin 16) (s : State) : Host.Outcome State Fault Refusal := s.live (s.retryTimeout port.val)

/-- REIN_FAILED_RETRY (R493). -/
def execReinFailedRetry (port : Fin 16) (s : State) : Host.Outcome State Fault Refusal :=
  let t := s.failedRetry port.val
  s.live { s with regs := t.regs, rein := t.rein }

/-- RNL_PORT_CFG_WRITE (R494). -/
def execRnlPortCfgWrite (port : Fin 16) (value : Word) (s : State) : Host.Outcome State Fault Refusal :=
  s.live (s.portCfgWrite port.val value)

/-- EYE_SCAN_START (R520): a write of RNL_EYE_CTL. -/
def execEyeScanStart (port : Fin 16) (value : Word) (s : State) : Host.Outcome State Fault Refusal :=
  let t := s.eyeWrite port.val value
  s.live { s with regs := t.regs, rein := t.rein }

/-- EYE_SCAN_DONE (R520). -/
def execEyeScanDone (port : Fin 16) (errors : BitVec 48) (s : State) : Host.Outcome State Fault Refusal :=
  let t := s.eyeDone port.val errors.toNat
  s.live { s with regs := t.regs, rein := t.rein }

/-- LANE_RETRAIN (R607). -/
def execLaneRetrain (port : Fin 16) (s : State) : Host.Outcome State Fault Refusal :=
  let t := s.laneRetrain port.val
  s.live { s with rein := t.rein }

/-- LANE_RETRAIN_DRAINED (R607). -/
def execLaneRetrainDrained (port : Fin 16) (s : State) : Host.Outcome State Fault Refusal := s.live (s.laneDrained port.val)

end Sys2Proof.Machine
end

