-- ==== Sys2Proof/Machine/Clock.lean ====
section
/-!
DEFINITION. What happens as the timebase goes on, whatever is commanded (R26): the boot ROM starts, stopped gaits go on whose
condition has cleared, and the teams go on beat by beat.
-/

namespace Sys2Proof.Machine

/-! ## Teams -/

/-- The MATRIX work a running command has at hand: stage, descriptor or stage record, and the bytes of IN0. -/
def State.matStages (s : State) (c : Cmd) : List (Nat × List Word × Option (List Byte)) :=
  if c.phase ≠ .running ∨ (s.discard c.corral).isSome then []
  else if descClass c.desc = 1 then [(0, c.desc, none)]
  else if descClass c.desc = 5 then
    (upTo c.stages.length).filterMap (fun i =>
      let r := c.stageTabs.getD i []
      let input := (stageInput c i).bind (fun h => c.hands[h]?)
      if descClass r = 1 ∧ stageOf c i = .running ∧ !matIsNoop (matDescOf r) ∧ input.all (fun h => h.closed && h.c == h.p)
          ∧ (c.fold = FoldSt.start ∨ c.owner = i) then some (i, r, input.map (·.got))
      else none)
  else []

/-- The job of gang member `g` of slice j of partition q for the M-chunk a command is at (R91, R96, R190). -/
def State.jobOf (s : State) (c : Cmd) (stage : Nat) (x : MatDesc) (f : MatFmts) (rd : Reader) (q j g : Nat) : TeamJob :=
  let len := s.gangLen c.corral
  let st := (s.gangHeads c.corral).getD (x.gangBase + q * nSlices x f + j) 0 + 32 * g
  { queue := c.queue, seq := c.seq, stage := stage, chunk := c.fold.chunk, corral := c.corral, slice := j
    up := if g = 0 then none else some (st - 32), down := if g + 1 < len then some (st + 32) else none
    slow := x.preserve && f.acc == .fp32
    passes := (passesOf x f rd len q j c.fold.chunk).map (fun b =>
      (((partRange x q).1 + b * blockSpan x len) / (8 * density x.wSparse) + g, rowsStreamed x f rd len q b c.fold.chunk)) }

/-- Sixty-four sets, the missing ones zero. -/
def fullSets (l : List RegSet) : List RegSet := (upTo 64).map (fun i => l.getD i RegSet.zero)

/-- The teams of a MATRIX command or stage take up its present M-chunk, once its streaming data has been brought and the order of
R182 lets them. -/
def State.bindTeams (s : State) (c : Cmd) (e : Nat × List Word × Option (List Byte)) : State :=
  match matWith c e.2.1 e.1 e.2.2 with
  | none => s
  | some (x, f) =>
    let rd := s.matReader c.corral (e.2.2.getD []) ((stageMask c e.1).getD [])
    let stalls := s.gangStalls c.corral x.gangBase (gangsUsed x f)
    let mine (t : TeamSt) : Bool := match t.job with
      | some j => j.queue == c.queue && j.seq == c.seq && j.stage == e.1 && j.chunk == c.fold.chunk
      | none => false
    let through := match s.streamEnd c x f rd e.2.2.isSome with | .through _ => true | _ => false
    if c.fold.streamed ∨ chunkCount x f ≤ c.fold.chunk ∨ stalls.any (fun st => mine (s.team st)) ∨ !s.teamsOpen c stalls ∨ !through then s
    else
      (upTo (shapeKP x.shape)).foldl (fun t q => (upTo (nSlices x f)).foldl (fun t j => (upTo (s.gangLen c.corral)).foldl (fun t g =>
        let job := s.jobOf c e.1 x f rd q j g
        let st := (s.gangHeads c.corral).getD (x.gangBase + q * nSlices x f + j) 0 + 32 * g
        let old := t.team st
        t.setTeam st { TeamSt.withSets (fullSets old.active) (fullSets old.standby) with job := some job }) t) t) s

/-- One beat of a stall's team: its command's streams feed it while none is HALTED. A team whose command has ended is idle. -/
def State.beatTeam (now : State) (st : Nat) (t : State) : State :=
  let old := now.team st
  match old.job with
  | none => t
  | some j =>
    match now.cmd j.queue j.seq with
    | none => t.setTeam st (TeamSt.withSets old.active old.standby)
    | some c =>
      match now.matStages c |>.find? (fun e => e.1 == j.stage) with
      | none => t.setTeam st (TeamSt.withSets old.active old.standby)
      | some e =>
        match matWith c e.2.1 e.1 e.2.2 with
        | none => t
        | some (x, f) =>
          let rd := now.matReader c.corral (e.2.2.getD []) ((stageMask c e.1).getD [])
          let d := t.draw
          let new := teamBeat now st j x f rd d.1.toNat (!now.isHalted c)
          (d.2.setTeam st new).countBeat st old new j (j.up.map now.team)

/-- One beat of every team (R106 to R109). -/
def State.beatTeams (s : State) : State :=
  let b := s.cmds.foldl (fun t c => (s.matStages c).foldl (fun u e => u.bindTeams c e) t) s
  (b.stls.map (·.1)).foldl (fun t st => b.beatTeam st t) b

/-- What the timebase does while no command waits (R26): one nanosecond passes, a device that has left reset starts its boot ROM, the
hold state of every gait is sampled (R27, R345), the teams go on, and rein ports send their codeword pairs (R484). -/
def State.tick (s : State) : State :=
  if s.pwr.held || s.pwr.tripped then s
  else
    let t : State := { s with time := s.time + 1 }
    ((if t.grmPhase = 0 then t.romStart else t).wakeGaits).beatTeams.linePairs

end Sys2Proof.Machine
end

