-- ==== Sys2Proof/Machine/CmdRows.lean ====
section
/-!
DEFINITION. The meanings of the rows of the command interface: the opcode classes (R308, R312) and what happens to the commands in
flight (chapters 04, 08 and 09).
-/

namespace Sys2Proof.Machine

/-- MATRIX (R173). -/
def execMatrix (queue : Fin 65536) (s : State) : Host.Outcome State Fault Refusal :=
  s.live (s.admitRow queue.val .matrix)

/-- VECTOR (R232). -/
def execVector (queue : Fin 65536) (s : State) : Host.Outcome State Fault Refusal :=
  s.live (s.admitRow queue.val .vector)

/-- MOVE_COPY (R275). -/
def execMoveCopy (queue : Fin 65536) (s : State) : Host.Outcome State Fault Refusal :=
  s.live (s.admitRow queue.val .moveCopy)

/-- MOVE_MULTICAST (R279). -/
def execMoveMulticast (queue : Fin 65536) (s : State) : Host.Outcome State Fault Refusal :=
  s.live (s.admitRow queue.val .moveMulticast)

/-- GATHER (R211). -/
def execGather (queue : Fin 65536) (s : State) : Host.Outcome State Fault Refusal :=
  s.live (s.admitRow queue.val .gather)

/-- SCATTER (R211). -/
def execScatter (queue : Fin 65536) (s : State) : Host.Outcome State Fault Refusal :=
  s.live (s.admitRow queue.val .scatter)

/-- SCATTER_ADD (R212). -/
def execScatterAdd (queue : Fin 65536) (s : State) : Host.Outcome State Fault Refusal :=
  s.live (s.admitRow queue.val .scatterAdd)

/-- SCATTER_MIN (R212). -/
def execScatterMin (queue : Fin 65536) (s : State) : Host.Outcome State Fault Refusal :=
  s.live (s.admitRow queue.val .scatterMin)

/-- SCATTER_MAX (R212). -/
def execScatterMax (queue : Fin 65536) (s : State) : Host.Outcome State Fault Refusal :=
  s.live (s.admitRow queue.val .scatterMax)

/-- DRAIN (R152). -/
def execDrain (queue : Fin 65536) (s : State) : Host.Outcome State Fault Refusal :=
  s.live (s.admitRow queue.val .drain)

/-- TANDEM (R288). -/
def execTandem (queue : Fin 65536) (s : State) : Host.Outcome State Fault Refusal :=
  s.live (s.admitRow queue.val .tandem)

/-- TETHER_WAIT (R313). -/
def execTetherWait (queue : Fin 65536) (s : State) : Host.Outcome State Fault Refusal :=
  s.live (s.admitRow queue.val .tetherWait)

/-- TETHER_SIGNAL (R313). -/
def execTetherSignal (queue : Fin 65536) (s : State) : Host.Outcome State Fault Refusal :=
  s.live (s.admitRow queue.val .tetherSignal)

/-- TETHER_ADD (R313). -/
def execTetherAdd (queue : Fin 65536) (s : State) : Host.Outcome State Fault Refusal :=
  s.live (s.admitRow queue.val .tetherAdd)

/-- CTX_SAVE (R156). -/
def execCtxSave (queue : Fin 65536) (s : State) : Host.Outcome State Fault Refusal :=
  s.live (s.admitRow queue.val .ctxSave)

/-- CTX_RESTORE (R160). -/
def execCtxRestore (queue : Fin 65536) (s : State) : Host.Outcome State Fault Refusal :=
  s.live (s.admitRow queue.val .ctxRestore)

/-- FENCE (R324). -/
def execFence (queue : Fin 65536) (s : State) : Host.Outcome State Fault Refusal :=
  s.live (s.admitRow queue.val .fence)

/-- RESYNC (R569). -/
def execResync (queue : Fin 65536) (s : State) : Host.Outcome State Fault Refusal :=
  s.live (s.admitRow queue.val .resync)

/-- STEP (R566). -/
def execStepCmd (queue : Fin 65536) (s : State) : Host.Outcome State Fault Refusal :=
  s.live (s.admitRow queue.val .step)

/-- LEASE_GRANT (R147). -/
def execLeaseGrant (queue : Fin 65536) (s : State) : Host.Outcome State Fault Refusal :=
  s.live (s.grantRow queue.val)

/-- LEASE_WAIT_TIMEOUT (R149). -/
def execLeaseWaitTimeout (queue : Fin 65536) (s : State) : Host.Outcome State Fault Refusal :=
  s.live (s.leaseTimeoutRow queue.val)

/-- TETHER_WAIT_TIMEOUT (R313). -/
def execTetherWaitTimeout (queue : Fin 65536) (seq : BitVec 32) (s : State) : Host.Outcome State Fault Refusal :=
  s.live (s.tetherTimeoutRow queue.val seq.toNat)

/-- DRAIN_RELEASE (R154). -/
def execDrainRelease (queue : Fin 65536) (seq : BitVec 32) (s : State) : Host.Outcome State Fault Refusal :=
  s.live (s.releaseRow queue.val seq.toNat)

/-- TANDEM_STAGE_BEGIN (R290). -/
def execTandemStageBegin (queue : Fin 65536) (seq : BitVec 32) (stage : Fin 8) (s : State) : Host.Outcome State Fault Refusal :=
  s.live (s.stageBeginRow queue.val seq.toNat stage.val)

/-- TANDEM_STAGE_COMPLETE (R290). -/
def execTandemStageComplete (queue : Fin 65536) (seq : BitVec 32) (stage : Fin 8) (s : State) : Host.Outcome State Fault Refusal :=
  s.live (s.stageCompleteRow queue.val seq.toNat stage.val)

/-- COMMAND_COMPLETE (R326). -/
def execCommandComplete (queue : Fin 65536) (seq : BitVec 32) (s : State) : Host.Outcome State Fault Refusal :=
  s.live (s.completeRow queue.val seq.toNat)

/-- TREE_CONTRIB_TIMEOUT (R142). -/
def execTreeContribTimeout (queue : Fin 65536) (seq : BitVec 32) (s : State) : Host.Outcome State Fault Refusal :=
  s.live (s.treeTimeoutRow queue.val seq.toNat)

/-- XLATE_FAULT_HALT (R269). -/
def execXlateFaultHalt (ctx : Fin 131072) (s : State) : Host.Outcome State Fault Refusal :=
  s.live (s.streamHaltRow ctx.val)

/-- STREAM_WATCHDOG_EXPIRY (R284). -/
def execStreamWatchdogExpiry (ctx : Fin 131072) (s : State) : Host.Outcome State Fault Refusal :=
  s.live (s.watchdogRow ctx.val)

/-- MCAST_LAG_EXPIRY (R279). -/
def execMcastLagExpiry (ctx : Fin 131072) (receiver : Fin 4096) (lag : BitVec 64) (s : State) : Host.Outcome State Fault Refusal :=
  s.live (s.lagRow ctx.val receiver.val lag.toNat)

end Sys2Proof.Machine
end

