-- ==== Sys2Proof/Machine/Power.lean ====
section
/-!
DEFINITION. Reset, the voltage loop, temperature, the reference clock, the management interface and the test port (chapter 19).
-/

namespace Sys2Proof.Machine

/-! ## Reset (R621, R622, R624) -/

/-- Registers that reset from fuses: HST_MAC (R330), STL_REPAIR (R121), and RNL_IDENT.LEAD from the strap (R499). DESIGN CHOICE (log 118): a spare row
that fuses switch in at power-on leaves STL_EVENT.REPAIR at its reset value 0 (R111, R120). -/
def State.fuseRegs (s : State) : State :=
  let s1 := (upTo 4).foldl (fun t p => t.setFld .HST_MAC p 0 47 0 (smGet (fun _ => 0) s.fuse.macs p)) s
  let s2 := s.fuse.rows.foldl (fun (t : State) e =>
    (t.setReg .STL_REPAIR e.1 0 (BitVec.ofNat 64 (e.2 % 8 * 16 + 1))).setRepair e.1 { RepairSt.idle with row8 := true, row := e.2 % 8 }) s1
  let s3 := s.fuse.spares.foldl (fun (t : State) e =>
    t.setRepair e.2 { t.repair e.2 with retired := true, spare := some e.1 }) s2
  s3.settleRole

/-- The device after a reset (R621): only fuses, flash and the model's own queue, free values and record of the wires stay. -/
def State.powerUp (s : State) (held lead : Bool) : State :=
  State.fuseRegs { State.reset with pending := s.pending, draws := s.draws, sent := s.sent, fuse := s.fuse
                                    pwr := { PwrSt.reset with held := held, roleLead := lead } }

/-- A low level on PORST_N (R624). Between 100 ns and 1 µs it may or may not reset the device: a free value. -/
def State.porst (s : State) (ns : Nat) : State :=
  if ns < 100 then s
  else if 1000 ≤ ns then s.powerUp true s.pwr.roleLead
  else
    let t : State := { s with draws := s.draws + 1 }
    if Config.shortPulseResets s.draws then t.powerUp true s.pwr.roleLead else t

/-! ## PMBus (R625, R627) -/

/-- Send a PMBus command to a die's regulator; a setpoint is given in mV. -/
def State.pmbus (s : State) (die code v : Nat) : State :=
  { s with sent := .pmbus (s.fld .PWR_VRM 0 die 6 0) code v :: s.sent }

/-- A bit of a field of PWR_STATUS: HOT 8, CAPPED 12, PMB_FAULT 16. -/
def State.pwrBit (s : State) (f die : Nat) : Bool := (s.reg .PWR_STATUS 0 0).bit (f + die)

/-- Set or clear it; a bit that becomes 1 sets its event (R636). -/
def State.setPwrBit (s : State) (f die ev : Nat) (v : Bool) : State :=
  let t := s.setFld .PWR_STATUS 0 0 (f + die) (f + die) (b2n v)
  if v && !s.pwrBit f die then t.raise0 .pwr 0 ev else t

/-- A die's setpoint, mV (R636). -/
def State.setpoint (s : State) (die : Nat) : Nat := s.fld .PWR_DIE 0 die 31 16

/-- Move a setpoint; one that a PMBus fault holds stays (R627). -/
def State.moveSetpoint (s : State) (die v : Nat) : State :=
  if s.pwrBit 16 die ∨ v = s.setpoint die then s else (s.setFld .PWR_DIE 0 die 31 16 v).pmbus die 0x21 v

/-! ## The voltage loop (R626) -/

/-- The readings of a pass: the sensor corrected by its offset (R627), the current, the package power and its energy since the last
pass of die 0 (100 µs; R636). -/
def State.readings (s : State) (die temp vmeas iout power : Nat) (ok : Bool) : State :=
  let v := wrapInt 16 ((vmeas : Int) + smGet (fun _ => 0) s.pwr.offsets die)
  let s1 := (s.setFld .PWR_DIE 0 die 63 48 temp).setFld .PWR_DIE 0 die 47 32 v
  let s2 := if ok then s1.setFld .PWR_DIE 0 die 15 0 iout else s1
  let e := if die = 0 then s2.pwr.energy + power else s2.pwr.energy
  let s3 := s2.bump .PWR_ENERGY 0 0 (e / 10)
  { s3 with pwr := { s3.pwr with power := power, energy := e % 10 } }

/-- The loop's decision: HOT, CAPPED and the new setpoint. `t` is TEMP in 1/16 °C. -/
structure LoopOut where
  hot : Bool
  capped : Bool
  sp : Nat
  deriving DecidableEq, Repr

/-- One pass of R626 on plain numbers. -/
def loopPass (t : Int) (warn power watts rate target vmin vmax est sp : Nat) (hot capped : Bool) : LoopOut :=
  let cool := hot && !decide (t < 16 * ((warn : Int) - 3))
  if 16 * (warn : Int) ≤ t then { hot := true, capped := capped, sp := max (sp - 5) vmin }
  else if watts < power then { hot := cool, capped := true, sp := max (sp - 5) vmin }
  else if rate < target then
    if sp < vmax ∧ power + est ≤ watts then { hot := cool, capped := false, sp := sp + 5 }
    else { hot := cool, capped := capped || decide (sp < vmax), sp := sp }
  else if target + 30 < rate ∧ vmin < sp then { hot := cool, capped := false, sp := sp - 5 }
  else { hot := cool, capped := false, sp := sp }

/-- VOLTAGE_LOOP_PASS (R626, R627). -/
def State.voltageLoop (s : State) (die temp vmeas iout rate power est : Nat) (pmbOk : Bool) : State :=
  if s.grmPhase ≠ 4 then s
  else
    let ok := pmbOk && !s.pwrBit 16 die
    let s1 := (s.readings die temp vmeas iout power ok)
    let s2 := if pmbOk then s1 else s1.setPwrBit 16 die 2 true
    let lo := s2.reg .PWR_LOOP 0 0
    let r := loopPass (signedOf 16 temp) (s2.fld .PWR_THERM 0 0 7 0) power (s2.fld .PWR_LIMIT 0 0 15 0) rate (lo.fld 43 32)
      (lo.fld 15 0) (lo.fld 31 16) est (s2.setpoint die) (s2.pwrBit 8 die) (s2.pwrBit 12 die)
    ((s2.setPwrBit 8 die 0 r.hot).setPwrBit 12 die 1 r.capped).moveSetpoint die r.sp

/-- A faulted regulator is tried again (R627). -/
def State.pmbRetry (s : State) (die : Nat) (ok : Bool) : State :=
  if s.firmwareRuns ∧ s.pwrBit 16 die then
    let t := s.pmbus die 0x79 0
    if ok then t.setPwrBit 16 die 2 false else t
  else s

/-- Voltage recalibration (R627): the sensor's offset makes it read what the regulator does. -/
def State.voltageRecal (s : State) (die : Nat) (vout : Option Nat) : State :=
  if s.grmPhase ≠ 4 ∨ !s.feature 8 ∨ s.pwrBit 16 die then s
  else
    match vout with
    | none => s.setPwrBit 16 die 2 true
    | some v =>
      let old := smGet (fun _ => (0 : Int)) s.pwr.offsets die
      let new := old + (v : Int) - (s.fld .PWR_DIE 0 die 47 32 : Int)
      { s with pwr := { s.pwr with offsets := smSet (fun _ => (0 : Int)) s.pwr.offsets die new } }

/-- A thermal trip (R628): everything stops, the regulators are turned off, and nothing follows until power is removed. -/
def State.thermalTrip (s : State) : State :=
  let t := (upTo 4).foldl (fun u d => u.pmbus d 1 0) s
  { t with pwr := { t.pwr with tripped := true } }

/-! ## The management interface (R634) -/

/-- The hottest junction, °C (R634). DESIGN CHOICE (log 93): rounded down. -/
def State.hottest (s : State) : Int :=
  (upTo 4).foldl (fun m d => max m (signedOf 16 (s.fld .PWR_DIE 0 d 63 48) / 16)) (-2048)

/-- The word an SMBus Read Word command returns; none is a NAK. -/
def State.i2cWord (s : State) (cmd : Nat) : Option (BitVec 16) :=
  if s.pwr.held || s.pwr.tripped then none
  else
    match cmd with
    | 1 => some (BitVec.ofInt 16 s.hottest)
    | 2 => some (BitVec.ofNat 16 s.pwr.power)
    | 3 => some (BitVec.ofNat 16 s.grmPhase)
    | 4 => some (BitVec.ofNat 16 s.cfgState)
    | _ => none

/-! ## Pins (R402, R600, R633) -/

/-- CONF_FAIL is driven low: the device is configured and did not fall back. -/
def State.confFailLow (s : State) : Bool :=
  !s.pwr.held && (s.cfgState == 2 || s.cfgState == 3) && s.fld .CFG_STATUS 0 0 25 25 == 0

/-- DEV_ALERT_N is low. -/
def State.alertLow (s : State) : Bool := s.pwr.tripped || (!s.pwr.held && s.alert)

/-- What the test port makes a boundary-scan cell do: none leaves it in service; otherwise off, or driven to a value (R633). -/
def TapSt.drives (t : TapSt) (cell : Nat) : Option (Option Bool) :=
  match t.ins with
  | .extest => some ((t.preload.find? (fun e => e.1 == cell)).map (·.2))
  | .clamp => some ((t.preload.find? (fun e => e.1 == cell)).map (·.2))
  | .highz => some none
  | _ => none

/-- Boundary-scan cells by number. -/
def scanCells (l : List (BitVec 10 × Bool)) : List (Nat × Bool) := l.map (fun e => (e.1.toNat, e.2))

/-! ## The rows

Those of reset and of the test port act also while the device is held in reset. -/

/-- POWER_ON_RESET (R622). -/
def execPowerOnReset (roleLead : Bool) (s : State) : Host.Outcome State Fault Refusal := .next (s.powerUp false roleLead)

/-- PORST_N_ASSERT (R624). -/
def execPorstAssert (ns : Nat) (s : State) : Host.Outcome State Fault Refusal := .next (s.porst ns)

/-- SUPPLY_UNDERVOLTAGE (R624). -/
def execSupplyUndervoltage (s : State) : Host.Outcome State Fault Refusal := .next (s.powerUp true s.pwr.roleLead)

/-- REFCLK_LOSS (R631). -/
def execRefclkLoss (s : State) : Host.Outcome State Fault Refusal := .next (s.powerUp true s.pwr.roleLead)

/-- THERMAL_TRIP (R628), of any die. -/
def execThermalTrip (_die : Fin 4) (s : State) : Host.Outcome State Fault Refusal :=
  s.liveAll { s.thermalTrip with time := s.time, fuse := s.fuse, tap := s.tap }

/-- VOLTAGE_LOOP_PASS (R626). -/
def execVoltageLoopPass (die : Fin 4) (temp vmeas iout : BitVec 16) (rate power : BitVec 12) (est : BitVec 8) (pmbOk : Bool) (s : State) :
    Host.Outcome State Fault Refusal :=
  let t := s.voltageLoop die.val temp.toNat vmeas.toNat iout.toNat rate.toNat power.toNat est.toNat pmbOk
  s.liveAll { s with regs := t.regs, pwr := t.pwr, svc := t.svc, sent := t.sent }

/-- PMBUS_RETRY_TIMER (R627). -/
def execPmbusRetryTimer (die : Fin 4) (ok : Bool) (s : State) : Host.Outcome State Fault Refusal :=
  let t := s.pmbRetry die.val ok
  s.live { s with regs := t.regs, svc := t.svc, sent := t.sent }

/-- VOLTAGE_RECAL (R627). -/
def execVoltageRecal (die : Fin 4) (vout : Option (BitVec 16)) (s : State) : Host.Outcome State Fault Refusal :=
  let t := s.voltageRecal die.val (vout.map (·.toNat))
  s.liveAll { s with regs := t.regs, svc := t.svc, pwr := t.pwr }

/-- I2C_READ_WORD (R634): a device in reset does not acknowledge. -/
def execI2cReadWord (command : BitVec 8) (s : State) : Host.Outcome State Fault Refusal :=
  .next { s with sent := .i2c (s.i2cWord command.toNat) :: s.sent }

/-- BYPASS (R633). -/
def execTapBypass (s : State) : Host.Outcome State Fault Refusal := .next { s with tap := { s.tap with ins := .bypass, shift := 0 } }

/-- IDCODE (R633, R389). -/
def execTapIdcode (s : State) : Host.Outcome State Fault Refusal :=
  .next { s with tap := { s.tap with ins := .idcode, shift := 0x1307296B } }

/-- SAMPLE/PRELOAD (R633): the cells take a snapshot, and `drive` is preloaded. -/
def execTapSample (pins drive : List (BitVec 10 × Bool)) (s : State) : Host.Outcome State Fault Refusal :=
  .next { s with tap := { s.tap with ins := .sample, sampled := scanCells pins, preload := scanCells drive } }

/-- EXTEST (R633). -/
def execTapExtest (drive : List (BitVec 10 × Bool)) (s : State) : Host.Outcome State Fault Refusal :=
  .next { s with tap := { s.tap with ins := .extest, preload := scanCells drive } }

/-- CLAMP (R633): bypass is selected. -/
def execTapClamp (s : State) : Host.Outcome State Fault Refusal := .next { s with tap := { s.tap with ins := .clamp, shift := 0 } }

/-- HIGHZ (R633): bypass is selected. -/
def execTapHighz (s : State) : Host.Outcome State Fault Refusal := .next { s with tap := { s.tap with ins := .highz, shift := 0 } }

/-- TAP_RESET (R633). -/
def execTapReset (s : State) : Host.Outcome State Fault Refusal := .next { s with tap := TapSt.reset }

end Sys2Proof.Machine
end

