-- ==== Sys2Proof/Machine/Regs.lean ====
section
/-!
DEFINITION. Reading and writing registers (R8 to R14, R638): what registers that only mirror other state show, and what a write of each
register starts.
-/

namespace Sys2Proof.Machine

/-! ## Registers that mirror other state -/

/-- Bits of a list of numbers. -/
def bitSet (l : List Nat) : Nat := l.foldl (fun a b => a + 2 ^ b) 0

/-- A stall that belongs to no corral, or to a region in quarantine (R33, R402). -/
def State.stlHeld (s : State) (st : Nat) : Bool := (s.owner .stall st).isNone || s.stlShut st

/-- Gang length and position of a stall (R95, R115). -/
def State.gangOf (s : State) (st : Nat) : Nat × Nat :=
  match s.owner .stall st with
  | none => (0, 0)
  | some c =>
    let l := s.gangLen c
    match (s.gangHeads c).find? (fun h => (gangMembers h l).contains st) with
    | some h => (l, (st - h) / 32)
    | none => (1, 0)

/-- STL_ID (R115). -/
def State.viewStlId (s : State) (st : Nat) (w : Word) : Word :=
  let held := s.stlHeld st
  let g := if held then (0, 0) else s.gangOf st
  ((((w.put 43 43 (b2n (s.repair st).spare.isSome)).put 42 38 g.2).put 37 33 g.1).put 32 32 (b2n held)).put 31 24 ((s.owner .stall st).getD 0)

/-- A descriptor that names a stall waits for its tether at the head of its queue. -/
def State.tetherWaits (s : State) (st : Nat) : Bool :=
  s.queues.any (fun e =>
    match e.2.waiter with
    | some w =>
      let c := s.queueCorral e.1
      w.at_ == .tether && (s.stallsUsed c w.desc (if descClass w.desc = 5 then s.stageRecords c w.desc else [])).contains st
    | none => false)

/-- STL_STATUS.STATE (R117), the first that applies. DESIGN CHOICE (log 132), where the spec names a state and not what makes it apply: a stall is
IDLE when no running command uses its team and no head of a queue that names it waits for a tether; it is in WAIT_NET while a stream of the
team's command is HALTED or WAITING. -/
def State.stlState (s : State) (st : Nat) (user : Option Cmd) : Nat :=
  let t := s.team st
  let above := (t.job.bind (·.up)).map s.team
  if s.stlHeld st then 7
  else if user.isNone ∧ !s.tetherWaits st then 0
  else if user.isNone then 6
  else match t.job with
    | some j =>
      if relayWaits t j then 4
      else if user.any (fun c => c.ctxs.any (fun i => (s.ctx i).phase == .halted || (s.ctx i).phase == .waiting)) then 5
      else if (upTo 8).any (fun col => colWaits t j col) then 3
      else if (upTo 8).any (fun row => rowWaits t t j above row) then 2
      else 1
    | none => if user.any (fun c => c.ctxs.any (fun i => (s.ctx i).phase == .halted || (s.ctx i).phase == .waiting)) then 5 else 1

/-- The standby state's code (R90). -/
def standbyCode : Standby → Nat
  | .empty => 0 | .loading => 1 | .ready => 2 | .swapping => 3

/-- STL_STATUS (R116, R117). -/
def State.viewStlStatus (s : State) (st : Nat) : Word :=
  let user := s.teamUser st
  let t := s.team st
  let q := match user with | some c => 2 ^ 48 + c.queue * 2 ^ 32 | none => 0
  BitVec.ofNat 64 (q + s.fld .STL_REPAIR st 0 0 0 * 2 ^ 14 + standbyCode t.phase * 2 ^ 12 + t.colq * 16 + b2n t.quiet * 8 + s.stlState st user)

/-- STL_SEQ_STATUS (R240, R245). -/
def State.viewSeqStatus (s : State) (st : Nat) : Word :=
  let q := s.seqr st
  match q.active with
  | some b =>
    let k := q.bank b
    BitVec.ofNat 64 (2 ^ 48 + k.queue * 2 ^ 32 + k.pc % 2048 * 64 + 2 + b2n b)
  | none => BitVec.ofNat 64 (q.lastPc % 2048 * 64 + b2n q.last)

/-- STL_SEQ_BANKn (R246). -/
def State.viewSeqBank (s : State) (st n : Nat) : Word :=
  let k := (s.seqr st).bank (n == 1)
  let q := if k.phase = .free then 0 else 2 ^ 48 + k.queue * 2 ^ 32
  BitVec.ofNat 64 (q + k.rank % 4096 * 2 ^ 20 + k.pc % 2048 * 64 + bankCode k.phase)

/-- STL_PSTORE_VERIFIED (R247): every instruction of a page is verified. -/
def State.viewVerified (s : State) (st : Nat) : Word :=
  let v := (s.seqr st).verified
  BitVec.ofNat 64 (bitSet ((upTo 32).filter (fun p => (upTo 64).all (fun i => smGet (fun _ => false) v (64 * p + i)))))

/-- STL_SEQ_Bn_Sn (R249). -/
def State.viewScalar (s : State) (st : Nat) (b : Bool) (n : Nat) : Word :=
  let k := (s.seqr st).bank b
  if k.phase = .free then 0 else k.sreg n

/-- VEC_VIEWn (R254, R255). -/
def State.viewVec (s : State) (st n : Nat) : Word :=
  let sel := s.reg .VEC_VIEW_SEL st 0
  let k := (s.seqr st).bank (sel.bit 6)
  if k.phase = .free then 0
  else
    let bits := if sel.bit 5 then (k.mreg (sel.fld 4 0)).toNat else (k.vreg (sel.fld 4 0)).toNat
    BitVec.ofNat 64 (bits / 2 ^ (64 * n))

/-- VEC_STATUS (R251): an instruction in flight is one whose bank waits. -/
def State.viewVecStatus (s : State) (st : Nat) : Word :=
  let q := s.seqr st
  let wait (k : BankSt) : Bool := match k.wait with | .none => false | .halted => false | _ => k.phase != .free
  let disp (k : BankSt) : Bool := match k.wait with | .dispatch _ => k.phase != .free | _ => false
  let n := b2n (wait q.bank0) + b2n (wait q.bank1)
  BitVec.ofNat 64 (n * 2 ^ 32 + b2n (disp q.bank0 || disp q.bank1) * 4 + b2n (n != 0) * 2)

/-- Segments of a stall that commands lease, with their queues (R146, R165). -/
def State.leasedSegs (s : State) (st : Nat) : List (Nat × Nat) :=
  s.cmds.flatMap (fun c => (c.segs.filter (fun k => k / 64 == st)).map (fun k => (k % 64, c.queue)))

/-- ACS_STATUS (R164). DESIGN CHOICE (log 132): SPILLING reads 0, for the spills of an M-chunk happen with its streamed rows, in one step. -/
def State.viewAcsStatus (s : State) (st : Nat) : Word :=
  let waiters := (s.queues.filter (fun e =>
    match e.2.waiter with
    | some w => w.at_ == .grant && !w.noop && (s.descNeed (s.queueCorral e.1) w.desc).segs.any (fun k => k / 64 == st)
    | none => false)).length
  BitVec.ofNat 64 (min waiters 0xFFFF * 2 ^ 16 + b2n (s.cmds.any (fun c => (s.storeStalls c true).contains st)) * 2 ^ 14
    + b2n (s.cmds.any (fun c => (s.awaits c).contains st)) * 2 ^ 13 + ((s.leasedSegs st).map (·.1)).eraseDups.length)

/-- ACS_LEASED, ACS_RESIDENT, ACS_WIDE (R165). -/
def viewSegs (f : Nat → Bool) : Word := BitVec.ofNat 64 (bitSet ((upTo 64).filter (fun g => f g)))

/-- ACS_SEG_STATEn (R169). -/
def State.viewSegState (s : State) (st g : Nat) : Word :=
  let x := acsSeg s.acs st g
  let h := (s.leasedSegs st).find? (fun e => e.1 == g)
  BitVec.ofNat 64 ((match h with | some e => e.2 * 2 ^ 48 + 2 ^ 23 | none => 0) + x.phase % 65536 * 2 ^ 32 + b2n x.valid * 2 ^ 22
    + b2n x.wide * 2 ^ 21 + b2n x.sgn * 2 ^ 20 + x.fmt % 16 * 2 ^ 16)

/-- ACS_SEG_PRODn (R170). -/
def State.viewSegProd (s : State) (st g : Nat) : Word :=
  let x := acsSeg s.acs st g
  BitVec.ofNat 64 (x.prodQueue % 65536 * 2 ^ 32 + x.prodSeq % 2 ^ 32)

/-- PDK_ID (R368). -/
def State.viewPdkId (s : State) (p : Nat) (w : Word) : Word :=
  let o := s.owner .paddock p
  let w1 := ((w.put 44 44 (b2n o.isNone)).put 43 36 (o.getD 0)).put 35 28 (s.pdkRegion p)
  match groupNo p s.cfg.live.groups with
  | some g => (w1.put 45 45 1).put 53 46 g
  | none => w1

/-- CAPTURE and REPLAY codes (R369). -/
def probeCode : ProbePhase → Nat
  | .off => 0 | .armed => 1 | .running => 2 | .done => 3

/-- Why the tick of a paddock is stretched, by the codes of PDK_STATUS.GAIT (R344, R369): 1 where it is not. A stretch of one member of a
group stretches them all (R348). -/
def State.stretchCode (s : State) (p : Nat) : Nat :=
  if s.time * 1000 ≤ (s.pdk p).lastEdge * 1000 + s.pdkPeriod p then 1
  else
    match (s.edgeHeld p :: (s.gaitMembers p).map s.edgeHeld).find? (· != 0) with
    | some n => n
    | none => 1

/-- PDK_STATUS (R369). -/
def State.viewPdkStatus (s : State) (p : Nat) : Word :=
  let k := s.pdk p
  let shut := s.pdkShut p
  let gait := if shut then 6 else if !s.pdkTicks p then 0 else if k.stopped then 5 else s.stretchCode p
  BitVec.ofNat 64 (k.fifo.length % 8 * 2 ^ 20 + probeCode k.cap * 2 ^ 16 + probeCode k.rep * 2 ^ 14 + gait * 2 ^ 8 + b2n shut * 4
    + k.stage % 4)

/-- PDK_GAIT (R370): the replica of a gait that does not tick or is stopped is powered down (R345). -/
def State.viewPdkGait (s : State) (p : Nat) : Word :=
  if pdkUnused s.cfg.frames p then 0
  else
    let g := s.groupOf p
    let depth := if g.isSome then maxOf ((s.groupMembers p).map s.pdkDepth) else s.pdkDepth p
    let period := if s.pdkTicks p && !(s.pdk p).stopped then s.pdkPeriod p else 0
    BitVec.ofNat 64 (period % 65536 * 2 ^ 32 + depth % 32 * 256 + (match g with | some (_, h) => h % 32 | none => 0))

/-- CFG_REGION_STATUS of a region (R416). -/
def State.viewRegion (s : State) (r : Nat) : Word :=
  let g := s.region r
  BitVec.ofNat 64 (g.epoch % 2 ^ 32 * 2 ^ 32 + b2n g.quarantined * 8 + b2n g.loading * 4 + g.stage % 4)

/-- NOC_STATUS (R442). -/
def State.viewNoc (s : State) (die : Nat) : Word :=
  BitVec.ofNat 64 ((s.noc.held.filter (fun e => e.1 / 65536 == die)).length * 2 ^ 32
    + (s.noc.reqs.filter (fun e => e.1 / 65536 == die)).length)

/-- Is a stall traced (R555)? -/
def State.traced (s : State) (st : Nat) : Bool := (s.reg .DBG_TRACE_STALL 0 (st / 64)).bit (st % 64)

/-- DBG_TRACE_STATUS.ACTIVE (R574): the die takes samples. -/
def State.traceActive (s : State) (die : Nat) : Bool :=
  (s.reg .DBG_TRACE_CFG 0 0).bit 63 && !(s.reg .DBG_TRACE_STATUS 0 0).bit die
    && (upTo 12).any (fun n => s.reg .DBG_TRACE_STALL 0 (12 * die + n) != 0)

/-- Word w of a byte string. -/
def wordOf (bs : List Byte) (w : Nat) : Word := BitVec.ofNat 64 (wordAt bs (8 * w))

/-- SEC_STATUS (R554). -/
def State.viewSec (s : State) : Word :=
  BitVec.ofNat 64 (s.fuse.ownerBits * 2 ^ 16 + s.fuse.vendorBits * 2 ^ 8 + b2n s.groom.sessionKey.isSome * 4
    + b2n s.fuse.imageKey.isSome * 2 + b2n (s.fuse.idSecret != 0))

/-- What a register reads as. -/
def State.regView (s : State) (p : RegPlace) : Word :=
  let w := s.reg p.reg p.inst p.idx
  match p.reg with
  | .STL_ID => s.viewStlId p.inst w
  | .STL_STATUS => s.viewStlStatus p.inst
  | .STL_ROUTE => BitVec.ofNat 64 (fmWord s.cfg.frames (stallFrame p.inst) p.idx)
  | .STL_SEQ_STATUS => s.viewSeqStatus p.inst
  | .STL_SEQ_BANK => s.viewSeqBank p.inst p.idx
  | .STL_PSTORE_VERIFIED => s.viewVerified p.inst
  | .STL_SEQ_B0_S => s.viewScalar p.inst false p.idx
  | .STL_SEQ_B1_S => s.viewScalar p.inst true p.idx
  | .ACS_STATUS => s.viewAcsStatus p.inst
  | .ACS_LEASED => viewSegs (fun g => (s.leasedSegs p.inst).any (fun e => e.1 == g))
  | .ACS_RESIDENT => viewSegs (fun g => (acsSeg s.acs p.inst g).valid)
  | .ACS_WIDE => viewSegs (fun g => (acsSeg s.acs p.inst g).wide)
  | .ACS_SEG_STATE => s.viewSegState p.inst p.idx
  | .ACS_SEG_PROD => s.viewSegProd p.inst p.idx
  | .VEC_STATUS => s.viewVecStatus p.inst
  | .VEC_VIEW => s.viewVec p.inst p.idx
  | .PDK_ID => s.viewPdkId p.inst w
  | .PDK_STATUS => s.viewPdkStatus p.inst
  | .PDK_GAIT => s.viewPdkGait p.inst
  | .PDK_STRETCH_NS => s.countNow p
  | .PDK_STOP_NS => s.countNow p
  | .PDK_TICK => if (s.pdk p.inst).stage < 2 then 0 else BitVec.ofNat 64 ((s.pdk p.inst).tick % 2 ^ 48)
  | .CFG_QUARANTINE => BitVec.ofNat 64 (bitSet ((upTo 64).filter (fun b => (s.region (64 * p.idx + b)).quarantined)))
  | .CFG_REGION_DIGEST => BitVec.ofNat 64 ((s.region (s.fld .CFG_REGION_SEL 0 0 7 0)).digest / 2 ^ (64 * p.idx))
  | .CFG_REGION_STATUS => s.viewRegion (s.fld .CFG_REGION_SEL 0 0 7 0)
  | .NOC_STATUS => s.viewNoc p.inst
  | .GRM_MBOX => if s.grmBusy then 0 else w
  | .SEC_STATUS => s.viewSec
  | .SEC_SVN => BitVec.ofNat 64 (s.fuse.svnMin % 256)
  | .SEC_SERIAL => BitVec.ofNat 64 s.fuse.serial
  | .SEC_ID_PUB => if s.fuse.idSecret = 0 then 0 else wordOf (leBytes 57 (Config.ed448Public s.fuse.idSecret).toNat) p.idx
  | .SEC_OWNER_HASH =>
    let k := s.fuse.owner (p.idx / 4)
    if k.st = .empty then 0 else BitVec.ofNat 64 (k.hash / 2 ^ (64 * (p.idx % 4)))
  | .SEC_FUSE_DIGEST => BitVec.ofNat 64 (s.fuse.digest / 2 ^ (64 * p.idx))
  | .DBG_TRACE_STATUS => w.put 7 4 (bitSet ((upTo 4).filter s.traceActive))
  | .PWR_STATUS => w.put 0 0 (b2n s.ready)
  | _ => w

/-- One aligned 8-byte read of the register windows (R8, R9): a hole reads zero and is counted. DESIGN CHOICE (log 128): an address of the
400 MiB range that lies in no block's window is a hole too. -/
def State.regRead (s : State) (a : Nat) : Word × State :=
  if a % 8 ≠ 0 then (0, s.badReg)
  else match regAt a with
    | some p => (s.regView p, s)
    | none => (0, s.badReg)

/-! ## Host ports (R328, R329) -/

/-- The bits [3:0] and [11:8] of a host port's status (R328): a link that is up has signal and every lock; one that is down shows what
the line shows, PCS lock only with all lanes locked. -/
def linkBits (up signal pcs fec : Bool) (lanes : Nat) : Nat × Nat :=
  if up then (15, 15) else (8 * b2n fec + 4 * b2n (pcs && lanes == 15) + 2 * b2n signal, lanes)

/-- A host port's link comes up or goes down (R299, R328). -/
def State.hostLink (s : State) (p : Nat) (up signal pcs fec : Bool) (lanes : Nat) (anDone : Bool) : State :=
  let was := s.linkUp p
  let w := s.reg .HST_PORT_STATUS p 0
  let l := linkBits up signal pcs fec lanes
  let w1 := ((w.put 11 8 l.2).put 6 6 (b2n anDone)).put 3 0 l.1
  let s1 := s.setReg .HST_PORT_STATUS p 0 w1
  let s2 := if was && !up then s1.resetQp (2048 * p) else s1
  if was != up then s2.raise0 .hst p 0 else s2

/-- A write of HST_PORT_CFG (R292, R329): the link goes down where the port is disabled or its attachment changes. -/
def State.hostPortCfg (s : State) (p : Nat) (v : Word) : State :=
  let s1 := s.setReg .HST_PORT_CFG p 0 (regWritten .HST_PORT_CFG (s.reg .HST_PORT_CFG p 0) v)
  let c := s1.reg .HST_PORT_CFG p 0
  let phy := if c.bit 0 then c.fld 5 4 else 0
  if phy = s1.fld .HST_PORT_STATUS p 0 5 4 then s1
  else
    let s2 := if s1.linkUp p then s1.hostLink p false false false false 0 false else s1
    s2.setFld .HST_PORT_STATUS p 0 5 4 phy

/-! ## Writes -/

/-- Bits of an enable register that become 1 while their event bit is 1 produce event records (R600). -/
def State.enableEvents (s : State) (b : Blk) (inst : Nat) (v : Word) : State :=
  match evRegs b with
  | none => s
  | some (ev, en, blk) =>
    let old := s.reg en inst 0
    let new := regWritten en old v
    let s1 := s.setReg en inst 0 new
    (upTo 64).foldl (fun (t : State) k =>
      if new.bit k && !old.bit k && (t.reg ev inst 0).bit k then t.pushEvent blk inst k 0 0xFFFF none (t.eventDetail b inst) else t) s1

/-- Is a register the enable register of its block? -/
def isEnable (r : Reg) (b : Blk) : Bool := match evRegs b with | some (_, en, _) => r == en | none => false

/-- The address of a latch selector names a counter (R562): with REL, one of linear stall 0. -/
def selectorOk (v : Word) : Bool :=
  let a := v.fld 56 3 * 8
  match regAt a with
  | some p =>
    isCounterReg p.reg && (!v.bit 62 || (p.inst == 0 && (match (regInfo p.reg).blk with | .stl | .acs | .vec => true | _ => false)))
  | none => false

/-- A write of DBG_LATCH_SELs (R13, R562). -/
def State.latchSelWrite (s : State) (i : Nat) (v : Word) : State :=
  let old := s.reg .DBG_LATCH_SEL 0 i
  let new := regWritten .DBG_LATCH_SEL old v
  s.setReg .DBG_LATCH_SEL 0 i (if selectorOk new then new else new.put 56 3 (old.fld 56 3))

/-- A write that only stores. -/
def State.plainWrite (s : State) (p : RegPlace) (v : Word) : State :=
  s.setReg p.reg p.inst p.idx (regWritten p.reg (s.reg p.reg p.inst p.idx) v)

/-- Trace rings cannot be moved while trace is on (R558). -/
def State.traceOn (s : State) : Bool := (s.reg .DBG_TRACE_CFG 0 0).bit 63

/-! ### Trace blocks (R556, R558) -/

/-- Trace state of a die. -/
def State.traceDie (s : State) (d : Nat) : TraceDie := smGet (fun _ => TraceDie.idle) s.obs.dies d
def State.setTraceDie (s : State) (d : Nat) (v : TraceDie) : State :=
  { s with obs := { s.obs with dies := smSet (fun _ => TraceDie.idle) s.obs.dies d v } }

/-- Close a die's open block and write it into its ring as a WRITE-class unit (R556, R558). A ring that HBM does not hold takes nothing. -/
def State.closeBlock (s : State) (d : Nat) : State :=
  let k := s.traceDie d
  match k.block with
  | [] => s
  | b :: _ =>
    let full := s.fld .DBG_TRACE_LEN 0 d 31 0
    let next := s.fld .DBG_TRACE_WPTR 0 d 31 0
    let wrap := (s.reg .DBG_TRACE_CFG 0 0).bit 62
    let ws := [b.stamp, k.seq, min k.lost 0xFFFFFFFF * 2 ^ 32 + k.block.length * 256 + d, 0]
      ++ k.block.map (fun x => (x.stamp - b.stamp) % 2 ^ 18 * 2 ^ 46 + x.word) ++ List.replicate (60 - k.block.length) 0
    let a := s.fld .DBG_TRACE_BASE 0 d 56 9 * 512 + 512 * next
    let s1 := if a + 512 ≤ hbmTop ∧ s.hbmServed a then (s.blockUnit .trace none true a).wr a (ws.flatMap (leBytes 8)) else s
    let s2 := s1.setTraceDie d { block := [], lost := 0, seq := k.seq + 1 }
    if full ≤ next + 1 then
      if wrap then
        s2.setReg .DBG_TRACE_WPTR 0 d (BitVec.ofNat 64 ((s.fld .DBG_TRACE_WPTR 0 d 63 32 + 1) % 2 ^ 32 * 2 ^ 32))
      else ((s2.setFld .DBG_TRACE_WPTR 0 d 31 0 (next + 1)).setFld .DBG_TRACE_STATUS 0 0 d d 1).raise0 .dbg 0 2
    else s2.setFld .DBG_TRACE_WPTR 0 d 31 0 (next + 1)

/-- A write of DBG_TRACE_CFG (R556, R558). -/
def State.traceCfg (s : State) (v : Word) : State :=
  let was := s.traceOn
  let s1 := s.setReg .DBG_TRACE_CFG 0 0 (regWritten .DBG_TRACE_CFG (s.reg .DBG_TRACE_CFG 0 0) v)
  if !was ∧ s1.traceOn then
    (upTo 4).foldl (fun (t : State) d => (t.setReg .DBG_TRACE_WPTR 0 d 0).setTraceDie d TraceDie.idle)
      (s1.setFld .DBG_TRACE_STATUS 0 0 3 0 0)
  else if was ∧ !s1.traceOn then (upTo 4).foldl (fun t d => t.closeBlock d) s1
  else s1

/-- A write of a defined register. -/
def State.regPut (s : State) (p : RegPlace) (v : Word) : State :=
  let b := (regInfo p.reg).blk
  match p.reg with
  | .CFG_LOAD => s.cfgLoad v
  | .CFG_RELEASE => s.cfgRelease v
  | .CFG_CONSIST_CTL => s.consistWrite v
  | .HST_QCTL => s.qctl v
  | .HST_QP_CMD => s.qpCmd v
  | .HST_XLATE_INVAL => s.xlateInval v
  | .HST_QTABLE_BASE => let t := s.plainWrite p v; { t with svc := { t.svc with qtableSet := true } }
  | .HST_QP_TABLE_BASE => let t := s.plainWrite p v; { t with svc := { t.svc with qptableSet := true } }
  | .HST_PORT_CFG => s.hostPortCfg p.inst v
  | .GRM_DRV_FEATURES => s.drvFeatures v
  | .GRM_REQ => s.grmReq v
  | .GRM_MBOX => if s.grmBusy then s.badReg else s.plainWrite p v
  | .HBM_MAINT => s.maintWrite p.inst v
  | .PDK_PROBE_CTL => s.probeCtl p.inst false v
  | .PDK_REPLAY_CTL => s.probeCtl p.inst true v
  | .RNL_PORT_CFG => s.portCfgWrite p.inst v
  | .RNL_EYE_CTL => s.eyeWrite p.inst v
  | .RNL_IDENT => (s.plainWrite p v).settleRole
  | .DBG_TRACE_CFG => s.traceCfg v
  | .DBG_TRACE_BASE => if s.traceOn then s else s.plainWrite p v
  | .DBG_TRACE_LEN => if s.traceOn then s else s.plainWrite p v
  | .DBG_TRACE_STALL => if s.traceOn then s else s.plainWrite p v
  | .DBG_LATCH_SEL => s.latchSelWrite p.idx v
  | r => if isEnable r b then s.enableEvents b p.inst v else s.plainWrite p v

/-- One aligned 8-byte write of the register windows (R8, R9). -/
def State.regWrite (s : State) (a : Nat) (v : Word) : State :=
  if a % 8 ≠ 0 then s.badReg
  else match regAt a with
    | some p => s.regPut p v
    | none => s.badReg

/-! ## The rows -/

/-- REGISTER_WRITE (R11): a write to an address of the register windows; other addresses name no register. -/
def execRegisterWrite (addr : BitVec 57) (value : Word) (s : State) : Host.Outcome State Fault Refusal :=
  s.live (if regBase ≤ addr.toNat ∧ addr.toNat < regTop then s.regWrite addr.toNat value else s)

/-- DBG_TRACE_CFG_WRITE (R558). -/
def execDbgTraceCfgWrite (value : Word) (s : State) : Host.Outcome State Fault Refusal := s.live (s.traceCfg value)

/-- HOST_LINK_CHANGE (R328): a port without an attachment sees no line. -/
def execHostLinkChange (port : Fin 4) (line : HostLine) (lanes : BitVec 4) (anDone : Bool) (s : State) :
    Host.Outcome State Fault Refusal :=
  s.live (if (line.up ∨ line.signal) ∧ s.fld .HST_PORT_STATUS port.val 0 5 4 = 0 then s
    else s.hostLink port.val line.up line.signal (line.signal && line.pcs) (line.signal && line.fec) lanes.toNat anDone)

end Sys2Proof.Machine
end

