-- ==== Sys2Proof/Machine/Host.lean ====
section
/-!
DEFINITION. Host ports at work: frames and their classes (R293), priority flow control and congestion control (R294, R295), RoCE
requests and answers (R296 to R298, R307, R310), memory regions and host accesses (R300, R301), and the boot window (R527).
-/

namespace Sys2Proof.Machine

/-! ## Answers on a queue pair -/

/-- Answer a request on a queue pair in `n` frames. -/
def State.reply (s : State) (i : Nat) (m : WireMsg) (n : Nat) : State := s.hostSend i m n

/-- A NAK of class invalid request: the queue pair enters ERROR (R297). -/
def State.nakInvalid (s : State) (i psn : Nat) : State := (s.reply i (.roceNak i psn 1) 1).qpFail i

/-- A NAK of class remote access error, with no side effect (R301). -/
def State.nakAccess (s : State) (i psn : Nat) : State := (s.bump .HST_CNT (i / 2048) 13 1).reply i (.roceNak i psn 2) 1

/-- A NAK of class remote operational error for an uncorrectable word (R460). -/
def State.nakWord (s : State) (i psn w : Nat) : State := (s.logUncorr 1 w).reply i (.roceNak i psn 3) 1

/-- A NAK of a PSN sequence error (R335). -/
def State.nakSeq (s : State) (i psn : Nat) : State := (s.bump .HST_CNT (i / 2048) 10 1).reply i (.roceNak i psn 0) 1

/-- A request of `n` packets has been carried out: the next PSN is expected. -/
def State.qpAccept (s : State) (i n : Nat) : State :=
  let p := s.qp i
  s.setQp i { p with rqPsn := (p.rqPsn + n) % 2 ^ 24, msn := (p.msn + 1) % 2 ^ 24 }

/-! ## Memory regions (R300, R301) -/

/-- The entry of a memory region, as the device has cached it or as the table holds it. -/
def State.mrEntry (s : State) (idx : Nat) : List Word :=
  match smGet (fun _ => none) s.mrs idx with
  | some e => e
  | none => s.tableWords (s.fld .HST_MR_TABLE_BASE 0 0 56 12 * 4096 + 32 * idx) 4

/-- The device caches an entry it has used (R300). -/
def State.mrCache (s : State) (idx : Nat) (e : List Word) : State := { s with mrs := smSet (fun _ => none) s.mrs idx (some e) }

/-- Bits of word 0 that permit an access (R300). -/
def permWrite : Nat := 60
def permRead : Nat := 59
def permAtomic : Nat := 58

/-- A region refuses an access: not VALID, the wrong KEY, no permission, past LENGTH, locked to another queue pair, or with a
reserved CONTEXT (R300, R301). -/
def mrRefuses (e : List Word) (i key off n perm : Nat) : Bool :=
  !bitAt (dw e 0) 61 || bitsOf (dw e 0) 19 0 != key || !bitAt (dw e 0) perm || decide (dw e 2 < off + n)
    || (bitAt (dw e 3) 63 && bitsOf (dw e 3) 12 0 != i) || (bitsOf (dw e 0) 63 62 == 0 && decide (256 < bitsOf (dw e 0) 57 49))

/-- Translate the pieces of a VIRTUAL access; none where one is not VALID or lacks permission (R301). -/
def State.hostXlate (s : State) (ctx : Nat) (write : Bool) : List (Nat × Nat) → Option (List (Nat × Nat))
  | [] => some []
  | (va, n) :: t =>
    match s.translate ctx va write with
    | .fail _ _ => none
    | .ok pa => (s.hostXlate ctx write t).map (fun l => (pa, n) :: l)

/-- The physical pieces of an access at an offset of a region (R300). -/
def State.mrPieces (s : State) (e : List Word) (off n : Nat) (write : Bool) : Option (List (Nat × Nat)) :=
  let base := dw e 1 % 2 ^ 57
  match bitsOf (dw e 0) 63 62 with
  | 0 => if 2 ^ 57 < base + off + n then none else s.hostXlate (bitsOf (dw e 0) 57 49) write (unitPieces (base + off) n)
  | 1 => some (unitPieces (base + off) n)
  | 2 => if 2 ^ 28 < base * 4096 + off + n then none else some (unitPieces (doorBase + base * 4096 + off) n)
  | _ => none

/-- A piece lies where no host access through this region reaches: unmapped (R42, R463), or a register window through a corral's
translations (R44). -/
def State.hostUnmapped (s : State) (e : List Word) (pa : Nat) : Bool :=
  match placeOf pa with
  | .unmapped => true
  | .hbm => !s.hbmServed pa
  | .reg => bitsOf (dw e 0) 63 62 == 0 && bitsOf (dw e 0) 57 49 != 256
  | _ => false

/-- Places reached by aligned words only (R10): register windows, doorbell windows and paddock RAM. -/
def wordPlace (pa : Nat) : Bool :=
  match placeOf pa with
  | .reg => true | .door _ _ => true | .pdk _ _ => true | _ => false

/-- The first uncorrectable word an access meets: any it reads, or one a write covers only partly (R460). -/
def State.hostBad (s : State) (write : Bool) (l : List (Nat × Nat)) : Option Nat :=
  l.findSome? (fun x => if placeOf x.1 = .hbm then (if write then s.badMerge x.1 x.2 else s.badIn x.1 x.2) else none)

/-- An access that reaches a word place but is not made of aligned words (R10). -/
def oddWords (l : List (Nat × Nat)) : Bool := l.any (fun x => wordPlace x.1) && l.any (fun x => x.1 % 8 != 0 || x.2 % 8 != 0)

/-! ## Host reads and writes (R8 to R10) -/

/-- One aligned word read of a register or doorbell window, in its own instant. -/
def State.hostWord (s : State) (pa : Nat) : Word × State :=
  match placeOf pa with
  | .door q off => if off % 8 = 0 ∧ off < 32 then (s.doorRead q off, s) else (0, s.badReg)
  | _ => s.regRead pa

/-- Words read in increasing address. -/
def State.hostWords (s : State) (pa : Nat) : Nat → List Byte × State
  | 0 => ([], s)
  | n + 1 =>
    let r := s.hostWord pa
    let t := r.2.hostWords (pa + 8) n
    (leBytes 8 r.1.toNat ++ t.1, t.2)

/-- Read the pieces of a host access. -/
def State.hostRead (s : State) : List (Nat × Nat) → List Byte × State
  | [] => ([], s)
  | (pa, n) :: t =>
    let r := match placeOf pa with
      | .reg => s.hostWords pa (n / 8)
      | .door _ _ => s.hostWords pa (n / 8)
      | .hbm => (s.rdBytes pa n, s.postUnit { src := .hostPort, corral := none, addr := BitVec.ofNat 39 pa, partialWord := false }
        false n)
      | _ => (s.rdBytes pa n, s)
    let u := r.2.hostRead t
    (r.1 ++ u.1, u.2)

/-- One aligned word written to a register or doorbell window that came through a host port (R333). -/
def State.hostPut (s : State) (port pa : Nat) (v : Word) : State :=
  match placeOf pa with
  | .door q off => s.doorWrite port q off v
  | _ => s.regWrite pa v

/-- Words written in increasing address. -/
def State.hostPuts (s : State) (port pa : Nat) : List Word → State
  | [] => s
  | w :: t => (s.hostPut port pa w).hostPuts port (pa + 8) t

/-- Write the pieces of a host access. -/
def State.hostWrite (s : State) (port : Nat) (bs : List Byte) : List (Nat × Nat) → State
  | [] => s
  | (pa, n) :: t =>
    let s1 := match placeOf pa with
      | .reg => s.hostPuts port pa (bytesWords (n / 8) bs)
      | .door _ _ => s.hostPuts port pa (bytesWords (n / 8) bs)
      | .hbm =>
        (s.postUnit { src := .hostPort, corral := none, addr := BitVec.ofNat 39 pa, partialWord := partialWrite pa n } true n).wr pa (bs.take n)
      | _ => s.wr pa (bs.take n)
    s1.hostWrite port (bs.drop n) t

/-! ## The boot window (R527) -/

/-- The boot window answers its rkey: HP0's bootstrap queue pair, PHASE BOOT_WAIT or CHECKING. -/
def State.bootRkey (s : State) (i rkey : Nat) : Bool := i == 0 && rkey == 0x1B00 && (s.grmPhase == 1 || s.grmPhase == 2)

/-- Bytes of the boot window. -/
def bootTop : Nat := 0x1C1000

/-- Read a control word of the boot window. -/
def State.bootWord (s : State) (off : Nat) : Word × State :=
  if off = 0 then (BitVec.ofNat 64 (2 ^ 48 + 0x1307296B), s)
  else if off = 8 then (s.reg .GRM_BOOT_STATUS 0 0, s)
  else if off = 16 then (0, s)
  else (0, s.badReg)

/-- Write a control word of the boot window. -/
def State.bootPut (s : State) (off : Nat) (v : Word) : State :=
  if off = 0 ∨ off = 8 then s else if off = 16 then s.bootGo v else s.badReg

/-- Write image bytes of the boot window: ignored while BOOT_STATUS.STATE is CHECKING. -/
def State.bootImage (s : State) (off : Nat) (bs : List Byte) : State :=
  if s.grmPhase = 2 then s else s.setSram (off - 0x1000) bs

/-- Words read from the boot window. -/
def State.bootWords (s : State) (off : Nat) : Nat → List Byte × State
  | 0 => ([], s)
  | n + 1 =>
    let r := if off < 0x1000 then s.bootWord off else (BitVec.ofNat 64 (leNat (s.sramBytes (off - 0x1000) 8)), s)
    let t := r.2.bootWords (off + 8) n
    (leBytes 8 r.1.toNat ++ t.1, t.2)

/-- Words written to the boot window. -/
def State.bootPuts (s : State) (off : Nat) : List Word → State
  | [] => s
  | w :: t => (if off < 0x1000 then s.bootPut off w else s.bootImage off (leBytes 8 w.toNat)).bootPuts (off + 8) t

/-- Read `n` bytes of the boot window: the control words by aligned words (R8, R10). -/
def State.bootRead (s : State) (off n : Nat) : List Byte × State :=
  if 0x1000 ≤ off then (s.sramBytes (off - 0x1000) n, s)
  else if off % 8 ≠ 0 ∨ n % 8 ≠ 0 then (List.replicate n 0, s.badReg)
  else s.bootWords off (n / 8)

/-- Write bytes to the boot window. -/
def State.bootWrite (s : State) (off : Nat) (bs : List Byte) : State :=
  if 0x1000 ≤ off then s.bootImage off bs
  else if off % 8 ≠ 0 ∨ bs.length % 8 ≠ 0 then s.badReg
  else s.bootPuts off (bytesWords (bs.length / 8) bs)

/-! ## Requests (R296, R297, R301, R307, R322) -/

/-- Where an accepted access leads. -/
inductive HostTarget where
  | boot
  | tethers (first : Nat)
  | pieces (l : List (Nat × Nat))
  | refused
  | badWord (w : Nat)
  deriving DecidableEq, Repr

/-- Judge an access against its region (R300, R301). -/
def State.mrTarget (s : State) (e : List Word) (i key off n perm : Nat) : HostTarget :=
  if mrRefuses e i key off n perm then .refused
  else if bitsOf (dw e 0) 63 62 = 3 then
    let t := dw e 1 % 2 ^ 57 + off / 8
    if off % 8 ≠ 0 ∨ n % 8 ≠ 0 ∨ 32768 < t + n / 8 then .refused else .tethers t
  else if perm = permAtomic then .refused
  else
    match s.mrPieces e off n (perm == permWrite) with
    | none => .refused
    | some l =>
      if l.any (fun x => s.hostUnmapped e x.1) then .refused
      else match s.hostBad (perm == permWrite) l with
        | some w => .badWord w
        | none => .pieces l

/-- Log the word that a walk for a refused access could not read (R460). -/
def State.logHostWalk (s : State) (e : List Word) (i key off n perm : Nat) : State :=
  let ctx := bitsOf (dw e 0) 57 49
  if mrRefuses e i key off n perm ∨ bitsOf (dw e 0) 63 62 ≠ 0 ∨ perm = permAtomic then s
  else
    match (unitPieces (dw e 1 % 2 ^ 57 + off) n).find? (fun p => (s.hostXlate ctx (perm == permWrite) [p]).isNone) with
    | some p => s.logWalk ctx p.1
    | none => s

/-- Judge an access with an rkey, and cache the entry it used. -/
def State.hostTarget (s : State) (i rkey off n perm : Nat) : HostTarget × State :=
  if s.bootRkey i rkey then
    (if perm = permAtomic ∨ bootTop < off + n then .refused else .boot, s)
  else
    let idx := rkey / 2 ^ 20
    let e := s.mrEntry idx
    let t := s.mrTarget e i (rkey % 2 ^ 20) off n perm
    let s1 := if bitAt (dw e 0) 61 then s.mrCache idx e else s
    (t, if t = .refused then s1.logHostWalk e i (rkey % 2 ^ 20) off n perm else s1)

/-- Words written to tethers in ascending order (R322). -/
def State.tetherPuts (s : State) (t : Nat) : List Word → State
  | [] => s
  | w :: l => (s.setTether t w).tetherPuts (t + 1) l

/-- RDMA WRITE (R301). -/
def State.roceWriteIn (s : State) (i psn rkey off : Nat) (data : List Byte) : State :=
  let n := packetsOf (qpMtu (s.qp i)) data.length
  let done (t : State) : State := (t.qpAccept i n).reply i (.roceAck i ((psn + n - 1) % 2 ^ 24)) 1
  let r := s.hostTarget i rkey off data.length permWrite
  match r.1 with
  | .refused => r.2.nakAccess i psn
  | .badWord w => r.2.nakWord i psn w
  | .boot => done (r.2.bootWrite off data)
  | .tethers t => done (r.2.tetherPuts t (bytesWords (data.length / 8) data))
  | .pieces l => if oddWords l then done r.2.badReg else done (r.2.hostWrite (i / 2048) data l)

/-- RDMA READ (R301): `fresh` where the request is not a repeated one. -/
def State.roceReadIn (s : State) (i psn rkey off n : Nat) (fresh : Bool) : State :=
  let k := packetsOf (qpMtu (s.qp i)) n
  let done (x : List Byte × State) : State := (if fresh then x.2.qpAccept i k else x.2).reply i (.roceData i psn x.1) k
  let r := s.hostTarget i rkey off n permRead
  match r.1 with
  | .refused => r.2.nakAccess i psn
  | .badWord w => r.2.nakWord i psn w
  | .boot => done (r.2.bootRead off n)
  | .tethers t => done ((upTo (n / 8)).flatMap (fun j => leBytes 8 (r.2.tether (t + j)).toNat), r.2)
  | .pieces l => if oddWords l then done (List.replicate n 0, r.2.badReg) else done (r.2.hostRead l)

/-- Compare & Swap and Fetch & Add (R301, R322): `f` gives the new value, if it changes. -/
def State.roceAtomicIn (s : State) (i psn rkey off : Nat) (f : Word → Option Word) : State :=
  let r := s.hostTarget i rkey off 8 permAtomic
  match r.1 with
  | .tethers t =>
    let old := r.2.tether t
    let s1 := match f old with | some v => r.2.setTether t v | none => r.2
    let s2 := s1.setQp i { s1.qp i with atomics := ((psn, old) :: (s1.qp i).atomics).take 16 }
    (s2.qpAccept i 1).reply i (.roceAtomic i psn old) 1
  | _ => r.2.nakAccess i psn

/-- The queue a SEND on a queue pair posts to (R307): ENABLED, with an HBM ring and this QPX; the lowest where several share it. -/
def State.sendQueue (s : State) (i : Nat) : Option Nat :=
  (s.queues.find? (fun e => e.2.phase == .enabled && !entryRingHost e.2 && entryQpx e.2 == i)).map (·.1)

/-- The 128-byte pieces of a SEND written to the ring slots from an index on. -/
def State.ringPieces (s : State) (c : Nat) (v : QueueSt) (k : Nat) : Nat → List Byte → State
  | 0, _ => s
  | n + 1, bs =>
    (s.vaWrite c (dw v.entry 0 + 128 * (k % 2 ^ entryRingLog v)) (bs.take 128)).ringPieces c v (k + 1) n (bs.drop 128)

/-- SEND (R307). -/
def State.roceSendIn (s : State) (i psn : Nat) (data : List Byte) : State :=
  match s.sendQueue i with
  | none => s.nakInvalid i psn
  | some q =>
    let v := s.queue q
    let n := data.length / 128
    if data.length < 128 ∨ 4096 < data.length ∨ data.length % 128 ≠ 0 then s.nakInvalid i psn
    else if 2 ^ entryRingLog v < sub32 v.pi v.admitIx + n then s.reply i (.roceRnr i psn (bitsOf (dw (s.qp i).entry 1) 15 11)) 1
    else
      let c := s.queueCorral q
      let slots := (upTo n).map (fun j => (dw v.entry 0 + 128 * ((v.pi + j) % 2 ^ entryRingLog v), 128))
      match slots.findSome? (fun a => s.rangeErr c true a.1 a.2) with
      | some e => (s.logAccess 1 c e).nakAccess i psn
      | none =>
        let k := packetsOf (qpMtu (s.qp i)) data.length
        (((s.ringPieces c v v.pi n data).dbPi (i / 2048) q (v.pi + n)).qpAccept i k).reply i (.roceAck i ((psn + k - 1) % 2 ^ 24)) 1

/-- Carry out a request with the expected PSN. -/
def State.roceServe (s : State) (i psn : Nat) : RoceReq → State
  | .send data => if 2 ^ 31 < data.length then s.nakInvalid i psn else s.roceSendIn i psn data
  | .write rkey off data =>
    if 2 ^ 31 < data.length then s.nakInvalid i psn else s.roceWriteIn i psn rkey.toNat off.toNat data
  | .read rkey off len => if 2 ^ 31 < len.toNat then s.nakInvalid i psn else s.roceReadIn i psn rkey.toNat off.toNat len.toNat true
  | .compareSwap rkey off cmp swap => s.roceAtomicIn i psn rkey.toNat off.toNat (fun v => if v = cmp then some swap else none)
  | .fetchAdd rkey off n => s.roceAtomicIn i psn rkey.toNat off.toNat (fun v => some (v + n))
  | .unsupported => s.nakInvalid i psn

/-- A request whose PSN has been carried out already: answered anew, a read from what stands now, with no other effect. -/
def State.roceAgain (s : State) (i psn : Nat) : RoceReq → State
  | .send data => s.reply i (.roceAck i ((psn + packetsOf (qpMtu (s.qp i)) data.length - 1) % 2 ^ 24)) 1
  | .write _ _ data => s.reply i (.roceAck i ((psn + packetsOf (qpMtu (s.qp i)) data.length - 1) % 2 ^ 24)) 1
  | .read rkey off len => s.roceReadIn i psn rkey.toNat off.toNat len.toNat false
  | .compareSwap _ _ _ _ =>
    match (s.qp i).atomics.find? (fun e => e.1 == psn) with | some e => s.reply i (.roceAtomic i psn e.2) 1 | none => s
  | .fetchAdd _ _ _ =>
    match (s.qp i).atomics.find? (fun e => e.1 == psn) with | some e => s.reply i (.roceAtomic i psn e.2) 1 | none => s
  | .unsupported => s.nakInvalid i psn

/-- A host port serves its bootstrap queue pair: its link is up, or HP0 is reached through the lead (R299, R526). -/
def State.portServes (s : State) (p : Nat) : Bool := s.linkUp p || (p == 0 && s.groom.viaLead)

/-- The first valid request on a bootstrap queue pair that is in RESET takes it to RTS and binds it to its source (R299). -/
def State.bootBind (s : State) (i psn : Nat) (src : Option Peer) (r : RoceReq) : State :=
  let p := s.qp i
  let b := src.map (fun x => (x.gid.toNat, x.mac.toNat, x.qpn.toNat))
  if isBoot i ∧ psn = 0 ∧ r ≠ .unsupported ∧ s.portServes (i / 2048) then
    if p.phase = .reset then s.qpInto i { QpSt.idle with phase := .rts, bound := b, rateAt := s.time }
    else if p.phase = .rts ∧ p.entry.isEmpty ∧ p.bound.isNone then s.setQp i { p with bound := b }
    else s
  else s

/-- The source of a packet is the queue pair's peer (R298, R299): a bound source, or the PEER_GID of the entry. -/
def peerMatches (p : QpSt) (src : Option Peer) : Bool :=
  match src with
  | none => true
  | some x =>
    match p.bound with
    | some b => b == (x.gid.toNat, x.mac.toNat, x.qpn.toNat)
    | none => p.entry.isEmpty || (dw p.entry 3 * 2 ^ 64 + dw p.entry 2 == x.gid.toNat)

/-- A request reaches a queue pair (R296 to R301). -/
def State.roceRequest (s : State) (i psn : Nat) (src : Option Peer) (r : RoceReq) : State :=
  let s1 := s.bootBind i psn src r
  let p := s1.qp i
  if p.phase ≠ .rts ∨ !peerMatches p src then s1
  else if r = .unsupported then s1.nakInvalid i psn
  else
    let d := (psn + 2 ^ 24 - p.rqPsn) % 2 ^ 24
    if d = 0 then s1.roceServe i psn r
    else if 2 ^ 23 ≤ d then s1.roceAgain i psn r
    else s1.nakSeq i p.rqPsn

/-! ## Answers to the device's own requests (R296, R298, R310) -/

/-- Packets and last PSN of a request. -/
def Request.packets (r : Request) (mtu : Nat) : Nat := packetsOf mtu r.len
def Request.last (r : Request) (mtu : Nat) : Nat := (r.psn + r.packets mtu - 1) % 2 ^ 24

/-- Does PSN `a` lie at or before `b`? -/
def psnLe (a b : Nat) : Bool := decide ((b + 2 ^ 24 - a) % 2 ^ 24 < 2 ^ 23)

/-- The message of a request, and its packets. -/
def Request.msg (r : Request) (i : Nat) : WireMsg :=
  if r.write then .roceWrite i r.psn r.addr r.rkey r.data else .roceRead i r.psn r.addr r.rkey r.len
def Request.sends (r : Request) (mtu : Nat) : Nat := if r.write then r.packets mtu else 1

/-- Send outstanding requests again; packets that a transport retry resends are counted (R335). -/
def State.roceResend (s : State) (i : Nat) (retry : Bool) : List Request → State
  | [] => s
  | r :: t =>
    let n := r.sends (qpMtu (s.qp i))
    ((if retry then s.bump .HST_CNT (i / 2048) 11 n else s).hostSend i (r.msg i) n).roceResend i retry t

/-- Transport retry of every outstanding request from a PSN on: with no retry left the queue pair enters ERROR (R298). -/
def State.roceRetry (s : State) (i psn : Nat) : State :=
  let p := s.qp i
  let again := p.outstanding.filter (fun r => psnLe psn r.psn)
  if again.isEmpty then s
  else if again.any (fun r => bitsOf (dw p.entry 1) 23 21 ≤ r.tries) then s.qpFail i
  else
    (s.setQp i { p with outstanding := p.outstanding.map (fun r =>
      if psnLe psn r.psn then { r with tries := r.tries + 1, sentAt := s.time } else r) }).roceResend i true again

/-- The time of the last progress restarts the timer of what is left. -/
def State.roceKeep (s : State) (i : Nat) (l : List Request) : State :=
  s.setQp i { s.qp i with outstanding := l.map (fun r => { r with sentAt := s.time }) }

/-- An RDMA READ's data arrives: a queue's descriptor (R308). -/
def State.roceFetched (s : State) (r : Request) (data : List Byte) : State :=
  let v := s.queue r.queue
  if v.phase = .enabled ∧ data.length = 128 then s.setQueue r.queue { v with fetched := some (bytesWords 16 data) } else s

/-- An answer on a queue pair. -/
def State.roceResponse (s : State) (i psn : Nat) (a : RoceRsp) : State :=
  let p := s.qp i
  let mtu := qpMtu p
  if p.phase ≠ .rts then s
  else
    match a with
    | .ack => s.roceKeep i (p.outstanding.filter (fun r => !(r.write && psnLe (r.last mtu) psn)))
    | .readData data =>
      match p.outstanding.find? (fun r => !r.write && r.psn == psn && r.len == data.length) with
      | none => s
      | some r =>
        ((s.roceKeep i (p.outstanding.filter (fun x => x != r && !(x.write && psnLe x.psn r.psn)))).roceFetched r data).refetch i
    | .nakSequence => (s.bump .HST_CNT (i / 2048) 10 1).roceRetry i psn
    | .nakRemote =>
      match p.outstanding.find? (fun r => psnLe r.psn psn && psnLe psn (r.last mtu)) with
      | none => s
      | some r => ((s.roceKeep i (p.outstanding.filter (fun x => x != r))).stopUsers [r]).refetch i
    | .rnr => s.roceResend i false (p.outstanding.filter (fun r => psnLe psn r.psn))

/-- The local ACK timeout of 4.096 µs × 2^ACK_TIMEOUT has run out for the oldest request (R298). -/
def State.roceTimeout (s : State) (i : Nat) : State :=
  let p := s.qp i
  match p.outstanding with
  | [] => s
  | r :: _ => if r.sentAt + 4096 * 2 ^ bitsOf (dw p.entry 1) 20 16 ≤ s.time then s.roceRetry i r.psn else s

/-! ## Flow and congestion control (R294, R295) -/

/-- A CNP names a queue pair (R295): its rate halves, down to 1 Gbit/s. -/
def State.cnpIn (s : State) (i : Nat) : State :=
  let s1 := s.bump .HST_CNT (i / 2048) 8 1
  if (s.reg .HST_CC (i / 2048) 0).bit 1 then
    s1.setQp i { s1.qp i with rate := max 1000 ((s1.qp i).rate / 2), rateAt := s.time }
  else s1

/-- 55 µs without a CNP (R295): the rate rises by RATE_STEP, up to line rate. -/
def State.cnpRecover (s : State) (i : Nat) : State :=
  let p := s.qp i
  if p.rateAt + 55000 ≤ s.time then
    s.setQp i { p with rate := min 400000 (p.rate + s.fld .HST_CC (i / 2048) 0 47 32), rateAt := s.time }
  else s

/-- A packet marked CE (R295): a CNP to its source, at most one per CNP_INTERVAL. -/
def State.ceSeen (s : State) (i : Nat) : State :=
  let p := s.qp i
  let due : Bool := match p.cnpAt with
    | none => true
    | some t => decide (t + s.fld .HST_CC (i / 2048) 0 31 16 * 1000 ≤ s.time)
  if (s.reg .HST_CC (i / 2048) 0).bit 0 ∧ p.phase = .rts ∧ due then
    ((s.setQp i { p with cnpAt := some s.time }).bump .HST_CNT (i / 2048) 9 1).hostSend i (.cnp i) 1
  else s

/-- Nanoseconds of a pause of `q` quanta of 512 bit times at 400 Gbit/s. -/
def pauseNs (q : Nat) : Nat := cdiv (q * 32) 25

/-- A PFC frame stops transmission on its enabled priorities that the port honours, for the time it asks (R294). -/
def State.pfcIn (s : State) (p en : Nat) (quanta : List (BitVec 16)) : State :=
  let rx := s.fld .HST_PFC p 0 7 0
  let h := s.hostPort p
  let paused := (upTo 8).foldl (fun m k =>
    if bitAt en k && bitAt rx k then
      smSet (fun _ => 0) m k (let t := (quanta.getD k 0).toNat; if t = 0 then 0 else s.time + pauseNs t)
    else m) h.paused
  (s.setHostPort p { h with paused := paused }).bump .HST_CNT p 6 1

/-- Messages that waited for a paused priority go out. -/
def State.hostFlush (s : State) (p : Nat) : State :=
  let h := s.hostPort p
  if s.portPaused p then s
  else h.txq.foldl (fun t m => { t with sent := m.1 :: t.sent }.bump .HST_CNT p 1 m.2) (s.setHostPort p { h with txq := [] })

/-- The pause of a priority has run out (R294). -/
def State.pfcExpire (s : State) (p k : Nat) : State :=
  let h := s.hostPort p
  if smGet (fun _ => 0) h.paused k ≤ s.time then
    (s.setHostPort p { h with paused := smSet (fun _ => 0) h.paused k 0 }).hostFlush p
  else s

/-- Send a PFC frame for the priorities in TX_EN; flow control itself is never paused. -/
def State.pfcSend (s : State) (p quanta : Nat) : State :=
  (({ s with sent := .pfc p (s.fld .HST_PFC p 0 15 8) quanta :: s.sent } : State).bump .HST_CNT p 7 1).bump .HST_CNT p 1 1

/-- The receive buffer's occupancy (R294): maximum pause while it stands at XOFF_KIB or above, release at XON_KIB or below. -/
def State.pfcLevel (s : State) (p kib : Nat) : State :=
  let h := s.hostPort p
  if s.fld .HST_PFC p 0 15 8 = 0 then s
  else if s.fld .HST_PFC p 0 47 32 ≤ kib then (s.setHostPort p { h with xoff := true }).pfcSend p 0xFFFF
  else if h.xoff && decide (kib ≤ s.fld .HST_PFC p 0 63 48) then (s.setHostPort p { h with xoff := false }).pfcSend p 0
  else s

/-! ## Frames (R293, R501) -/

/-- The queue pair of a port that a QPN names (R298); in boot mode HP0 has its bootstrap queue pair alone (R526). -/
def State.qpNamed (s : State) (port : Nat) (qpn : Nat) : Option Nat :=
  let i := qpn - 0x1000
  if qpn < 0x1000 ∨ i / 2048 ≠ port ∨ (s.bootMode ∧ i ≠ 0) then none else some i

/-- Is a frame's body RoCE v2 (R293)? -/
def isRoce : FrameBody → Bool
  | .request _ _ _ _ => true | .response _ _ _ => true | .cnp _ => true | _ => false

/-- A request for queue pair 1 gets a NAK of class invalid request (R297): the device has no queue pair 1 to bring into ERROR. -/
def State.nakGsi (s : State) (port psn : Nat) (src : Peer) : State :=
  s.portSend port (.framed (s.frameHdr port none) (.roceNakTo src.qpn.toNat psn 1)) 1

/-- Process an accepted RoCE v2 packet. -/
def State.roceIn (s : State) (port : Nat) (f : EthFrame) : State :=
  let mark (i : Nat) (t : State) : State := if f.ce then t.ceSeen i else t
  match f.body with
  | .request qpn psn src r =>
    match s.qpNamed port qpn.toNat with
    | some i => mark i (s.roceRequest i psn.toNat (some src) r)
    | none => if qpn = 1#24 then s.nakGsi port psn.toNat src else s
  | .response qpn psn a =>
    match s.qpNamed port qpn.toNat with | some i => mark i (s.roceResponse i psn.toNat a) | none => s
  | .cnp qpn => match s.qpNamed port qpn.toNat with | some i => s.cnpIn i | none => s
  | _ => s

/-- A frame a port does not take whatever it carries: too long, with more than one tag, fragmented or with options (R293), or not
tagged VLAN_ID where the port asks for it (R329). -/
def State.frameBad (s : State) (port : Nat) (f : EthFrame) : Bool :=
  let c := s.reg .HST_PORT_CFG port 0
  decide (4352 < f.len.toNat) || decide (1 < f.tags.length) || f.badIp
    || (c.bit 44 && f.tags.map (·.toNat) != [c.fld 43 32])

/-- A frame is for the port's own IPv4 or IPv6 address (R293, R330). -/
def State.ownFrame (s : State) (port : Nat) (f : EthFrame) : Bool :=
  let v4 := s.reg .HST_IPV4 port 0
  let v6 := (s.reg .HST_IPV6_HI port 0).toNat * 2 ^ 64 + (s.reg .HST_IPV6_LO port 0).toNat
  (match f.dst4 with | some a => v4.bit 32 && a.toNat == v4.fld 31 0 | none => false)
    || (match f.dst6 with | some a => v6 != 0 && a.toNat == v6 | none => false)

/-- The position a lead relays a frame to (R501). -/
def State.relayTo (s : State) (port : Nat) (f : EthFrame) : Option Nat :=
  let c := s.reg .RNL_RELAY_CFG 0 0
  let v6 := (s.reg .HST_IPV6_HI port 0).toNat * 2 ^ 64 + (s.reg .HST_IPV6_LO port 0).toNat
  if !s.isLead || !c.bit 63 then none
  else match f.dst4, f.dst6 with
    | some a, _ => if a.toNat / 64 = c.fld 25 0 then some (a.toNat % 64) else none
    | none, some a => if v6 != 0 && a.toNat / 64 == v6 / 64 then some (a.toNat % 64) else none
    | none, none => none

/-- The payload of a RELAY packet: the relay word and the frame, padded to whole words (R501). -/
def relayPayload (port : Nat) (raw : List Byte) : List Byte :=
  leBytes 8 (port * 2 ^ 16 + raw.length) ++ raw ++ List.replicate ((8 - raw.length % 8) % 8) 0

/-- A frame relayed to a wheeler: with no credit on its port it is dropped and counted (R501). -/
def State.relayOut (s : State) (port p : Nat) (raw : List Byte) : State :=
  let pay := relayPayload port raw
  let pkt := mkPkt (s.ownHitch * 64 + p) s.devId 0 0 0 0 0 (pay.length / 8) pay
  match s.relayHop s.devId (s.ownHitch * 64 + p) 0 0 none with
  | .out i g b =>
    let k := s.port i
    let t : TypedPkt := { typ := T_RELAY, pkt := { pkt with ghops := BitVec.ofNat 2 g, vc := BitVec.ofNat 5 (vcOf 3 g b) } }
    if k.credit 17 < cdiv (pktBytes t) 16 ∨ k.txq.any (fun x => x.pkt.vc.toNat == 17) then s.bump .RNL_CNT i 8 1
    else s.queuePkt i t
  | _ => s

/-- What the line code and the FCS found in a frame (R333, R335). -/
def State.frameErrs (s : State) (port : Nat) (f : EthFrame) : State :=
  let s1 := (s.bump .HST_CNT port 4 f.fecFixed.toNat).bump .HST_CNT port 5 f.fecLost.toNat
  let s2 := if f.fecLost = 0 then s1 else s1.raise0 .hst port 1
  if f.badFcs then s2.bump .HST_CNT port 3 1 else s2

/-- A frame arrives on a host port (R293, R501). DEDUCED (log 106): one with a bad FCS is no valid frame of any kind and is dropped. -/
def State.frameIn (s : State) (port : Nat) (f : EthFrame) : State :=
  if !s.linkUp port then s
  else
    let s1 := (s.frameErrs port f).bump .HST_CNT port 0 1
    let drop := s1.bump .HST_CNT port 2 1
    if f.badFcs then drop
    else match f.body with
    | .pfc en q => if 4352 < f.len.toNat then drop else s1.pfcIn port en.toNat q
    | b =>
      if s.frameBad port f || !isRoce b then drop
      else if s.ownFrame port f then s1.roceIn port f
      else match s.relayTo port f with
        | some p => if p = s.ownPos then drop else s1.relayOut port p f.raw
        | none => drop

/-! ## The rows -/

/-- Packets an answer comes in. -/
def rspPackets (mtu : Nat) : RoceRsp → Nat
  | .readData data => packetsOf mtu data.length
  | _ => 1

/-- A message of `n` frames has come in for a queue pair (R335). -/
def State.framesFor (s : State) (i n : Nat) : State := s.bump .HST_CNT (i / 2048) 0 n

/-- ETH_FRAME_RECEIVE (R293). -/
def execEthFrameReceive (port : Fin 4) (frame : EthFrame) (s : State) : Host.Outcome State Fault Refusal :=
  s.live (s.frameIn port.val frame)

/-- PFC_XON_SEND (R294). -/
def execPfcXonSend (port : Fin 4) (kib : BitVec 11) (s : State) : Host.Outcome State Fault Refusal :=
  s.live (s.pfcLevel port.val kib.toNat)

/-- PFC_FRAME_RECEIVE (R294). -/
def execPfcFrameReceive (port : Fin 4) (enable : BitVec 8) (quanta : List (BitVec 16)) (s : State) :
    Host.Outcome State Fault Refusal :=
  s.live ((s.bump .HST_CNT port.val 0 1).pfcIn port.val enable.toNat quanta)

/-- PFC_PAUSE_EXPIRY (R294). -/
def execPfcPauseExpiry (port : Fin 4) (prio : Fin 8) (s : State) : Host.Outcome State Fault Refusal :=
  s.live (s.pfcExpire port.val prio.val)

/-- CNP_RECEIVE (R295). -/
def execCnpReceive (qp : Fin 8192) (s : State) : Host.Outcome State Fault Refusal := s.live ((s.framesFor qp.val 1).cnpIn qp.val)

/-- CNP_RATE_RECOVERY (R295). -/
def execCnpRateRecovery (qp : Fin 8192) (s : State) : Host.Outcome State Fault Refusal := s.live (s.cnpRecover qp.val)

/-- ROCE_SEND (R307). -/
def execRoceSend (qp : Fin 8192) (psn : BitVec 24) (data : List Byte) (s : State) : Host.Outcome State Fault Refusal :=
  s.live ((s.framesFor qp.val (packetsOf (qpMtu (s.qp qp.val)) data.length)).roceRequest qp.val psn.toNat none (.send data))

/-- RDMA_WRITE (R301). -/
def execRdmaWrite (qp : Fin 8192) (psn : BitVec 24) (rkey : BitVec 32) (off : BitVec 64) (data : List Byte) (s : State) :
    Host.Outcome State Fault Refusal :=
  s.live ((s.framesFor qp.val (packetsOf (qpMtu (s.qp qp.val)) data.length)).roceRequest qp.val psn.toNat none (.write rkey off data))

/-- RDMA_READ (R301). -/
def execRdmaRead (qp : Fin 8192) (psn : BitVec 24) (rkey : BitVec 32) (off : BitVec 64) (len : BitVec 32) (s : State) :
    Host.Outcome State Fault Refusal :=
  s.live ((s.framesFor qp.val 1).roceRequest qp.val psn.toNat none (.read rkey off len))

/-- RDMA_COMPARE_SWAP (R322). -/
def execRdmaCompareSwap (qp : Fin 8192) (psn : BitVec 24) (rkey : BitVec 32) (off : BitVec 64) (compare swap : Word) (s : State) :
    Host.Outcome State Fault Refusal :=
  s.live ((s.framesFor qp.val 1).roceRequest qp.val psn.toNat none (.compareSwap rkey off compare swap))

/-- RDMA_FETCH_ADD (R322). -/
def execRdmaFetchAdd (qp : Fin 8192) (psn : BitVec 24) (rkey : BitVec 32) (off : BitVec 64) (addend : Word) (s : State) :
    Host.Outcome State Fault Refusal :=
  s.live ((s.framesFor qp.val 1).roceRequest qp.val psn.toNat none (.fetchAdd rkey off addend))

/-- ROCE_UNSUPPORTED_REQUEST (R297). -/
def execRoceUnsupportedRequest (qp : Fin 8192) (psn : BitVec 24) (s : State) : Host.Outcome State Fault Refusal :=
  s.live ((s.framesFor qp.val 1).roceRequest qp.val psn.toNat none .unsupported)

/-- ROCE_RESPONSE_RECEIVE (R296). -/
def execRoceResponseReceive (qp : Fin 8192) (psn : BitVec 24) (rsp : RoceRsp) (s : State) : Host.Outcome State Fault Refusal :=
  s.live ((s.framesFor qp.val (rspPackets (qpMtu (s.qp qp.val)) rsp)).roceResponse qp.val psn.toNat rsp)

/-- ROCE_ACK_TIMEOUT (R298). -/
def execRoceAckTimeout (qp : Fin 8192) (s : State) : Host.Outcome State Fault Refusal := s.live (s.roceTimeout qp.val)

end Sys2Proof.Machine
end

