-- ==== Sys2Proof/Machine/HotPlug.lean ====
section
/-!
DEFINITION. Devices that leave and join a hitch (R608 to R612): the presence mask, the lead's polls, and admission.
-/

namespace Sys2Proof.Machine

/-- HOT_PLUG is ACTIVE (R533, R608). -/
def State.hotPlug (s : State) : Bool := s.feature 9

/-- The generation of every tag a request used moves on, so that its late response is dropped (R440, R609). -/
def State.nextGen (s : State) (die tag : Nat) : State :=
  { s with noc := { s.noc with gens := smSet (fun _ => 0) s.noc.gens (die * 65536 + tag) ((s.tagGen die tag + 1) % 256) } }

/-- Outstanding requests to a position that is newly absent are answered with E_DEVICE_REMOVED (R609). -/
def State.failGone (s : State) (gone : Nat → Bool) : List (Nat × Option TrackedReq) → State
  | [] => s
  | (k, some r) :: t =>
    let hit := match r.remote with | some d => d / 64 == s.ownHitch && gone (d % 64) | none => false
    (if hit then (s.errorArrive (k / 65536) (k % 65536) r.gen E_DEVICE_REMOVED).nextGen (k / 65536) (k % 65536) else s).failGone gone t
  | (_, none) :: t => s.failGone gone t

/-- This device takes a presence mask (R608, R609). -/
def State.setPresence (s : State) (m : Nat) : State :=
  let t : State := { s with svc := { s.svc with presence := m } }
  t.failGone (fun p => t.posAbsent p && !s.posAbsent p) s.noc.reqs

/-- The lead changes the mask and distributes it over MGMT (R608). -/
def State.spreadPresence (s : State) (m : Nat) : State :=
  if m = s.svc.presence then s
  else
    let t := s.setPresence m
    let to_ := (upTo 64).filter (fun p => p != t.ownPos && t.posNames p)
    { t with sent := (to_.map (fun p => WireMsg.mgmt p m)).reverse ++ t.sent }

/-- A mask with one bit set or cleared. -/
def maskWith (m p : Nat) (v : Bool) : Nat := if bitAt m p = v then m else if v then m + 2 ^ p else m - 2 ^ p

/-- The lead's mask: before it has changed, the devices that enumeration reported and the lead itself (R608). -/
def State.leadMask (s : State) : Nat :=
  if s.svc.presence = 0 then (smKeys s.rein.coords).foldl (fun m p => maskWith m p true) (maskWith 0 s.ownPos true) else s.svc.presence

/-- Position p has an admitted device. -/
def State.admitted (s : State) (p : Nat) : Bool := bitAt s.leadMask p

/-- The lead clears a position's bit and produces a DEVICE REMOVED record (R610). -/
def State.removePos (s : State) (p : Nat) : State :=
  let t : State := { s with svc := { s.svc with pollMiss := smSet (fun _ => 0) s.svc.pollMiss p 0
                                                downReports := smSet (fun _ => 0) s.svc.downReports p 0 } }
  (t.spreadPresence (maskWith t.leadMask p false)).deviceEvent 0 1 0 0xFFFF none (s.ownHitch * 64 + p)

/-- The lead sets a position's bit (R500, R608). -/
def State.presentPos (s : State) (p : Nat) : State :=
  if s.isLead && s.hotPlug then s.spreadPresence (maskWith s.leadMask p true) else s

/-- The result of one poll for one position: the third consecutive miss removes it (R610). -/
def State.pollPos (s : State) (answered : Word) (p : Nat) : State :=
  if p = s.ownPos ∨ !s.admitted p then s
  else if answered.bit p then { s with svc := { s.svc with pollMiss := smSet (fun _ => 0) s.svc.pollMiss p 0 } }
  else
    let n := smGet (fun _ => 0) s.svc.pollMiss p + 1
    if 3 ≤ n then s.removePos p else { s with svc := { s.svc with pollMiss := smSet (fun _ => 0) s.svc.pollMiss p n } }

/-- The positions that the lead polls (R610). -/
def State.polled (s : State) : List Nat := (upTo 64).filter (fun p => p != s.ownPos && s.admitted p)

/-- MGMT_POLL (R610, R611): at the lead, its poll and the positions that answered; at a wheeler, the poll it receives and answers. -/
def State.mgmtPoll (s : State) (answered : Word) : State :=
  if !s.isLead then { s with sent := .mgmtAnswer :: s.sent, svc := { s.svc with pollSeen := s.time } }
  else if s.hotPlug then
    (upTo 64).foldl (fun t p => t.pollPos answered p) { s with sent := (s.polled.map WireMsg.mgmtPoll).reverse ++ s.sent }
  else s

/-- The torus neighbours of a position: one step in each direction of each dimension of more than one (R498). -/
def State.torusNeighbours (s : State) (p : Nat) : List Nat :=
  (upTo 3).flatMap (fun dim =>
    let d := s.dimSize dim
    if d < 2 then [] else [withCoord p dim ((coordOf p dim + 1) % d), withCoord p dim ((coordOf p dim + d - 1) % d)])

/-- NEIGHBOUR_DOWN_REPORT (R610): once every present neighbour has reported, the position is removed. -/
def State.downReport (s : State) (p n : Nat) : State :=
  if !s.isLead || !s.hotPlug || !s.admitted p || p == s.ownPos || !(s.torusNeighbours p).contains n then s
  else
    let m := maskWith (smGet (fun _ => 0) s.svc.downReports p) n true
    let t : State := { s with svc := { s.svc with downReports := smSet (fun _ => 0) s.svc.downReports p m } }
    if (t.torusNeighbours p).all (fun k => bitAt m k || !t.admitted k) then t.removePos p else t

/-- LEAD_POLL_LOSS (R611). -/
def State.leadPollLoss (s : State) : State :=
  if !s.isLead ∧ s.rein.numbered ∧ s.svc.pollSeen + 40000000 ≤ s.time then
    let t : State := { s with svc := { s.svc with leadLost := true } }
    t.setFld .RNL_TIME_STATUS 0 0 63 63 0
  else s

/-- ADMIT_PROBE (R612): the lead probes an unadmitted position against its own epoch and digest; 2 MATCH admits it. -/
def State.admitProbe (s : State) (p answer : Nat) : State :=
  if !s.isLead || !s.hotPlug || s.admitted p || !s.posNames p || p == s.ownPos then s
  else
    let t : State := { s with svc := { s.svc with probedAt := s.time } }
    if answer = 2 then
      let u : State := { t with svc := { t.svc with downReports := smSet (fun _ => 0) t.svc.downReports p 0 } }
      (u.presentPos p).deviceEvent 0 2 0 0xFFFF none (s.ownHitch * 64 + p)
    else t

/-! ## The rows -/

/-- PRESENCE_MASK_UPDATE (R608, R609): the lead takes its own mask from no one. -/
def execPresenceMaskUpdate (mask : Word) (s : State) : Host.Outcome State Fault Refusal :=
  s.live (if s.isLead then s else s.setPresence mask.toNat)

/-- MGMT_POLL (R610). -/
def execMgmtPoll (answered : Word) (s : State) : Host.Outcome State Fault Refusal := s.live (s.mgmtPoll answered)

/-- LEAD_POLL_LOSS (R611). -/
def execLeadPollLoss (s : State) : Host.Outcome State Fault Refusal := s.live s.leadPollLoss

/-- ADMIT_PROBE (R612). -/
def execAdmitProbe (pos : BitVec 6) (answer : BitVec 2) (s : State) : Host.Outcome State Fault Refusal :=
  s.live (s.admitProbe pos.toNat answer.toNat)

/-- NEIGHBOUR_DOWN_REPORT (R610). -/
def execNeighbourDownReport (pos neighbour : BitVec 6) (s : State) : Host.Outcome State Fault Refusal :=
  s.live (s.downReport pos.toNat neighbour.toNat)

end Sys2Proof.Machine
end

