-- ==== Sys2Proof/Machine/Observe.lean ====
section
/-!
DEFINITION. Trace samples, occupancy counters and the stable card (chapter 16).
-/

namespace Sys2Proof.Machine

/-! ## Trace (R555 to R558) -/

/-- A stall's sample word without OFFSET (R557). -/
def State.sampleWord (s : State) (st : Nat) : Nat :=
  let stl := s.viewStlStatus st
  let seq := s.viewSeqStatus st
  let src := if seq.bit 1 then seq else stl
  st * 2 ^ 34 + src.fld 47 32 * 2 ^ 18 + b2n (src.bit 48) * 2 ^ 17 + b2n (seq.bit 1) * 2 ^ 16 + stl.fld 2 0 * 2 ^ 13
    + b2n (seq.bit 1) * 2 ^ 12 + b2n (seq.bit 0) * 2 ^ 11 + seq.fld 16 6

/-- Add a sample to a die's open block, closing blocks as R556 states. -/
def State.addSample (s : State) (d : Nat) (x : Sample) (lost : Bool) : State :=
  if (s.reg .DBG_TRACE_STATUS 0 0).bit d then s
  else if lost then
    let s1 := s.closeBlock d
    let k := s1.traceDie d
    ((s1.setTraceDie d { k with lost := k.lost + 1 }).bump .DBG_TRACE_LOST 0 d 1).raise0 .dbg 0 1
  else
    let far := match (s.traceDie d).block with | b :: _ => decide (b.stamp + 2 ^ 18 - 1 < x.stamp) | [] => false
    let s1 := if far then s.closeBlock d else s
    if (s1.reg .DBG_TRACE_STATUS 0 0).bit d then s1
    else
      let k := s1.traceDie d
      let s2 := s1.setTraceDie d { k with block := k.block ++ [x] }
      if 60 ≤ k.block.length + 1 then s2.closeBlock d else s2

/-- Insert a sample by stamp, then stall (R556). -/
def insertSample (x : Nat × Sample) : List (Nat × Sample) → List (Nat × Sample)
  | [] => [x]
  | y :: t => if x.2.stamp < y.2.stamp ∨ (x.2.stamp = y.2.stamp ∧ x.1 ≤ y.1) then x :: y :: t else y :: insertSample x t

/-- The stamp crossing 1 captures: at most 3 ns after the instant (R29, R555). -/
def stampOf (t : Nat) (l : List (BitVec 64)) (i : Nat) : Nat :=
  let v := (l.getD i 0).toNat
  if t ≤ v ∧ v ≤ t + 3 then v else t

/-- TRACE_SAMPLE (R555): at each multiple of INTERVAL_NS, once. -/
def State.traceSample (s : State) (stamps : List (BitVec 64)) (lost : List Nat) : State :=
  if !s.traceOn ∨ s.time % s.fld .DBG_TRACE_CFG 0 0 51 32 ≠ 0 ∨ s.obs.lastSample = some s.time then s
  else
    let stalls := (upTo 3072).filter s.traced
    let xs := (upTo stalls.length).foldr (fun i l =>
      let st := stalls.getD i 0
      insertSample (st, { stamp := stampOf s.time stamps i, word := s.sampleWord st }) l) []
    let t := xs.foldl (fun t x => t.addSample (x.1 / 768) x.2 (lost.contains x.1)) s
    { t with obs := { t.obs with lastSample := some t.time } }

/-! ## Occupancy (R564) -/

/-- What the k-th occupancy counter of a corral adds. -/
def State.occupancy (s : State) (c k : Nat) : Nat :=
  (s.queues.map (fun e =>
    if s.owner .queue e.1 ≠ some c then 0
    else match k with
      | 0 => if e.2.phase = .enabled then sub32 e.2.pi e.2.admitIx else 0
      | 1 => b2n e.2.waiter.isSome
      | 2 => e.2.inflight
      | _ => e.2.held.length)).foldl (· + ·) 0

/-- OCCUPANCY_TICK: at every microsecond of timebase, once. -/
def State.occTick (s : State) : State :=
  if s.time % 1000 ≠ 0 ∨ s.obs.lastOcc = some s.time then s
  else
    let cs := (s.queues.filterMap (fun e => s.owner .queue e.1)).eraseDups
    let t := cs.foldl (fun t c => (upTo 4).foldl (fun u k => u.bump .DBG_OCC 0 (4 * c + k) (s.occupancy c k)) t) s
    { t with obs := { t.obs with lastOcc := some t.time } }

/-! ## The stable card (R569 to R572) -/

/-- A section: its header and its entries of `bytes` bytes, each a list of words (R571). -/
def section_ (typ bytes stamp : Nat) (entries : List (List Nat)) : List Byte :=
  leBytes 8 (typ * 2 ^ 48 + bytes * 2 ^ 32 + entries.length) ++ leBytes 8 stamp
    ++ entries.flatMap (fun e => (upTo (bytes / 8)).flatMap (fun i => leBytes 8 (e.getD i 0)))

/-- DEVICE (R571). -/
def State.cardDevice (s : State) : List Nat :=
  let w6 := s.fld .CFG_EPOCH 0 0 31 0 * 2 ^ 32 + s.fld .CFG_EPOCH 0 0 32 32 * 2 ^ 31 + s.cfgState % 8 * 2 ^ 28
    + s.fld .CFG_STATUS 0 0 25 25 * 2 ^ 27 + s.grmPhase * 2 ^ 23
  [0x1307296B, (s.reg .GRM_FW_VERSION 0 0).toNat] ++ (upTo 4).map (fun w => (s.reg .GRM_FW_DIGEST 0 w).toNat)
    ++ [w6, (s.reg .GRM_FEATURES_ACTIVE 0 0).toNat] ++ (upTo 4).map (fun w => (s.reg .CFG_CONFIG_DIGEST 0 w).toNat)
    ++ [(s.reg .GRM_FAULT_COUNT 0 0).toNat] ++ (upTo 4).map (fun w => (s.regView ⟨.CFG_QUARANTINE, 0, w⟩).toNat)

/-- CORRALS (R571). -/
def State.cardCorrals (s : State) : List (List Nat) :=
  s.cfg.live.corrals.filterMap (fun e => e.2.map (fun d =>
    let c := e.1
    let log := smGet (fun _ => CorralLog.idle) s.svc.corrals c
    [c * 2 ^ 56 + d.l * 2 ^ 51 + (s.owned .stall c).length * 2 ^ 39 + (s.owned .paddock c).length * 2 ^ 25,
     log.lastCode * 2 ^ 48 + log.discarded % 2 ^ 48, log.lastTime]))

/-- QUEUES (R571). -/
def State.cardQueues (s : State) : List (List Nat) :=
  (s.queues.filter (fun e => e.2.phase != .disabled)).map (fun e =>
    let x := e.2
    let st := match x.phase with | .disabled => 0 | .enabled => 1 | .disabling => 2 | .stopped => 3
    [e.1 * 2 ^ 48 + st * 2 ^ 45 + b2n (entryWalk x) * 2 ^ 44 + (s.owner .queue e.1).getD 0 * 2 ^ 36 + x.inflight % 128 * 2 ^ 29 + x.error,
     x.pi * 2 ^ 32 + x.admitIx, x.written * 2 ^ 32 + x.ci, (x.walkUnits + b2n (unitOpen x s.cmds e.1)) % 65536 * 2 ^ 16])

/-- HALTED (R571). -/
def State.cardHalted (s : State) : List (List Nat) :=
  (s.ctxs.filter (fun e => e.2.phase == .halted)).map (fun e =>
    let x := e.2
    [x.stage * 2 ^ 56 + s.queueCorral x.queue * 2 ^ 48 + x.queue * 2 ^ 32 + e.1, x.seq * 2 ^ 32, x.pos, x.cause * 2 ^ 61 + x.faultVa])

/-- The lowest gait rate among a die's stalls (R571). -/
def State.lowestRate (s : State) (d : Nat) : Nat := (upTo 768).foldl (fun m i => min m (s.fld .STL_GAIT_METER (768 * d + i) 0 11 0)) 4095

/-- The sections of a device card in their order (R571). -/
def State.cardSections (s : State) : List Byte :=
  section_ 1 160 s.time [s.cardDevice] ++ section_ 2 24 s.time s.cardCorrals ++ section_ 3 32 s.time s.cardQueues
    ++ section_ 4 32 s.time s.cardHalted ++ section_ 5 8 s.time ((upTo 256).map (fun r => [(s.viewRegion r).toNat]))
    ++ section_ 6 16 s.time ((upTo 16).map (fun i => [(s.reg .RNL_PORT_STATUS i 0).toNat, (s.reg .RNL_PEER i 0).toNat])
        ++ (upTo 4).map (fun i => [(s.reg .HST_PORT_STATUS i 0).toNat]))
    ++ section_ 7 8 s.time ((upTo 8).map (fun i => [(s.reg .HBM_STATUS i 0).toNat]))
    ++ section_ 8 8 s.time ((upTo 4).map (fun d =>
        [s.fld .PWR_DIE 0 d 63 48 * 2 ^ 48 + s.fld .PWR_DIE 0 d 47 32 * 2 ^ 32 + s.lowestRate d * 2 ^ 16]))
    ++ section_ 9 16 s.time (s.svc.faults.map (fun f => [f.time, f.code * 2 ^ 48 + f.queue * 2 ^ 32 + f.corral * 2 ^ 24]))

/-- The header of a card (R570). -/
def State.cardHeader (s : State) (scope len sections devices : Nat) : List Byte :=
  leBytes 8 (0x57AB1EC4 * 2 ^ 32 + 1 * 2 ^ 16 + scope * 2 ^ 14) ++ leBytes 8 len ++ leBytes 8 s.time ++ leBytes 8 s.time
    ++ leBytes 8 (s.devId * 2 ^ 48 + sections * 2 ^ 32) ++ leBytes 24 (devices * 2 ^ 48)

/-- A device card (R569). -/
def State.deviceCard (s : State) : List Byte :=
  let b := s.cardSections
  s.cardHeader 0 (64 + b.length) 9 1 ++ b

/-- The entry of a position in the HITCH section (R572). -/
def State.hitchEntry (s : State) (p : Nat) : List Nat :=
  let dev := s.ownHitch * 64 + p
  if p = s.ownPos then [dev * 2 ^ 48 + s.fld .CFG_EPOCH 0 0 31 0, (s.reg .CFG_CONFIG_DIGEST 0 0).toNat]
  else
    match s.rein.cards.find? (fun k => k.dev == dev) with
    | none => [dev * 2 ^ 48 + 2 * 2 ^ 46]
    | some k =>
      if k.bytes.isEmpty then [dev * 2 ^ 48 + 1 * 2 ^ 46]
      else [dev * 2 ^ 48 + bitsOf (wordAt k.bytes 128) 63 32, wordAt k.bytes 144]

/-- The card of a hitch (R572). -/
def State.hitchCard (s : State) : List Byte :=
  let answered := s.rein.cards.filter (fun k => !k.bytes.isEmpty)
  let b := s.cardSections ++ section_ 0x10 16 s.time ((upTo 64).map s.hitchEntry) ++ answered.flatMap (·.bytes)
  s.cardHeader 1 (64 + b.length) 10 (1 + answered.length) ++ b

/-- Write a card and end its RESYNC (R316, R319, R569). -/
def State.writeCard (s : State) (c : Cmd) (card : List Byte) : State :=
  let bs := card.take (dw c.desc 4)
  let dest := bitsOf (dw c.desc 3) 56 0
  match s.rangeErr c.corral true dest bs.length with
  | some (_, .code e w) => s.failAccess c e 0 w
  | some (_, .xlate _ _) => s.failAccess c E_XLATE_FAULT 0 none
  | none =>
    let c1 := { c with moved := card.length }
    ((s.putOwn c.corral dest bs).setCmd c1).finishCmd c1 (okCode c1) 0 0 false

/-- Ask every wheeler for its card (R572). -/
def State.askCards (s : State) (q seq : Nat) : State :=
  let devs := s.hitchDevices.filter (fun d => d != s.devId)
  let t : State := { s with rein := { s.rein with cards := devs.map (fun d => { dev := d, bytes := [], whole := false })
                                                  cardFor := some (q, seq), cardSince := s.time } }
  devs.foldl (fun u d => u.sendTree TREE_CARD_ASK d 0 []) t

/-- STABLE_CARD_DONE (R569, R572): a card of a hitch first asks for the wheelers' cards, and is written once each has answered or has
timed out. -/
def State.cardDone (s : State) (q seq : Nat) : State :=
  match s.cmd q seq with
  | none => s
  | some c =>
    if descClass c.desc ≠ 10 ∨ c.phase ≠ .running ∨ !s.ready then s
    else if bitsOf (dw c.desc 2) 63 62 = 0 then s.writeCard c s.deviceCard
    else if s.rein.cardFor = some (q, seq) then
      if s.rein.cards.all (fun k => k.whole) then
        let card := s.hitchCard
        ({ s with rein := { s.rein with cards := [], cardFor := none } } : State).writeCard c card
      else s
    else
      match s.rein.cardFor with
      | some (q1, n1) => if (s.cmd q1 n1).isSome then s else s.askCards q seq
      | none => s.askCards q seq

/-- A wheeler is asked for its card: once its firmware is READY it sends the card in segments of 512 bytes; bit 63 marks the last. -/
def State.cardAsked (s : State) : State :=
  if !s.ready then s
  else
    let card := s.deviceCard
    let n := cdiv card.length 512
    (upTo n).foldl (fun t i => t.sendTree TREE_CARD (s.ownHitch * 64)
      (BitVec.ofNat 64 (512 * i + (if i + 1 = n then 2 ^ 63 else 0))) ((card.drop (512 * i)).take 512)) s

/-- A segment of a wheeler's card reaches the lead. -/
def State.cardArrive (s : State) (dev : Nat) (a : Word) (bs : List Byte) : State :=
  { s with rein := { s.rein with cards := s.rein.cards.map (fun k =>
      if k.dev = dev ∧ !k.whole ∧ a.fld 56 0 = k.bytes.length then { k with bytes := k.bytes ++ bs, whole := a.bit 63 } else k) } }

/-- CARD_ANSWER_TIMEOUT (R572): the wheeler is entered as NO_RESPONSE. -/
def State.cardTimeout (s : State) (dev : Nat) : State :=
  if s.rein.cardFor.isSome ∧ s.rein.cardSince + s.nocTimeout 0 true ≤ s.time then
    { s with rein := { s.rein with cards := s.rein.cards.map (fun k =>
        if k.dev = dev ∧ !k.whole then { k with bytes := [], whole := true } else k) } }
  else s

/-! ## The rows -/

/-- TRACE_SAMPLE (R555). -/
def execTraceSample (stamps : List (BitVec 64)) (lost : List (Fin 3072)) (s : State) : Host.Outcome State Fault Refusal :=
  let t := s.traceSample stamps (lost.map (·.val))
  s.live { s with regs := t.regs, obs := t.obs, svc := t.svc, mem := t.mem, bad := t.bad, hbm := t.hbm }

/-- OCCUPANCY_TICK (R564). -/
def execOccupancyTick (s : State) : Host.Outcome State Fault Refusal :=
  let t := s.occTick
  s.live { s with regs := t.regs, obs := t.obs }

/-- STABLE_CARD_DONE (R569). -/
def execStableCardDone (queue : Fin 65536) (seq : BitVec 32) (s : State) : Host.Outcome State Fault Refusal :=
  s.live (s.cardDone queue.val seq.toNat)

/-- CARD_ANSWER_TIMEOUT (R572). -/
def execCardAnswerTimeout (dev : BitVec 16) (s : State) : Host.Outcome State Fault Refusal :=
  let t := s.cardTimeout dev.toNat
  s.live { s with rein := t.rein }

end Sys2Proof.Machine
end

