-- ==== Sys2Proof/Machine/ReinPkt.lean ====
section
/-!
DEFINITION. Rein packets at a port: what is discarded (R492), forwarded or delivered (R503, R504), and what each type does at its
destination (R491): requests of other devices (R274), responses, TREE, TIME (R507 to R509), ENUM (R500) and RELAY (R501, R526).
-/

namespace Sys2Proof.Machine

/-! ## Arrival (R492, R503) -/

/-- A port discards a packet (R492, R503). -/
def State.portDiscard (s : State) (i : Nat) : State := (s.bump .RNL_CNT i 8 1).raise0 .rnl i 4

/-- The class of a VC (R489): 0 REQ, 1 RSP, 2 TREE, 3 MGMT; none where the VC is reserved. -/
def vcClass (vc : Nat) : Option Nat :=
  if vc < 8 then some 0 else if vc < 16 then some 1 else if vc = 16 then some 2 else if vc = 17 then some 3 else none

/-- The cases of R492 that a packet shows by itself. -/
def pktBad (t : TypedPkt) : Bool :=
  let len := t.pkt.len.toNat
  (typeClass t.typ).isNone || (vcClass t.pkt.vc.toNat).isNone || vcClass t.pkt.vc.toNat != typeClass t.typ
    || (if t.typ = T_RELAY then len == 0 || decide (545 < len) || decide (8 * len < bitsOf (wordAt t.pkt.payload 0) 12 0 + 8)
        else decide (512 < len))

/-- The dateline bit of a packet as it stands at this device (R503): that of its VC, or 1 after the link it came by crosses a
dateline. -/
def State.datelineBit (s : State) (i : Nat) (p : ReinPkt) : Nat :=
  let vc := p.vc.toNat
  let dim := s.portDim i
  let d := s.dimSize dim
  let c := coordOf s.ownPos dim
  let crossed := s.portRole i == 1 && (if s.portDir i = 1 then c == 0 else decide (0 < d) && c == d - 1)
  if 16 ≤ vc then 0 else if crossed then 1 else vc % 2

/-- A packet that cannot go on (R503): a REQ packet is answered with an ERROR, anything else is discarded; both are counted. -/
def State.pktStops (s : State) (i : Nat) (t : TypedPkt) (code : Nat) : State := (s.dropPkt t code).portDiscard i

/-- Forward a packet to a port (R503, R504). A RELAY packet that finds no credit is dropped and counted (R501). -/
def State.forward (s : State) (i : Nat) (t : TypedPkt) (j g b : Nat) : State :=
  let cls := (typeClass t.typ).getD 0
  let u : TypedPkt := { t with pkt := { t.pkt with ghops := BitVec.ofNat 2 g, vc := BitVec.ofNat 5 (vcOf cls g b) } }
  let k := s.port j
  if 3 < g then (s.accepted t).portDiscard i
  else if t.typ = T_RELAY ∧ (k.credit 17 < cdiv (pktBytes u) 16 ∨ k.txq.any (fun x => x.pkt.vc.toNat == 17)) then
    (s.accepted t).bump .RNL_CNT j 8 1
  else s.queuePkt j u

/-! ## Requests of other devices (R274, R491) -/

/-- Answer a request: the response carries its TAG, GEN and the initiator's place. A response that fails at its source is lost. -/
def State.respond (s : State) (p : ReinPkt) (typ : Nat) (payload : List Byte) : State :=
  let r := s.sendPkt typ { mkPkt p.src.toNat s.devId p.corral.toNat p.tag.toNat p.gen.toNat 0 p.addr payload.length payload with
    srcIndex := p.srcIndex, srcRouter := p.srcRouter }
  match r.2 with
  | some e => r.1.noteSource e
  | none => r.1

/-- The corral that serves a request exists (R274). -/
def State.serveIn (s : State) (p : ReinPkt) (f : Nat → State) : State :=
  if (s.corral p.corral.toNat).isNone then s.sendError p E_REMOTE_CORRAL else f p.corral.toNat

/-- A request whose access failed (R269, R460, R491). -/
def State.serveFail (s : State) (p : ReinPkt) (e : Nat × MemErr) : State := (s.logAccess 2 p.corral.toNat e).sendError p e.2.err

/-- Bytes of a virtual address in a packet (R274). -/
def pktVa (p : ReinPkt) : Nat := p.addr.fld 56 0

/-- READ (R491). -/
def State.serveRead (s : State) (p : ReinPkt) : State :=
  s.serveIn p (fun c =>
    match s.rangeErr c false (pktVa p) p.len.toNat with
    | some e => s.serveFail p e
    | none => (s.portAccess .reinPort c false (pktVa p) p.len.toNat).respond p T_READ_DATA (s.vaBytes c (pktVa p) p.len.toNat))

/-- WRITE (R491). -/
def State.serveWrite (s : State) (p : ReinPkt) : State :=
  s.serveIn p (fun c =>
    match s.rangeErr c true (pktVa p) p.payload.length with
    | some e => s.serveFail p e
    | none => ((s.vaWrite c (pktVa p) p.payload).portAccess .reinPort c true (pktVa p) p.payload.length).respond p T_WRITE_ACK [])

/-- CODE of a TETHER_OP (R491): the new value of a tether. -/
def tetherNew (code : Nat) (old a b : Word) : Option Word :=
  match code with
  | 1 => some a
  | 2 => some (old + a)
  | 3 => some (old + a)
  | 4 => some (if old = a then b else old)
  | _ => none

/-- TETHER_OP (R322, R491): answered with the value before the update. -/
def State.serveTether (s : State) (p : ReinPkt) : State :=
  s.serveIn p (fun c =>
    let t := p.addr.toNat
    if 32768 ≤ t ∨ !s.owns c .tether t then s.sendError p E_CORRAL_ACCESS
    else
      let old := s.tether t
      match tetherNew p.code.toNat old (BitVec.ofNat 64 (wordAt p.payload 0)) (BitVec.ofNat 64 (wordAt p.payload 8)) with
      | none => s.sendError p E_FIELD_RESERVED
      | some v => (if p.code.toNat = 4 ∧ v = old then s else s.setTether t v).respond p T_TETHER_RSP (leBytes 8 old.toNat))

/-! ## Responses (R439, R440, R491) -/

/-- A response to a request that is outstanding: `data` is what a READ_DATA brings to its place in the stream. -/
def State.responseIn (s : State) (p : ReinPkt) (data : Bool) : State :=
  let die := pktDie p
  let tag := p.tag.toNat
  match s.answered die tag p.gen.toNat with
  | none => s.lateRsp die tag p.gen.toNat
  | some r =>
    let s1 := s.untrack die tag
    let x := s1.ctx r.ctx
    let s2 := if data ∧ r.kind = T_READ ∧ (s1.cmd r.queue r.seq).isSome then
        s1.setCtx r.ctx { x with got := patchBytes x.got r.dest (p.payload.take r.len) } else s1
    s2.remoteSettle r

/-! ## TREE (R406, R407, R410, R513, R572) -/

/-- A contribution's packet (R513): the first of a chunk opens it, the others follow at the offset they state. -/
def State.contribIn (s : State) (p : ReinPkt) : State :=
  let off := p.addr.toNat
  let src := p.src.toNat
  let c := p.corral.toNat
  if off = 0 then
    let h := bytesWords 4 p.payload
    let k : Contribution :=
      { dev := src, corral := c, group := bitsOf (dw h 0) 39 32, part := bitsOf (dw h 0) 51 40, chunk := bitsOf (dw h 3) 63 32,
        header := h, need := 16 * bitsOf (dw h 3) 31 0, bytes := p.payload.drop 32 }
    { s with rein := { s.rein with contribs := s.rein.contribs ++ [k] } }
  else
    { s with rein := { s.rein with contribs := s.rein.contribs.map (fun k =>
        if k.dev = src ∧ k.corral = c ∧ k.bytes.length = off ∧ off < k.need then { k with bytes := k.bytes ++ p.payload } else k) } }

/-- A TREE packet at its destination: R513, or one of this model's codes for the other segments. -/
def State.treeIn (s : State) (p : ReinPkt) : State :=
  let src := p.src.toNat
  match p.code.toNat with
  | 1 => s.contribIn p
  | 2 => s.imageArrive p.addr p.payload
  | 3 => s.hitchReport src (p.addr.fld 63 32) (p.addr.fld 31 16) (p.addr.fld 15 14)
  | 4 => s.probeArrive src p.payload
  | 5 => s.answerArrive src (sumOf p.payload)
  | 6 => s.cardAsked
  | 7 => s.cardArrive src p.addr p.payload
  | _ => s

/-! ## TIME (R506 to R509) -/

/-- Delay and offset of an exchange in 1/64 ns (R507). -/
def timeDelay (t1 t2 t3 t4 trim : Int) : Int := ((t2 - t1) + (t4 - t3)) / 2 - trim
def timeOffset (t1 t2 t3 t4 : Int) : Int := ((t2 - t1) - (t4 - t3)) / 2

/-- The offset in 1/64 ns above which a locked device has lost its time: 1 µs (R508). -/
def timeLimit : Nat := 64000

/-- No region is released and no command is admitted (R508). -/
def State.mayStep (s : State) : Bool := s.cmds.isEmpty && (upTo 256).all (fun r => (s.region r).stage == 0)

/-- A TIME packet of the parent (R507 to R509). Word 0 and word 1 bits [5:0] of its payload are t1, ADDR t4; t2 and t3 are this
side's own stamps. -/
def State.timeIn (s : State) (i : Nat) (p : ReinPkt) (t2 t3 : Nat) : State :=
  if s.timeParent ≠ some p.src.toNat ∨ s.svc.leadLost then s
  else
    let t1 : Int := wordAt p.payload 0 * 64 + wordAt p.payload 8 % 64
    let delay := timeDelay t1 t2 t3 p.addr.toNat ((s.reg .RNL_DELAY i 0).extractLsb' 48 16).toInt
    let off := timeOffset t1 t2 t3 p.addr.toNat
    let s1 := (s.setFld .RNL_DELAY i 0 31 0 (delay % 2 ^ 32).toNat).setFld .RNL_TIME_STATUS 0 0 31 0 (off % 2 ^ 32).toNat
    let parentLocked := bitAt (wordAt p.payload 24) 0 || p.src.toNat == s.fld .RNL_STRING 0 0 63 54 * 64
    if !s1.rein.locked then
      if !parentLocked then s1
      else if s1.mayStep then
        let t : State := { s1 with time := (s1.time - off / 64).toNat, rein := { s1.rein with locked := true } }
        t.setFld .RNL_TIME_STATUS 0 0 63 63 1
      else if off.natAbs ≤ timeLimit then
        ({ s1 with rein := { s1.rein with locked := true } } : State).setFld .RNL_TIME_STATUS 0 0 63 63 1
      else s1
    else if timeLimit < off.natAbs then
      if (s1.reg .RNL_TIME_STATUS 0 0).bit 63 then
        (upTo 16).foldl (fun t j => t.raise0 .rnl j 7) (s1.setFld .RNL_TIME_STATUS 0 0 63 63 0)
      else s1
    else s1.setFld .RNL_TIME_STATUS 0 0 63 63 1

/-! ## ENUM (R500) -/

/-- The word an ENUM carries: HITCH, POSITION, DX, DY and DZ of its sender, in their places of RNL_IDENT. -/
def State.enumWord (s : State) : Word := (s.reg .RNL_IDENT 0 0).put 38 0 0

/-- Send an ENUM out of a port. -/
def State.sendEnum (s : State) (i : Nat) : State :=
  let p := mkPkt (s.ownHitch * 64 + s.neighbour (s.portDim i) (s.portDir i)) s.devId 0 0 0 1 s.enumWord 0 []
  s.queuePkt i { typ := T_ENUM, pkt := { p with vc := BitVec.ofNat 5 17 } }

/-- The UP torus ports. -/
def State.upTorus (s : State) : List Nat := (upTo 16).filter (fun i => s.portRole i == 1 && s.portState i == 5)

/-- Conflicting or misplaced enumeration (R500): the port, which was UP, is treated as MISWIRED. DESIGN CHOICE (log 136): its packets go
as R494 has them go, and CAUSE, which names no such exit from UP, stays as it was. -/
def State.enumConflict (s : State) (i : Nat) : State :=
  (s.raise0 .rnl i 6).linkLeaves i (s.fld .RNL_PORT_STATUS i 0 6 4) 6

/-- The position an ENUM gives this device: its sender's coordinates stepped by the direction of the receiving port (R500): the
port of d− is cabled to the sender's d+. -/
def State.enumPos (s : State) (i : Nat) (w : Word) : Nat :=
  let dim := s.portDim i
  let d := match dim with | 0 => w.fld 47 45 | 1 => w.fld 44 42 | _ => w.fld 41 39
  let c := coordOf (w.fld 53 48) dim
  withCoord (w.fld 53 48) dim ((c + (if s.portDir i = 1 then 1 else d - 1)) % max 1 d)

/-- An ENUM arrives (R500): the first numbers the device, which reports to the lead and forwards it. A numbered device forwards one
that agrees toward absent positions, which an admitted device may have taken (R612). The lead itself is never enumerated, so no
ENUM is sent toward position 0. -/
def State.enumIn (s : State) (i : Nat) (w : Word) : State :=
  let pos := s.enumPos i w
  if s.isLead ∨ s.portRole i ≠ 1 then s.enumConflict i
  else if s.rein.numbered then
    if pos ≠ s.ownPos ∨ w.fld 63 54 ≠ s.ownHitch then s.enumConflict i
    else (s.upTorus.filter (fun j => j != i && s.posAbsent (s.neighbour (s.portDim j) (s.portDir j)))).foldl (fun t j => t.sendEnum j) s
  else
    let id := (((s.reg .RNL_IDENT 0 0).put 63 54 (w.fld 63 54)).put 53 48 pos).put 47 39 (w.fld 47 39)
    let s1 := s.setReg .RNL_IDENT 0 0 id
    let s2 : State := { s1 with rein := { s1.rein with numbered := true }, svc := { s1.svc with pollSeen := s1.time } }
    let s3 := (s2.upTorus.filter (fun j => j != i && s2.neighbour (s2.portDim j) (s2.portDir j) != 0)).foldl (fun t j => t.sendEnum j) s2
    (s3.sendPkt T_ENUM (mkPkt (s3.ownHitch * 64) s3.devId 0 0 0 2 s3.enumWord 0 [])).1

/-- A device's report reaches the lead (R500, R608). -/
def State.enumReport (s : State) (w : Word) : State :=
  if s.isLead then
    ({ s with rein := { s.rein with coords := smPut s.rein.coords (w.fld 53 48) 1 } } : State).presentPos (w.fld 53 48)
  else s

/-- ENUMERATION_START (R500): only a lead enumerates; one without a neighbour is a hitch of itself alone (R497). -/
def State.enumStart (s : State) (dims : Nat) : State :=
  if !s.isLead then s
  else
    let d := if s.upTorus.isEmpty then 64 + 8 + 1 else dims
    let s1 := s.setReg .RNL_IDENT 0 0 (((s.reg .RNL_IDENT 0 0).put 53 48 0).put 47 39 d)
    let s2 : State := { s1 with rein := { s1.rein with numbered := true } }
    let s3 := if s2.hotPlug then s2.spreadPresence s2.leadMask else s2
    s3.upTorus.foldl (fun t i => t.sendEnum i) s3

/-! ## RELAY (R501, R526) -/

/-- A relayed frame reaches its wheeler, as though it had arrived on the host port its relay word names. -/
def State.relayIn (s : State) (p : ReinPkt) (f : EthFrame) : State :=
  let port := bitsOf (wordAt p.payload 0) 17 16
  let s1 := s.bump .HST_CNT port 0 1
  if s.isLead then s
  else if s.frameBad port f ∨ !isRoce f.body then s1.bump .HST_CNT port 2 1
  else s1.roceIn port f

/-- The frame a RELAY packet's payload carries (R501). -/
def relayFrame (p : ReinPkt) : EthFrame := Config.frameOf ((p.payload.drop 8).take (bitsOf (wordAt p.payload 0) 12 0))

/-! ## Delivery -/

/-- What a packet does at its destination (R491). `f` is the frame of a RELAY, `t2` and `t3` the stamps of a TIME exchange. -/
def State.pktHere (s : State) (i : Nat) (t : TypedPkt) (f : EthFrame) (t2 t3 : Nat) : State :=
  match t.typ with
  | 1 => s.serveRead t.pkt
  | 2 => s.responseIn t.pkt true
  | 3 => s.serveWrite t.pkt
  | 4 => s.responseIn t.pkt false
  | 5 => s.serveTether t.pkt
  | 6 => s.responseIn t.pkt false
  | 7 => s.errorArrive (pktDie t.pkt) t.pkt.tag.toNat t.pkt.gen.toNat t.pkt.code.toNat
  | 8 => s.treeIn t.pkt
  | 9 => s.timeIn i t.pkt t2 t3
  | 10 => s.enumReport t.pkt.addr
  | 11 => s.relayIn t.pkt f
  | _ => s

/-- Where a packet that has come by a port goes next (R503, R526). -/
def State.hopOf (s : State) (i : Nat) (t : TypedPkt) : Hop :=
  let p := t.pkt
  let last := if s.portRole i = 1 then some (s.portDim i) else none
  let b := s.datelineBit i p
  if t.typ = T_RELAY then s.relayHop p.src.toNat p.dst.toNat p.ghops.toNat b last
  else s.nextHop p.src.toNat p.dst.toNat p.ghops.toNat b last

/-- A packet passes on or is delivered (R503). -/
def State.pktRoute (s : State) (i : Nat) (t : TypedPkt) (f : EthFrame) (t2 t3 : Nat) : State :=
  match s.hopOf i t with
  | .here => (s.accepted t).pktHere i t f t2 t3
  | .out j g b1 => s.forward i t j g b1
  | .removed => s.pktStops i t E_DEVICE_REMOVED
  | .fail e => s.pktStops i t e

/-- A packet arrives on a port that is UP (R491, R492). The ENUMs that number devices go from neighbour to neighbour. -/
def State.pktArrive (s : State) (i : Nat) (t : TypedPkt) (f : EthFrame) (t2 t3 : Nat) : State :=
  if s.portState i ≠ 5 then s
  else if pktBad t then (s.accepted t).portDiscard i
  else if t.typ = T_ENUM ∧ t.pkt.code.toNat = 1 then (s.accepted t).enumIn i t.pkt.addr
  else s.pktRoute i t f t2 t3

/-- A packet of a row whose TYPE carries no frame and no stamps. -/
def State.pktRow (s : State) (i typ : Nat) (p : ReinPkt) : State := s.pktArrive i { typ := typ, pkt := p } (relayFrame p) 0 0

/-- A flit arrives and the packets that it completes (R487 to R489), each in the port's receive buffer until something accepts it. The
stamps of a TIME packet are those of the port's last commas (R507). -/
def State.flitArrive (s : State) (i : Nat) (flit : List Byte) : State :=
  let r := s.flitIn i flit
  r.2.foldl (fun t p =>
    t.pktArrive i { p with via := some (i, p.pkt.vc.toNat) } (relayFrame p.pkt) (t.port i).rx.commaAt (t.port i).tx.commaAt) r.1

/-- A flit taken, with what no flit touches as it was: the queue of commands, the fuses, the power domain and the test port. -/
def State.flitTake (s : State) (i : Nat) (f : List Byte) : State :=
  { s.flitArrive i f with pending := s.pending, fuse := s.fuse, pwr := s.pwr, tap := s.tap }

/-- The levels of a received slot, by physical lane. -/
def slotLevels (v : Byte) : List Nat := [v.toNat % 4, v.toNat / 4 % 4, v.toNat / 16 % 4, v.toNat / 64]

/-- What arrives on a port's line: a flit, or the slots of a codeword pair with the flits that come out of it, in order. -/
def State.lineArrive (s : State) (i : Nat) : RxUnit → State
  | .flit f => s.flitTake i f
  | .pair slots => let r := s.pairIn i (slots.map slotLevels); (r.2.filterMap id).foldl (fun t f => t.flitTake i f) r.1

/-! ## The rows -/

/-- REIN_FLIT_RECEIVE (R481, R484, R485, R487, R488). -/
def execReinFlitReceive (port : Fin 16) (rx : RxUnit) (s : State) : Host.Outcome State Fault Refusal :=
  s.liveAll (s.lineArrive port.val rx)

/-- READ (R491). -/
def execReinRead (port : Fin 16) (packet : ReinPkt) (s : State) : Host.Outcome State Fault Refusal :=
  s.live (s.pktRow port.val T_READ packet)

/-- READ_DATA (R491). -/
def execReinReadData (port : Fin 16) (packet : ReinPkt) (s : State) : Host.Outcome State Fault Refusal :=
  s.live (s.pktRow port.val T_READ_DATA packet)

/-- WRITE (R491). -/
def execReinWrite (port : Fin 16) (packet : ReinPkt) (s : State) : Host.Outcome State Fault Refusal :=
  s.live (s.pktRow port.val T_WRITE packet)

/-- WRITE_ACK (R491). -/
def execReinWriteAck (port : Fin 16) (packet : ReinPkt) (s : State) : Host.Outcome State Fault Refusal :=
  s.live (s.pktRow port.val T_WRITE_ACK packet)

/-- REMOTE_TETHER_SIGNAL (R491). -/
def execRemoteTetherSignal (port : Fin 16) (packet : ReinPkt) (s : State) : Host.Outcome State Fault Refusal :=
  s.live (s.pktRow port.val T_TETHER_OP { packet with code := 1 })

/-- REMOTE_TETHER_ADD (R491). -/
def execRemoteTetherAdd (port : Fin 16) (packet : ReinPkt) (s : State) : Host.Outcome State Fault Refusal :=
  s.live (s.pktRow port.val T_TETHER_OP { packet with code := 2 })

/-- REMOTE_TETHER_FETCH_ADD (R491). -/
def execRemoteTetherFetchAdd (port : Fin 16) (packet : ReinPkt) (s : State) : Host.Outcome State Fault Refusal :=
  s.live (s.pktRow port.val T_TETHER_OP { packet with code := 3 })

/-- REMOTE_TETHER_COMPARE_SWAP (R491). -/
def execRemoteTetherCompareSwap (port : Fin 16) (packet : ReinPkt) (s : State) : Host.Outcome State Fault Refusal :=
  s.live (s.pktRow port.val T_TETHER_OP { packet with code := 4 })

/-- TETHER_RSP (R491). -/
def execTetherRsp (port : Fin 16) (packet : ReinPkt) (s : State) : Host.Outcome State Fault Refusal :=
  s.live (s.pktRow port.val T_TETHER_RSP packet)

/-- ERROR (R491). -/
def execReinError (port : Fin 16) (packet : ReinPkt) (s : State) : Host.Outcome State Fault Refusal :=
  s.live (s.pktRow port.val T_ERROR packet)

/-- TREE (R513). -/
def execReinTree (port : Fin 16) (packet : ReinPkt) (s : State) : Host.Outcome State Fault Refusal :=
  s.live (s.pktRow port.val T_TREE packet)

/-- TIME (R507). -/
def execReinTime (port : Fin 16) (packet : ReinPkt) (arrival departure : BitVec 64) (s : State) : Host.Outcome State Fault Refusal :=
  s.liveAll { s.pktArrive port.val { typ := T_TIME, pkt := packet } (relayFrame packet) arrival.toNat departure.toNat with
    pending := s.pending, fuse := s.fuse, pwr := s.pwr, tap := s.tap }

/-- ENUM (R500). -/
def execReinEnum (port : Fin 16) (packet : ReinPkt) (s : State) : Host.Outcome State Fault Refusal :=
  s.live (s.pktRow port.val T_ENUM packet)

/-- RELAY (R501). -/
def execReinRelay (port : Fin 16) (packet : ReinPkt) (frame : EthFrame) (s : State) : Host.Outcome State Fault Refusal :=
  s.live (s.pktArrive port.val { typ := T_RELAY, pkt := packet } frame 0 0)

/-- ENUMERATION_START (R500). -/
def execEnumerationStart (dims : BitVec 9) (s : State) : Host.Outcome State Fault Refusal := s.live (s.enumStart dims.toNat)

end Sys2Proof.Machine
end

