-- ==== Sys2Proof/Machine/Dispatch.lean ====
section
/-! DEFINITION. The meaning of every command: one arm per constructor of Instr. -/

namespace Sys2Proof.Machine

def exec (i : Instr) (s : State) : Host.Outcome State Fault Refusal :=
  match i with
  | .powerOnReset roleLead => Sys2Proof.Machine.execPowerOnReset roleLead s
  | .porstAssert ns => Sys2Proof.Machine.execPorstAssert ns s
  | .supplyUndervoltage => Sys2Proof.Machine.execSupplyUndervoltage s
  | .refclkLoss => Sys2Proof.Machine.execRefclkLoss s
  | .thermalTrip die => Sys2Proof.Machine.execThermalTrip die s
  | .voltageLoopPass die temp vmeas iout rate power est pmbOk => Sys2Proof.Machine.execVoltageLoopPass die temp vmeas iout rate power est pmbOk s
  | .pmbusRetryTimer die ok => Sys2Proof.Machine.execPmbusRetryTimer die ok s
  | .voltageRecal die vout => Sys2Proof.Machine.execVoltageRecal die vout s
  | .i2cReadWord command => Sys2Proof.Machine.execI2cReadWord command s
  | .tapBypass => Sys2Proof.Machine.execTapBypass s
  | .tapIdcode => Sys2Proof.Machine.execTapIdcode s
  | .tapSample pins drive => Sys2Proof.Machine.execTapSample pins drive s
  | .tapExtest drive => Sys2Proof.Machine.execTapExtest drive s
  | .tapClamp => Sys2Proof.Machine.execTapClamp s
  | .tapHighz => Sys2Proof.Machine.execTapHighz s
  | .hp0BootTimeout => Sys2Proof.Machine.execHp0BootTimeout s
  | .bootGo value => Sys2Proof.Machine.execBootGo value s
  | .bootCheckDone => Sys2Proof.Machine.execBootCheckDone s
  | .hbmTrainingDone failed => Sys2Proof.Machine.execHbmTrainingDone failed s
  | .grmDrvFeaturesWrite value => Sys2Proof.Machine.execGrmDrvFeaturesWrite value s
  | .attest seq len => Sys2Proof.Machine.execAttest seq len s
  | .certChain seq len => Sys2Proof.Machine.execCertChain seq len s
  | .keyOffer seq len => Sys2Proof.Machine.execKeyOffer seq len s
  | .keyInstall seq len => Sys2Proof.Machine.execKeyInstall seq len s
  | .handover seq len => Sys2Proof.Machine.execHandover seq len s
  | .fuse seq len => Sys2Proof.Machine.execFuse seq len s
  | .grmRequestDone => Sys2Proof.Machine.execGrmRequestDone s
  | .handoverImageChecked => Sys2Proof.Machine.execHandoverImageChecked s
  | .handoverCheckpointDone header state => Sys2Proof.Machine.execHandoverCheckpointDone header state s
  | .handoverFirmwareStart => Sys2Proof.Machine.execHandoverFirmwareStart s
  | .handoverReady cold => Sys2Proof.Machine.execHandoverReady cold s
  | .handoverDeadlineMiss => Sys2Proof.Machine.execHandoverDeadlineMiss s
  | .coreWatchdogExpiry core => Sys2Proof.Machine.execCoreWatchdogExpiry core s
  | .heartbeatTimeout => Sys2Proof.Machine.execHeartbeatTimeout s
  | .groomSramUncorr => Sys2Proof.Machine.execGroomSramUncorr s
  | .firmwareDeclareFailed => Sys2Proof.Machine.execFirmwareDeclareFailed s
  | .eventRecordWrite => Sys2Proof.Machine.execEventRecordWrite s
  | .ethFrameReceive port frame => Sys2Proof.Machine.execEthFrameReceive port frame s
  | .pfcXonSend port kib => Sys2Proof.Machine.execPfcXonSend port kib s
  | .pfcFrameReceive port enable quanta => Sys2Proof.Machine.execPfcFrameReceive port enable quanta s
  | .pfcPauseExpiry port prio => Sys2Proof.Machine.execPfcPauseExpiry port prio s
  | .cnpReceive qp => Sys2Proof.Machine.execCnpReceive qp s
  | .cnpRateRecovery qp => Sys2Proof.Machine.execCnpRateRecovery qp s
  | .hostLinkChange port line lanes anDone => Sys2Proof.Machine.execHostLinkChange port line lanes anDone s
  | .roceSend qp psn data => Sys2Proof.Machine.execRoceSend qp psn data s
  | .rdmaWrite qp psn rkey off data => Sys2Proof.Machine.execRdmaWrite qp psn rkey off data s
  | .rdmaRead qp psn rkey off len => Sys2Proof.Machine.execRdmaRead qp psn rkey off len s
  | .rdmaCompareSwap qp psn rkey off compare swap => Sys2Proof.Machine.execRdmaCompareSwap qp psn rkey off compare swap s
  | .rdmaFetchAdd qp psn rkey off addend => Sys2Proof.Machine.execRdmaFetchAdd qp psn rkey off addend s
  | .roceUnsupportedRequest qp psn => Sys2Proof.Machine.execRoceUnsupportedRequest qp psn s
  | .roceResponseReceive qp psn rsp => Sys2Proof.Machine.execRoceResponseReceive qp psn rsp s
  | .roceAckTimeout qp => Sys2Proof.Machine.execRoceAckTimeout qp s
  | .registerWrite addr value => Sys2Proof.Machine.execRegisterWrite addr value s
  | .dbPiWrite port queue value => Sys2Proof.Machine.execDbPiWrite port queue value s
  | .dbCiWrite port queue value => Sys2Proof.Machine.execDbCiWrite port queue value s
  | .streamResume port queue value => Sys2Proof.Machine.execStreamResume port queue value s
  | .streamAbort port queue value => Sys2Proof.Machine.execStreamAbort port queue value s
  | .queueEnable queue start => Sys2Proof.Machine.execQueueEnable queue start s
  | .queueDisable queue => Sys2Proof.Machine.execQueueDisable queue s
  | .qpArm qp => Sys2Proof.Machine.execQpArm qp s
  | .qpReset qp => Sys2Proof.Machine.execQpReset qp s
  | .mrFlush index => Sys2Proof.Machine.execMrFlush index s
  | .xlateInval value => Sys2Proof.Machine.execXlateInval value s
  | .matrix queue => Sys2Proof.Machine.execMatrix queue s
  | .vector queue => Sys2Proof.Machine.execVector queue s
  | .moveCopy queue => Sys2Proof.Machine.execMoveCopy queue s
  | .moveMulticast queue => Sys2Proof.Machine.execMoveMulticast queue s
  | .gather queue => Sys2Proof.Machine.execGather queue s
  | .scatter queue => Sys2Proof.Machine.execScatter queue s
  | .scatterAdd queue => Sys2Proof.Machine.execScatterAdd queue s
  | .scatterMin queue => Sys2Proof.Machine.execScatterMin queue s
  | .scatterMax queue => Sys2Proof.Machine.execScatterMax queue s
  | .drain queue => Sys2Proof.Machine.execDrain queue s
  | .tandem queue => Sys2Proof.Machine.execTandem queue s
  | .tetherWait queue => Sys2Proof.Machine.execTetherWait queue s
  | .tetherSignal queue => Sys2Proof.Machine.execTetherSignal queue s
  | .tetherAdd queue => Sys2Proof.Machine.execTetherAdd queue s
  | .ctxSave queue => Sys2Proof.Machine.execCtxSave queue s
  | .ctxRestore queue => Sys2Proof.Machine.execCtxRestore queue s
  | .fence queue => Sys2Proof.Machine.execFence queue s
  | .resync queue => Sys2Proof.Machine.execResync queue s
  | .stepCmd queue => Sys2Proof.Machine.execStepCmd queue s
  | .leaseGrant queue => Sys2Proof.Machine.execLeaseGrant queue s
  | .leaseWaitTimeout queue => Sys2Proof.Machine.execLeaseWaitTimeout queue s
  | .tetherWaitTimeout queue seq => Sys2Proof.Machine.execTetherWaitTimeout queue seq s
  | .drainRelease queue seq => Sys2Proof.Machine.execDrainRelease queue seq s
  | .tandemStageBegin queue seq stage => Sys2Proof.Machine.execTandemStageBegin queue seq stage s
  | .tandemStageComplete queue seq stage => Sys2Proof.Machine.execTandemStageComplete queue seq stage s
  | .commandComplete queue seq => Sys2Proof.Machine.execCommandComplete queue seq s
  | .chainHandshakeTimeout stall => Sys2Proof.Machine.execChainHandshakeTimeout stall s
  | .stationaryParityError stall row => Sys2Proof.Machine.execStationaryParityError stall row s
  | .acsUncorrectable stall err => Sys2Proof.Machine.execAcsUncorrectable stall err s
  | .vecUncorrectable stall bank err => Sys2Proof.Machine.execVecUncorrectable stall bank err s
  | .gaitMeterSample stall rate => Sys2Proof.Machine.execGaitMeterSample stall rate s
  | .xlateFaultHalt ctx => Sys2Proof.Machine.execXlateFaultHalt ctx s
  | .streamWatchdogExpiry ctx => Sys2Proof.Machine.execStreamWatchdogExpiry ctx s
  | .mcastLagExpiry ctx receiver lag => Sys2Proof.Machine.execMcastLagExpiry ctx receiver lag s
  | .vsli stall => Sys2Proof.Machine.execVsli stall s
  | .vslih stall => Sys2Proof.Machine.execVslih stall s
  | .vsadd stall => Sys2Proof.Machine.execVsadd stall s
  | .vssub stall => Sys2Proof.Machine.execVssub stall s
  | .vsmul stall => Sys2Proof.Machine.execVsmul stall s
  | .vsand stall => Sys2Proof.Machine.execVsand stall s
  | .vsor stall => Sys2Proof.Machine.execVsor stall s
  | .vsxor stall => Sys2Proof.Machine.execVsxor stall s
  | .vsshl stall => Sys2Proof.Machine.execVsshl stall s
  | .vsshr stall => Sys2Proof.Machine.execVsshr stall s
  | .vssra stall => Sys2Proof.Machine.execVssra stall s
  | .vsaddi stall => Sys2Proof.Machine.execVsaddi stall s
  | .vsld stall => Sys2Proof.Machine.execVsld stall s
  | .vsst stall => Sys2Proof.Machine.execVsst stall s
  | .vbeq stall => Sys2Proof.Machine.execVbeq stall s
  | .vbne stall => Sys2Proof.Machine.execVbne stall s
  | .vblt stall => Sys2Proof.Machine.execVblt stall s
  | .vbltu stall => Sys2Proof.Machine.execVbltu stall s
  | .vjmp stall => Sys2Proof.Machine.execVjmp stall s
  | .vhalt stall => Sys2Proof.Machine.execVhalt stall s
  | .vvld stall => Sys2Proof.Machine.execVvld stall s
  | .vvst stall => Sys2Proof.Machine.execVvst stall s
  | .vvldx stall => Sys2Proof.Machine.execVvldx stall s
  | .vvstx stall => Sys2Proof.Machine.execVvstx stall s
  | .vvadd stall => Sys2Proof.Machine.execVvadd stall s
  | .vvsub stall => Sys2Proof.Machine.execVvsub stall s
  | .vvmul stall => Sys2Proof.Machine.execVvmul stall s
  | .vvmadd stall => Sys2Proof.Machine.execVvmadd stall s
  | .vvmin stall => Sys2Proof.Machine.execVvmin stall s
  | .vvmax stall => Sys2Proof.Machine.execVvmax stall s
  | .vvabs stall => Sys2Proof.Machine.execVvabs stall s
  | .vvneg stall => Sys2Proof.Machine.execVvneg stall s
  | .vvdiv stall => Sys2Proof.Machine.execVvdiv stall s
  | .vvsqrt stall => Sys2Proof.Machine.execVvsqrt stall s
  | .vcmul stall => Sys2Proof.Machine.execVcmul stall s
  | .vvcmp stall => Sys2Proof.Machine.execVvcmp stall s
  | .vvsel stall => Sys2Proof.Machine.execVvsel stall s
  | .vvand stall => Sys2Proof.Machine.execVvand stall s
  | .vvor stall => Sys2Proof.Machine.execVvor stall s
  | .vvxor stall => Sys2Proof.Machine.execVvxor stall s
  | .vvshl stall => Sys2Proof.Machine.execVvshl stall s
  | .vvshr stall => Sys2Proof.Machine.execVvshr stall s
  | .vvpopc stall => Sys2Proof.Machine.execVvpopc stall s
  | .vviota stall => Sys2Proof.Machine.execVviota stall s
  | .vvbcast stall => Sys2Proof.Machine.execVvbcast stall s
  | .vvcvt stall => Sys2Proof.Machine.execVvcvt stall s
  | .vvcvtmx stall => Sys2Proof.Machine.execVvcvtmx stall s
  | .vvredadd stall => Sys2Proof.Machine.execVvredadd stall s
  | .vvredmin stall => Sys2Proof.Machine.execVvredmin stall s
  | .vvredmax stall => Sys2Proof.Machine.execVvredmax stall s
  | .vvcompress stall => Sys2Proof.Machine.execVvcompress stall s
  | .vhwait stall => Sys2Proof.Machine.execVhwait stall s
  | .vhpost stall => Sys2Proof.Machine.execVhpost stall s
  | .vdispatch stall => Sys2Proof.Machine.execVdispatch stall s
  | .bankSwitch stall => Sys2Proof.Machine.execBankSwitch stall s
  | .discardRequestsRetired corral => Sys2Proof.Machine.execDiscardRequestsRetired corral s
  | .nocPacketHop packet => Sys2Proof.Machine.execNocPacketHop packet s
  | .nocFlitStuck packet => Sys2Proof.Machine.execNocFlitStuck packet s
  | .initiatorTimeout die tag => Sys2Proof.Machine.execInitiatorTimeout die tag s
  | .lateResponse die tag gen => Sys2Proof.Machine.execLateResponse die tag gen s
  | .tagHoldExpiry die tag => Sys2Proof.Machine.execTagHoldExpiry die tag s
  | .treeContribTimeout queue seq => Sys2Proof.Machine.execTreeContribTimeout queue seq s
  | .hbmPositionServe stack ctrl pos => Sys2Proof.Machine.execHbmPositionServe stack ctrl pos s
  | .selfRefreshEntry stack pc => Sys2Proof.Machine.execSelfRefreshEntry stack pc s
  | .bankRefresh stack pc bank => Sys2Proof.Machine.execBankRefresh stack pc bank s
  | .hbmScrubRead stack ctrl => Sys2Proof.Machine.execHbmScrubRead stack ctrl s
  | .scrubDeferWake stack pc => Sys2Proof.Machine.execScrubDeferWake stack pc s
  | .hbmTempHot stack temp => Sys2Proof.Machine.execHbmTempHot stack temp s
  | .hbmFence stack => Sys2Proof.Machine.execHbmFence stack s
  | .hbmUnfence stack => Sys2Proof.Machine.execHbmUnfence stack s
  | .hbmRetrain stack => Sys2Proof.Machine.execHbmRetrain stack s
  | .hbmFenceComplete stack => Sys2Proof.Machine.execHbmFenceComplete stack s
  | .hbmRetrainComplete stack ok => Sys2Proof.Machine.execHbmRetrainComplete stack ok s
  | .channelWordDeliver paddock word => Sys2Proof.Machine.execChannelWordDeliver paddock word s
  | .gaitStop paddock => Sys2Proof.Machine.execGaitStop paddock s
  | .ringBatchFlush paddock => Sys2Proof.Machine.execRingBatchFlush paddock s
  | .paddockRamAccess paddock off data len => Sys2Proof.Machine.execPaddockRamAccess paddock off data len s
  | .probeArm paddock => Sys2Proof.Machine.execProbeArm paddock s
  | .probeStop paddock => Sys2Proof.Machine.execProbeStop paddock s
  | .replayArm paddock => Sys2Proof.Machine.execReplayArm paddock s
  | .replayStop paddock => Sys2Proof.Machine.execReplayStop paddock s
  | .probeStartTick paddock => Sys2Proof.Machine.execProbeStartTick paddock s
  | .captureBlockWrite paddock => Sys2Proof.Machine.execCaptureBlockWrite paddock s
  | .stimulusBlockArrival paddock => Sys2Proof.Machine.execStimulusBlockArrival paddock s
  | .cfgRelease region => Sys2Proof.Machine.execCfgRelease region s
  | .cfgHold region => Sys2Proof.Machine.execCfgHold region s
  | .releaseWaitAExpiry region => Sys2Proof.Machine.execReleaseWaitAExpiry region s
  | .releaseWaitBExpiry region => Sys2Proof.Machine.execReleaseWaitBExpiry region s
  | .userResetDeassert paddock => Sys2Proof.Machine.execUserResetDeassert paddock s
  | .cfgLoad value => Sys2Proof.Machine.execCfgLoad value s
  | .cfgHeaderAccept => Sys2Proof.Machine.execCfgHeaderAccept s
  | .cfgCommit => Sys2Proof.Machine.execCfgCommit s
  | .cfgStreamTimeout => Sys2Proof.Machine.execCfgStreamTimeout s
  | .cfgLoadReport dev epoch code state => Sys2Proof.Machine.execCfgLoadReport dev epoch code state s
  | .consistProbe value => Sys2Proof.Machine.execConsistProbe value s
  | .consistPeriodExpiry => Sys2Proof.Machine.execConsistPeriodExpiry s
  | .consistProbeAnswer child matched mismatch loading missing firstMismatch firstMissing => Sys2Proof.Machine.execConsistProbeAnswer child matched mismatch loading missing firstMismatch firstMissing s
  | .consistAnswerTimeout child => Sys2Proof.Machine.execConsistAnswerTimeout child s
  | .reinTrainingComplete port ok freqError inverted => Sys2Proof.Machine.execReinTrainingComplete port ok freqError inverted s
  | .alignMarkerReceive port fields good fecLock ber => Sys2Proof.Machine.execAlignMarkerReceive port fields good fecLock ber s
  | .reinInitIdent port dev peerPort cfg numbered => Sys2Proof.Machine.execReinInitIdent port dev peerPort cfg numbered s
  | .reinLinkDown port cause => Sys2Proof.Machine.execReinLinkDown port cause s
  | .reinFlitReceive port rx => Sys2Proof.Machine.execReinFlitReceive port rx s
  | .reinRetryTimeout port => Sys2Proof.Machine.execReinRetryTimeout port s
  | .reinFailedRetry port => Sys2Proof.Machine.execReinFailedRetry port s
  | .rnlPortCfgWrite port value => Sys2Proof.Machine.execRnlPortCfgWrite port value s
  | .eyeScanStart port value => Sys2Proof.Machine.execEyeScanStart port value s
  | .eyeScanDone port errors => Sys2Proof.Machine.execEyeScanDone port errors s
  | .reinRead port packet => Sys2Proof.Machine.execReinRead port packet s
  | .reinReadData port packet => Sys2Proof.Machine.execReinReadData port packet s
  | .reinWrite port packet => Sys2Proof.Machine.execReinWrite port packet s
  | .reinWriteAck port packet => Sys2Proof.Machine.execReinWriteAck port packet s
  | .remoteTetherSignal port packet => Sys2Proof.Machine.execRemoteTetherSignal port packet s
  | .remoteTetherAdd port packet => Sys2Proof.Machine.execRemoteTetherAdd port packet s
  | .remoteTetherFetchAdd port packet => Sys2Proof.Machine.execRemoteTetherFetchAdd port packet s
  | .remoteTetherCompareSwap port packet => Sys2Proof.Machine.execRemoteTetherCompareSwap port packet s
  | .tetherRsp port packet => Sys2Proof.Machine.execTetherRsp port packet s
  | .reinError port packet => Sys2Proof.Machine.execReinError port packet s
  | .reinTree port packet => Sys2Proof.Machine.execReinTree port packet s
  | .reinTime port packet arrival departure => Sys2Proof.Machine.execReinTime port packet arrival departure s
  | .reinEnum port packet => Sys2Proof.Machine.execReinEnum port packet s
  | .reinRelay port packet frame => Sys2Proof.Machine.execReinRelay port packet frame s
  | .enumerationStart dims => Sys2Proof.Machine.execEnumerationStart dims s
  | .presenceMaskUpdate mask => Sys2Proof.Machine.execPresenceMaskUpdate mask s
  | .mgmtPoll answered => Sys2Proof.Machine.execMgmtPoll answered s
  | .leadPollLoss => Sys2Proof.Machine.execLeadPollLoss s
  | .admitProbe pos answer => Sys2Proof.Machine.execAdmitProbe pos answer s
  | .laneRetrain port => Sys2Proof.Machine.execLaneRetrain port s
  | .laneRetrainDrained port => Sys2Proof.Machine.execLaneRetrainDrained port s
  | .traceSample stamps lost => Sys2Proof.Machine.execTraceSample stamps lost s
  | .dbgTraceCfgWrite value => Sys2Proof.Machine.execDbgTraceCfgWrite value s
  | .occupancyTick => Sys2Proof.Machine.execOccupancyTick s
  | .stableCardDone queue seq => Sys2Proof.Machine.execStableCardDone queue seq s
  | .gaitEdge paddock pins => Sys2Proof.Machine.execGaitEdge paddock pins s
  | .bootPhyAlternate => Sys2Proof.Machine.execBootPhyAlternate s
  | .heartbeatAdvance => Sys2Proof.Machine.execHeartbeatAdvance s
  | .tapReset => Sys2Proof.Machine.execTapReset s
  | .hbmHotClear stack temp => Sys2Proof.Machine.execHbmHotClear stack temp s
  | .neighbourDownReport pos neighbour => Sys2Proof.Machine.execNeighbourDownReport pos neighbour s
  | .cfgReportTimeout dev => Sys2Proof.Machine.execCfgReportTimeout dev s
  | .cardAnswerTimeout dev => Sys2Proof.Machine.execCardAnswerTimeout dev s

end Sys2Proof.Machine
end

