-- ==== Sys2Proof/Safety.lean ====
section
/-!
DEFINITION. What counts as a safe run, in the terms statements use: a step that answers a next state, the invariant that every step
keeps, and the order in which fuses may change.
-/

namespace Sys2Proof.Machine

/-- A step that goes on: it answers a next state, and neither faults nor refuses. -/
def State.goesOn (s : State) : Prop := ∃ t, step s = .next t

/-- One slot after another in its life: EMPTY, then PROVISIONED with a hash, then REVOKED (R545). A revoked slot keeps what it holds, and a
provisioned one keeps its hash. -/
def KeySlot.le (a b : KeySlot) : Bool :=
  match a.st, b.st with
  | .empty, _ => true
  | .provisioned, .empty => false
  | .provisioned, _ => b.hash == a.hash
  | .revoked, .revoked => b.hash == a.hash
  | .revoked, _ => false

/-- Fuses change one way only (R545 to R547): slots move on, SEC_SVN.MIN never falls, an image key stays once it is written, and what
manufacture set stays. -/
def FuseSt.le (a b : FuseSt) : Bool :=
  a.vendor0.le b.vendor0 && a.vendor1.le b.vendor1 && a.owner0.le b.owner0 && a.owner1.le b.owner1 && a.owner2.le b.owner2
    && a.owner3.le b.owner3 && decide (a.svnMin ≤ b.svnMin) && (a.imageKey.isNone || b.imageKey == a.imageKey)
    && b.serial == a.serial && b.idSecret == a.idSecret && b.macs == a.macs

/-- An owner slot that is EMPTY holds no hash (R545). -/
def KeySlot.legal (k : KeySlot) : Bool := k.st != .empty || k.hash == 0

/-- The test port: with BYPASS, CLAMP or HIGHZ the selected register holds one bit, 0 at first; with IDCODE it is the device's (R633). -/
def TapSt.legal (t : TapSt) : Bool :=
  match t.ins with
  | .bypass => t.shift == 0
  | .clamp => t.shift == 0
  | .highz => t.shift == 0
  | .idcode => t.shift == 0x1307296B
  | _ => true

/-- The invariant that every step keeps: legal owner slots, a legal test port, and less than a millijoule of energy that PWR_ENERGY has
not taken yet (R636). -/
def State.Inv (s : State) : Prop :=
  (s.fuse.owner0.legal && s.fuse.owner1.legal && s.fuse.owner2.legal && s.fuse.owner3.legal) = true
    ∧ s.tap.legal = true ∧ s.pwr.energy < 10

/-- Every register outside a list of addresses reads as before. -/
def State.regsBut (s t : State) (l : List Nat) : Prop := ∀ a, a ∉ l → smGet regDefault t.regs a = smGet regDefault s.regs a

/-- Every byte outside `[a, a + n)` reads as before. -/
def State.memBut (s t : State) (a n : Nat) : Prop := ∀ b, b < a ∨ a + n ≤ b → t.rd b = s.rd b

/-- Of a register, every field outside `[hi:lo]` reads as before. -/
def State.fieldOnly (s t : State) (r : Reg) (inst idx hi lo : Nat) : Prop :=
  ∀ h l, h < lo ∨ hi < l → h < 64 → t.fld r inst idx h l = s.fld r inst idx h l

/-- Reads of HBM have been made and nothing else (R259, R267): units stand at the controllers, and what that itself changes (a
pseudo-channel that wakes, a corrected word, the caches of page-table entries) shows only in HBM_ registers. An access to paddock RAM
may be counted (R340). -/
def State.onlyUnits (s t : State) : Prop :=
  t = { s with hbm := { s.hbm with ctrls := t.hbm.ctrls, pcs := t.hbm.pcs, soft := t.hbm.soft }, xold := t.xold, regs := t.regs, svc := t.svc } ∧
  ∀ a, a ≠ regAddr .DBG_BAD_REG_ACCESS 0 0 → (∀ r inst idx, (regInfo r).blk = .hbm → a ≠ regAddr r inst idx) →
    smGet regDefault t.regs a = smGet regDefault s.regs a

/-- The registers that a reset loads from fuses and from the ROLE_LEAD ball (R121, R330, R499). -/
def State.fuseLoaded (s : State) : List Nat :=
  (upTo 4).map (fun p => regAddr .HST_MAC p 0) ++ [regAddr .RNL_IDENT 0 0] ++ s.fuse.rows.map (fun e => regAddr .STL_REPAIR e.1 0)

/-- What a reset leaves (R621, R624): the state after power-on reset, but for fuses and flash, the registers that load from them, the
stalls repaired by them, and the model's own queue, free values and record of the wires. -/
def State.AfterReset (s t : State) (held lead : Bool) : Prop :=
  t = { State.reset with pending := s.pending, draws := t.draws, sent := s.sent, fuse := s.fuse, regs := t.regs
                         pwr := { PwrSt.reset with held := held, roleLead := lead }
                         svc := { ServiceSt.reset with repairs := t.svc.repairs } }
    ∧ t.fld .RNL_IDENT 0 0 36 36 = b2n lead
    ∧ ∀ a, a ∉ s.fuseLoaded → smGet regDefault t.regs a = regDefault a

/-- The commands that act on a device held in reset or tripped: reset itself, the management interface's answer and the test port
(R624, R628, R633, R634). -/
def actsDown : Instr → Bool
  | .powerOnReset _ | .porstAssert _ | .supplyUndervoltage | .refclkLoss | .i2cReadWord _ => true
  | .tapBypass | .tapIdcode | .tapSample _ _ | .tapExtest _ | .tapClamp | .tapHighz | .tapReset => true
  | _ => false

/-- The commands that reset the device. -/
def resets : Instr → Bool
  | .powerOnReset _ | .porstAssert _ | .supplyUndervoltage | .refclkLoss => true
  | _ => false

/-- The six requests of the mailbox: OP, payload bytes, governing feature, command (R533, R536). -/
def requestRows : List (Nat × Nat × Nat × (BitVec 16 → BitVec 32 → Instr)) :=
  [(1, 64, 0, .attest), (2, 0, 1, .certChain), (3, 64, 2, .keyOffer), (4, 120, 2, .keyInstall), (5, 16, 3, .handover), (6, 40, 4, .fuse)]

/-- What a groom fault leaves (R542 to R544). -/
def State.GroomFaulted (s t : State) : Prop :=
  t.fld .GRM_FAULT_COUNT 0 0 47 0 = (s.fld .GRM_FAULT_COUNT 0 0 47 0 + 1) % 2 ^ 48 ∧ (t.reg .GRM_EVENT 0 0).bit 2 = true ∧
  t.groom.req = none ∧
  (∀ r, s.groom.req = some r → t.grmBusy = false ∧ t.fld .GRM_REQ_STATUS 0 0 55 48 = 5 ∧ t.fld .GRM_REQ_STATUS 0 0 47 32 = r.seq % 2 ^ 16) ∧
  (∀ st, st < 8 → s.stackState st = 5 → s.maintQ st = [3] → t.stackState st = 6) ∧
  (∀ i, i < 16 → s.portState i = 2 → t.portState i = 1) ∧
  t.groom.faults = (s.time :: s.groom.faults).take 3 ∧
  (∀ r, s.groom.image = some r →
    let fourth := match s.groom.faults with | [_, _, first] => decide (s.time ≤ first + ms 60000) | _ => false
    if fourth then t.grmPhase = 1 ∧ t.fld .GRM_BOOT_STATUS 0 0 55 48 = 9
    else if fwDigest (s.sramBytes 0 r.len) = r.digest then t.grmPhase = 6 ∧ t.fld .GRM_STATUS 0 0 15 12 = 15
    else t.grmPhase = 1 ∧ t.fld .GRM_BOOT_STATUS 0 0 55 48 = 6) ∧
  (s.resyncCorrals = [] →
    t = { s with regs := t.regs, svc := t.svc, groom := t.groom, hbm := t.hbm, mem := t.mem, draws := t.draws })

/-- Flits received at a port one after another. -/
def runFlits (i : Fin 16) : List (List Byte) → State → Host.Outcome State Fault Refusal
  | [], s => .next s
  | f :: t, s => match exec (.reinFlitReceive i (.flit f)) s with | .next u => runFlits i t u | o => o

/-- The command of each row of the descriptor classes, on a queue. -/
def rowInstr (q : Fin 65536) : ClassRow → Instr
  | .matrix => .matrix q
  | .vector => .vector q
  | .moveCopy => .moveCopy q
  | .moveMulticast => .moveMulticast q
  | .gather => .gather q
  | .scatter => .scatter q
  | .scatterAdd => .scatterAdd q
  | .scatterMin => .scatterMin q
  | .scatterMax => .scatterMax q
  | .drain => .drain q
  | .tandem => .tandem q
  | .tetherWait => .tetherWait q
  | .tetherSignal => .tetherSignal q
  | .tetherAdd => .tetherAdd q
  | .ctxSave => .ctxSave q
  | .ctxRestore => .ctxRestore q
  | .fence => .fence q
  | .resync => .resync q
  | .step => .stepCmd q

/-- The descriptor at ADMIT of a queue, read from a ring in HBM or brought by an RDMA READ (R308). -/
def State.atHead (s : State) (q : Nat) (d : List Word) : Prop :=
  let v := s.queue q
  let a := dw v.entry 0 + 128 * (v.admitIx % 2 ^ entryRingLog v)
  if entryRingHost v then v.fetched = some d
  else s.rangeErr (s.queueCorral q) false a 128 = none ∧ bytesWords 16 (s.vaBytes (s.queueCorral q) a 128) = d

/-- The command `seq` of queue `q` has ended with an error code: it is no longer in flight, and its queue remembers the code. -/
def State.ended (t : State) (q seq code : Nat) : Prop :=
  t.cmd q seq = none ∧ smGet (fun _ => 0) (t.queue q).outcome seq = code + 1

/-- What stays as it is while a command of queue `q` is admitted, granted or ended: every unit that commands do not run on, and of every
other queue all but its place in a wait, which a tether's new value or a STEP may end. -/
def State.cmdFrame (s t : State) (q : Nat) : Prop :=
  t = { s with draws := t.draws, regs := t.regs, mem := t.mem, bad := t.bad, queues := t.queues, cmds := t.cmds, ctxs := t.ctxs
               rings := t.rings, tethers := t.tethers, qps := t.qps, hostPorts := t.hostPorts, acs := t.acs, seqs := t.seqs, pdks := t.pdks, hbm := t.hbm, xold := t.xold
               svc := t.svc, sent := t.sent } ∧
  ∀ k, k ≠ q → { t.queue k with waiter := none, walkUnits := 0, walkGrain := false }
    = { s.queue k with waiter := none, walkUnits := 0, walkGrain := false }

/-- A command fails by itself (R598): it is failing, and no other command changes. -/
def State.failedAlone (s t : State) (c : Cmd) (code detail stage : Nat) : Prop :=
  t.cmd c.queue c.seq = some { c with counts := s.countsAtFail c stage, phase := .failing code detail stage } ∧
  ∀ q n, (q, n) ≠ (c.queue, c.seq) → t.cmd q n = s.cmd q n

/-- A corral fault raised by a command (R593, R594, R598): the command is failing, everything else in flight in its corral is discarded, and
FAULTS has the entry. -/
def State.corralFaulted (t : State) (c : Cmd) (code stage : Nat) (repair : List (Nat × Nat)) : Prop :=
  (∃ x, t.cmd c.queue c.seq = some x ∧ x.phase = .failing code 0 stage) ∧
  (∀ x ∈ t.cmds, x.corral = c.corral → (x.queue, x.seq) ≠ (c.queue, c.seq) → x.phase = .discarding code c.queue) ∧
  t.discard c.corral = some { code := code, queue := c.queue, instant := t.time, repair := repair, joined := [] } ∧
  t.svc.faults.head? = some { time := t.time, code := code, queue := c.queue, corral := c.corral }

/-- The opcodes of chapter 07 with their commands (R223). -/
def vectorRows : List (Nat × (Fin 3072 → Instr)) :=
  [(0x01, .vsli), (0x02, .vslih), (0x03, .vsadd), (0x04, .vssub), (0x05, .vsmul), (0x06, .vsand), (0x07, .vsor),
   (0x08, .vsxor), (0x09, .vsshl), (0x0A, .vsshr), (0x0B, .vssra), (0x0C, .vsaddi), (0x10, .vsld), (0x11, .vsst),
   (0x18, .vbeq), (0x19, .vbne), (0x1A, .vblt), (0x1B, .vbltu), (0x1C, .vjmp), (0x1F, .vhalt), (0x20, .vvld), (0x21, .vvst),
   (0x22, .vvldx), (0x23, .vvstx), (0x30, .vvadd), (0x31, .vvsub), (0x32, .vvmul), (0x33, .vvmadd), (0x34, .vvmin),
   (0x35, .vvmax), (0x36, .vvabs), (0x37, .vvneg), (0x38, .vvdiv), (0x39, .vvsqrt), (0x3A, .vcmul), (0x3B, .vvcmp),
   (0x3C, .vvsel), (0x40, .vvand), (0x41, .vvor), (0x42, .vvxor), (0x43, .vvshl), (0x44, .vvshr), (0x45, .vvpopc),
   (0x46, .vviota), (0x47, .vvbcast), (0x50, .vvcvt), (0x51, .vvcvtmx), (0x58, .vvredadd), (0x59, .vvredmin),
   (0x5A, .vvredmax), (0x5C, .vvcompress), (0x60, .vhwait), (0x61, .vhpost), (0x68, .vdispatch)]

/-- The instruction of an ACTIVE bank has been issued and the bank goes on at `pc` (R235, R248, R253): the bank is `k'` with its program
counter there and one more instruction issued, the counters of the issue have advanced, and no other sequencer or register changes. -/
def State.stepsBank (s t : State) (st : Nat) (b : Bool) (k k' : BankSt) (pc lanes converts : Nat) : Prop :=
  t = { s with regs := t.regs, seqs := t.seqs, mem := t.mem, bad := t.bad } ∧
  t.seqr st = (s.seqr st).setBank b { k' with pc := pc, issued := k.issued + 1, wait := .none } ∧
  (∀ x, x ≠ st → t.seqr x = s.seqr x) ∧
  t.fld .STL_SEQ_INSTR st 0 47 0 = (s.fld .STL_SEQ_INSTR st 0 47 0 + 1) % 2 ^ 48 ∧
  t.fld .VEC_LANE_OPS st 0 47 0 = (s.fld .VEC_LANE_OPS st 0 47 0 + lanes) % 2 ^ 48 ∧
  t.fld .VEC_CONVERTS st 0 47 0 = (s.fld .VEC_CONVERTS st 0 47 0 + converts) % 2 ^ 48 ∧
  s.regsBut t [regAddr .STL_SEQ_INSTR st 0, regAddr .VEC_LANE_OPS st 0, regAddr .VEC_CONVERTS st 0]

/-- An instruction has failed the command of its bank (R235, R252): the command is failing by itself, its event is set, and memory and the
accumulator stores are as they were. -/
def State.vecFailed (s t : State) (st : Nat) (c : Cmd) (code stage : Nat) : Prop :=
  (∃ x, t.cmd c.queue c.seq = some x ∧ x.phase = .failing code 0 stage) ∧
  (∀ bit, vecEventBit code = some bit → (t.reg .VEC_EVENT st 0).bit bit = true) ∧ t.mem = s.mem ∧ t.acs = s.acs

end Sys2Proof.Machine
end

