-- ==== Sys2Proof/Certificates/Slice0/Obligations.lean ====
section
/-!
DEFINITION. The statements about the block that are to be proved: one `def Obligations.<Name> : Prop` each. Where a statement rests on
a choice of the model, its docstring names the row of the assumption log.
-/

open Sys2Proof Sys2Proof.Machine

/-- With a command c at the front of the queue, the step is the meaning of c on the state whose queue is the rest. The queue is the
model's own (log entry 1). -/
def Obligations.StepRunsFrontCommand : Prop :=
  ∀ (c : Instr) (rest : List Instr) (s : State), s.pending = c :: rest → step s = exec c { s with pending := rest }

/-- On an empty queue a device that is held in reset or tripped stays as it is; any other adds 1 to the timebase (the model's choice
of a tick, log entry 2), and beside registers and the boot times only gaits, teams, the lines of rein ports and the free values
drawn may change. A stopped gait whose edge nothing holds goes on. On a quiet device (no command runs, no team has a job, no gait is
stopped and no rein port is aligned) nothing else changes where the boot ROM has started; and where the phase is ROM it starts on
core 0: BOOT_WAIT, CORES 1, HP0 in boot mode, IPv4 disabled and the link-local IPv6 address formed from HST_MAC; only registers and
the boot times change. -/
def Obligations.IdleStepAdvancesTimebase : Prop :=
  ∀ s : State, s.pending = [] →
    let quiet := s.cmds = [] ∧ (∀ e ∈ s.stls, e.2.team.job = none) ∧ (∀ p, (s.pdk p).stopped = false) ∧
      ∀ i ∈ smKeys s.rein.ports, s.portState i < 3 ∨ 5 < s.portState i
    (s.down = true → step s = .next s) ∧
    (s.down = false → ∃ t, step s = .next t ∧
      t = { s with time := s.time + 1, draws := t.draws, regs := t.regs, groom := t.groom, pdks := t.pdks, stls := t.stls, rein := t.rein } ∧
      ∀ p ∈ smKeys s.pdks, (s.pdk p).stopped = true → s.grmPhase ≠ 0 →
        ({ s with time := s.time + 1 } : State).gaitHeld p = false → (t.pdk p).stopped = false) ∧
    (s.down = false → quiet → s.grmPhase ≠ 0 → step s = .next { s with time := s.time + 1 }) ∧
    (s.down = false → quiet → s.grmPhase = 0 → ∃ t, step s = .next t ∧
      t = { s with time := s.time + 1, regs := t.regs, groom := { s.groom with bootAt := s.time + 1, phyAt := s.time + 1 } } ∧
      t.grmPhase = 1 ∧ t.fld .GRM_STATUS 0 0 15 12 = 1 ∧ t.fld .HST_PORT_STATUS 0 0 7 7 = 1 ∧ t.fld .HST_PORT_STATUS 0 0 5 4 = 1 ∧
      t.fld .HST_IPV4 0 0 32 32 = 0 ∧ t.reg .HST_IPV6_HI 0 0 = 0xFE80000000000000 ∧
      t.reg .HST_IPV6_LO 0 0 = BitVec.ofNat 64 (eui64 (s.fld .HST_MAC 0 0 47 0)) ∧
      s.regsBut t [regAddr .GRM_STATUS 0 0, regAddr .HST_PORT_STATUS 0 0, regAddr .HST_IPV4 0 0, regAddr .HST_IPV6_HI 0 0,
        regAddr .HST_IPV6_LO 0 0])

/-- Every command completes with a next state, whose queue is the one it was given. The timebase stays where it was, but for the
four commands that reset the device, after which it is 0 or stays, and for a TIME packet received, directly or in a flit, which may
step it to the sender's time. -/
def Obligations.AnswersKeepQueueAndTimebase : Prop :=
  ∀ (c : Instr) (s : State), ∃ t, exec c s = .next t ∧ t.pending = s.pending ∧
    (resets c = true → t.time = 0 ∨ t.time = s.time) ∧
    (resets c = false → (∀ p k a d, c ≠ .reinTime p k a d) → (∀ p f, c ≠ .reinFlitReceive p f) → t.time = s.time)

/-- While the device is held in reset or has tripped, every command leaves the whole state as it is, but for the commands that reset
the device, the Read Word of the management interface, which is not acknowledged, and those of the test port. -/
def Obligations.StoppedDeviceDoesNothing : Prop :=
  ∀ (c : Instr) (s : State), s.down = true →
    (actsDown c = false → exec c s = .next s) ∧
    (∀ b, c = .i2cReadWord b → exec c s = .next { s with sent := .i2c none :: s.sent })

/-- Whatever command is at the front of the queue, or with none, a step that answers a next state leaves every key slot where it was
or further along EMPTY, PROVISIONED, REVOKED, with its hash unchanged once provisioned; SEC_SVN.MIN never falls; an image key stays
once written; serial number, identity secret and addresses stay. -/
def Obligations.FusesChangeOneWay : Prop :=
  ∀ s t : State, step s = .next t → s.fuse.le t.fuse = true

/-- If the owner key slots are legal (an EMPTY slot holds no hash), the test port's shift register fits its instruction and the
energy not yet counted is below 1 mJ, then the same holds after any step. -/
def Obligations.StepKeepsInvariant : Prop :=
  ∀ s t : State, s.Inv → step s = .next t → t.Inv

/-- The state after power-on reset meets the invariant that every step keeps. -/
def Obligations.ResetStateIsLegal : Prop :=
  State.reset.Inv

/-- If memory is in its canonical form (addresses rise strictly and no entry equals what an unlisted byte reads as), then after any
step it is again, so that equal memories are equal data: through stores, stacks that fail, banks that are cleared, stalls that are
replaced and commits that change the hash masks. -/
def Obligations.StepKeepsMemoryCanonical : Prop :=
  ∀ s t : State, Memory.wf s.hbm.undef s.mem = true → step s = .next t → Memory.wf t.hbm.undef t.mem = true

/-- After power-on reset the queue of commands is empty and the timebase is 0; every register has its reset value; every byte of
memory reads 0 and no word is uncorrectable; every accumulator position is 0 with tag 0xFFFF and no segment VALID; every tether is
0; no corral owns anything; no stack is ONLINE; the groom's phase is ROM; both banks of every stall are FREE with nothing verified.
-/
def Obligations.ResetLeavesTheSpecsValues : Prop :=
  State.reset.pending = [] ∧ State.reset.time = 0 ∧ (∀ a, smGet regDefault State.reset.regs a = regDefault a) ∧
    (∀ a, State.reset.rd a = 0) ∧ State.reset.bad = [] ∧
    (∀ k, smGet (fun _ => PosSt.idle) State.reset.acs.pos k = { bits := 0, inv := false, ovf := false, tag := 0xFFFF }) ∧
    (∀ k, (smGet (fun _ => SegSt.idle) State.reset.acs.segs k).valid = false) ∧
    (∀ n, State.reset.tether n = 0) ∧ (∀ k i, State.reset.owner k i = none) ∧ (∀ st, st < 8 → State.reset.stackState st = 0) ∧
    State.reset.grmPhase = 0 ∧
    (∀ st b, ((State.reset.seqr st).bank b).phase = .free) ∧ (∀ st p, smGet (fun _ => false) (State.reset.seqr st).verified p = false)

/-- POWER_ON_RESET resets the device and lets it run with the strap sampled. SUPPLY_UNDERVOLTAGE, REFCLK_LOSS and a PORST_N pulse of
1 µs or longer reset it the same way and hold it, the strap kept. A pulse shorter than 100 ns is ignored. Between these lengths it
may or may not reset the device. A reset leaves every register at its reset value but those loaded from fuses and the strap, memory
zero, and fuses as they were. The hypothesis says that the fuses name stalls that exist. -/
def Obligations.ResetCommandsResetTheDevice : Prop :=
  ∀ s : State, (∀ e ∈ s.fuse.rows, e.1 < 3072) →
    (∀ lead, ∃ t, exec (.powerOnReset lead) s = .next t ∧ s.AfterReset t false lead) ∧
    (∃ t, exec .supplyUndervoltage s = .next t ∧ s.AfterReset t true s.pwr.roleLead) ∧
    (∃ t, exec .refclkLoss s = .next t ∧ s.AfterReset t true s.pwr.roleLead) ∧
    (∀ ns, 1000 ≤ ns → ∃ t, exec (.porstAssert ns) s = .next t ∧ s.AfterReset t true s.pwr.roleLead) ∧
    (∀ ns, ns < 100 → exec (.porstAssert ns) s = .next s) ∧
    (∀ ns, 100 ≤ ns → ns < 1000 → ∃ t, exec (.porstAssert ns) s = .next t ∧
      (t = { s with draws := s.draws + 1 } ∨ s.AfterReset t true s.pwr.roleLead))

/-- BYPASS, CLAMP and HIGHZ select the bypass bit, 0 at first; IDCODE selects 0x1307296B; SAMPLE/PRELOAD takes the pins and preloads
the cells; EXTEST preloads the cells; a test-port reset deselects all. BYPASS, IDCODE, SAMPLE and a reset leave every cell in
service; EXTEST and CLAMP drive each preloaded cell to its value and turn the others off; HIGHZ turns every cell off. Nothing
outside the test port changes, whatever the device does. -/
def Obligations.TestPortInstructions : Prop :=
  ∀ s : State,
    (∃ t, exec .tapBypass s = .next t ∧ t = { s with tap := t.tap } ∧ t.tap.shift = 0 ∧ ∀ c, t.tap.drives c = none) ∧
    (∃ t, exec .tapIdcode s = .next t ∧ t = { s with tap := t.tap } ∧ t.tap.shift = 0x1307296B ∧ ∀ c, t.tap.drives c = none) ∧
    (∀ pins drive, ∃ t, exec (.tapSample pins drive) s = .next t ∧ t = { s with tap := t.tap } ∧ t.tap.sampled = scanCells pins ∧
      t.tap.preload = scanCells drive ∧ ∀ c, t.tap.drives c = none) ∧
    (∀ drive, ∃ t, exec (.tapExtest drive) s = .next t ∧ t = { s with tap := t.tap } ∧
      ∀ c, t.tap.drives c = some (((scanCells drive).find? (fun e => e.1 == c)).map (·.2))) ∧
    (∃ t, exec .tapClamp s = .next t ∧ t = { s with tap := t.tap } ∧ t.tap.shift = 0 ∧
      ∀ c, t.tap.drives c = some ((s.tap.preload.find? (fun e => e.1 == c)).map (·.2))) ∧
    (∃ t, exec .tapHighz s = .next t ∧ t = { s with tap := t.tap } ∧ t.tap.shift = 0 ∧ ∀ c, t.tap.drives c = some none) ∧
    (∃ t, exec .tapReset s = .next t ∧ t = { s with tap := TapSt.reset } ∧ ∀ c, t.tap.drives c = none)

/-- While READY, a pass whose transactions succeed on a die without PMB_FAULT reports TEMP, lowers the setpoint by 5 mV down to
VMIN_MV and sets HOT at WARN_C or above; else does the same with CAPPED where the package draws more than WATTS; else raises it by 5
mV and clears CAPPED where the lowest rate is under TARGET, the setpoint under VMAX_MV and the power limit allows; sets CAPPED where
only the limit forbids; lowers it where the rate is more than 30 over TARGET and the setpoint over VMIN_MV; and otherwise keeps it.
HOT clears below WARN_C - 3. While not READY nothing changes. Beside these only VMEAS, IOUT, PWR_ENERGY, PWR_EVENT, the events and
PMBus traffic may change. -/
def Obligations.VoltageLoopPass : Prop :=
  ∀ (s : State) (die : Fin 4) (temp vmeas iout : BitVec 16) (rate power : BitVec 12) (est : BitVec 8), s.down = false →
    (∀ ok, s.grmPhase ≠ 4 → exec (.voltageLoopPass die temp vmeas iout rate power est ok) s = .next s) ∧
    (s.grmPhase = 4 → s.pwrBit 16 die = false → s.fld .PWR_LOOP 0 0 31 16 ≤ 850 →
      ∃ t, exec (.voltageLoopPass die temp vmeas iout rate power est true) s = .next t ∧
        t = { s with regs := t.regs, svc := t.svc, sent := t.sent, pwr := { s.pwr with power := power.toNat, energy := t.pwr.energy } } ∧
        s.regsBut t [regAddr .PWR_STATUS 0 0, regAddr .PWR_DIE 0 die, regAddr .PWR_ENERGY 0 0, regAddr .PWR_EVENT 0 0] ∧
        t.fld .PWR_DIE 0 die 63 48 = temp.toNat ∧ t.fld .PWR_DIE 0 die 15 0 = iout.toNat ∧
        let warn : Int := s.fld .PWR_THERM 0 0 7 0
        let watts := s.fld .PWR_LIMIT 0 0 15 0
        let target := s.fld .PWR_LOOP 0 0 43 32
        let vmax := s.fld .PWR_LOOP 0 0 31 16
        let vmin := s.fld .PWR_LOOP 0 0 15 0
        let sp := s.setpoint die
        let down := max (sp - 5) vmin
        let tc := signedOf 16 temp.toNat
        if 16 * warn ≤ tc then t.setpoint die = down ∧ t.pwrBit 8 die = true ∧ t.pwrBit 12 die = s.pwrBit 12 die
        else
          (tc < 16 * (warn - 3) → t.pwrBit 8 die = false) ∧ (16 * (warn - 3) ≤ tc → t.pwrBit 8 die = s.pwrBit 8 die) ∧
          if watts < power.toNat then t.setpoint die = down ∧ t.pwrBit 12 die = true
          else if rate.toNat < target then
            if sp < vmax then
              if power.toNat + est.toNat ≤ watts then t.setpoint die = sp + 5 ∧ t.pwrBit 12 die = false
              else t.setpoint die = sp ∧ t.pwrBit 12 die = true
            else t.setpoint die = sp ∧ t.pwrBit 12 die = s.pwrBit 12 die
          else t.pwrBit 12 die = false ∧ t.setpoint die = if target + 30 < rate.toNat ∧ vmin < sp then sp - 5 else sp)

/-- A pass whose transactions fail, while READY, sets PMB_FAULT of the die and keeps its setpoint. While firmware runs, a retry of a
faulted regulator that succeeds clears PMB_FAULT, one that fails keeps it. With VOLTAGE_RECAL active and no fault, the correction of
the die's sensor grows by what the regulator reads above VMEAS, and no register changes. A thermal trip writes OPERATION OFF to the
four regulators, lowers DEV_ALERT_N and stops the device. A Read Word of a device that runs answers the hottest junction, power,
phase or configuration state, and is not acknowledged for another command code. -/
def Obligations.RegulatorFaultsAndTrip : Prop :=
  ∀ (s : State) (die : Fin 4), s.down = false →
    (∀ temp vmeas iout rate power est, s.grmPhase = 4 →
      ∃ t, exec (.voltageLoopPass die temp vmeas iout rate power est false) s = .next t ∧
        t = { s with regs := t.regs, svc := t.svc, pwr := t.pwr } ∧
        t.pwrBit 16 die = true ∧ t.setpoint die = s.setpoint die ∧ t.fld .PWR_DIE 0 die 15 0 = s.fld .PWR_DIE 0 die 15 0) ∧
    (s.firmwareRuns = true → s.pwrBit 16 die = true → ∀ ok, ∃ t, exec (.pmbusRetryTimer die ok) s = .next t ∧
      t.pwrBit 16 die = !ok ∧ s.regsBut t [regAddr .PWR_STATUS 0 0] ∧
      t = { s with regs := t.regs, sent := .pmbus (s.fld .PWR_VRM 0 die 6 0) 0x79 0 :: s.sent }) ∧
    (∀ v : BitVec 16, s.grmPhase = 4 → s.feature 8 = true → s.pwrBit 16 die = false →
      exec (.voltageRecal die (some v)) s = .next { s with pwr := { s.pwr with
        offsets := smSet (fun _ => (0 : Int)) s.pwr.offsets die
          (smGet (fun _ => (0 : Int)) s.pwr.offsets die + (v.toNat : Int) - (s.fld .PWR_DIE 0 die 47 32 : Int)) } }) ∧
    (∃ t, exec (.thermalTrip die) s = .next t ∧ t.down = true ∧ t.alertLow = true ∧
      t = { s with pwr := { s.pwr with tripped := true }
                   sent := .pmbus (s.fld .PWR_VRM 0 3 6 0) 1 0 :: .pmbus (s.fld .PWR_VRM 0 2 6 0) 1 0 ::
                     .pmbus (s.fld .PWR_VRM 0 1 6 0) 1 0 :: .pmbus (s.fld .PWR_VRM 0 0 6 0) 1 0 :: s.sent }) ∧
    (∀ b : BitVec 8, exec (.i2cReadWord b) s = .next { s with sent := .i2c (
      if b = 1 then some (BitVec.ofInt 16 s.hottest) else if b = 2 then some (BitVec.ofNat 16 s.pwr.power)
      else if b = 3 then some (BitVec.ofNat 16 s.grmPhase) else if b = 4 then some (BitVec.ofNat 16 s.cfgState) else none) :: s.sent })

/-- In boot mode with HP0's link down and not booting through the lead, 200 ms after the attachment was last switched
BOOT_PHY_ALTERNATE turns PHY 1 into 2 and 2 into 1. In BOOT_WAIT, of a device that is no lead, 500 ms after the ROM started
HP0_BOOT_TIMEOUT turns HP0 off, and every enabled torus port that is OFF starts training. In BOOT_WAIT a GO sets STATE to CHECKING,
adds 1 to ATTEMPTS and sets PHASE to CHECKING; in another phase, or with another OP, the word changes nothing. Nothing else changes.
-/
def Obligations.BootRomRows : Prop :=
  ∀ s : State, s.down = false →
    (s.bootMode = true → s.linkUp 0 = false → s.groom.viaLead = false → s.groom.phyAt + ms 200 ≤ s.time →
      ∃ t, exec .bootPhyAlternate s = .next t ∧ t = { s with regs := t.regs, groom := { s.groom with phyAt := s.time } } ∧
        (s.fld .HST_PORT_STATUS 0 0 5 4 = 1 → t.fld .HST_PORT_STATUS 0 0 5 4 = 2) ∧
        (s.fld .HST_PORT_STATUS 0 0 5 4 = 2 → t.fld .HST_PORT_STATUS 0 0 5 4 = 1) ∧
        s.regsBut t [regAddr .HST_PORT_STATUS 0 0] ∧ s.fieldOnly t .HST_PORT_STATUS 0 0 5 4) ∧
    (s.grmPhase = 1 → s.bootMode = true → s.linkUp 0 = false → s.groom.viaLead = false → s.pwr.roleLead = false →
      s.groom.bootAt + ms 500 ≤ s.time →
      ∃ t, exec .hp0BootTimeout s = .next t ∧ t = { s with regs := t.regs, groom := { s.groom with viaLead := true } } ∧
        t.fld .HST_PORT_STATUS 0 0 5 4 = 0 ∧ s.fieldOnly t .HST_PORT_STATUS 0 0 5 4 ∧
        (∀ i, i < 16 → t.portState i =
          if s.portState i = 0 ∧ s.portEnabled i = true ∧ (portRoleReset i).1 = 1 then 1 else s.portState i) ∧
        s.regsBut t (regAddr .HST_PORT_STATUS 0 0 :: (upTo 16).map (fun i => regAddr .RNL_PORT_STATUS i 0))) ∧
    (∀ v : Word, s.grmPhase = 1 → v.fld 63 56 = 1 →
      ∃ t, exec (.bootGo v) s = .next t ∧ t = { s with regs := t.regs, groom := { s.groom with goLen := v.fld 31 0 } } ∧
        t.grmPhase = 2 ∧ s.fieldOnly t .GRM_STATUS 0 0 3 0 ∧ t.fld .GRM_BOOT_STATUS 0 0 63 56 = 1 ∧
        t.fld .GRM_BOOT_STATUS 0 0 47 32 = (s.fld .GRM_BOOT_STATUS 0 0 47 32 + 1) % 2 ^ 16 ∧
        t.fld .GRM_BOOT_STATUS 0 0 55 48 = s.fld .GRM_BOOT_STATUS 0 0 55 48 ∧
        s.regsBut t [regAddr .GRM_STATUS 0 0, regAddr .GRM_BOOT_STATUS 0 0]) ∧
    (∀ v : Word, s.grmPhase ≠ 1 ∨ v.fld 63 56 ≠ 1 → exec (.bootGo v) s = .next s)

/-- In CHECKING, an image whose first failing check gives REASON e sets STATE to REFUSED with REASON e and PHASE to BOOT_WAIT, and
nothing else changes. An image that passes every check is recorded: digest, VERSION, SVN and FEATURES as its header gives them,
ACTIVE is FEATURES and the driver's; STATE is STARTED, all four cores run, BOOT is 0 and memory region 0 is installed; every OFF
stack starts training, and then PHASE is INIT. The order of the checks is that of the shared function imageReason. -/
def Obligations.ImageChecksEnd : Prop :=
  ∀ s : State, s.down = false → s.grmPhase = 2 →
    (∀ e, imageReason s.fuse s.codeImage s.groom.goLen = some e → e < 256 →
      ∃ t, exec .bootCheckDone s = .next t ∧ t = { s with regs := t.regs } ∧ t.grmPhase = 1 ∧
        t.fld .GRM_BOOT_STATUS 0 0 63 56 = 3 ∧ t.fld .GRM_BOOT_STATUS 0 0 55 48 = e ∧
        s.regsBut t [regAddr .GRM_STATUS 0 0, regAddr .GRM_BOOT_STATUS 0 0]) ∧
    (imageReason s.fuse s.codeImage s.groom.goLen = none → (∃ st, st < 8 ∧ s.stackState st ≤ 1) →
      ∃ t, exec .bootCheckDone s = .next t ∧ t = { s with regs := t.regs, svc := t.svc, groom := t.groom, mrs := t.mrs } ∧
        t.grmPhase = 3 ∧ t.fld .GRM_STATUS 0 0 15 12 = 15 ∧ t.fld .GRM_BOOT_STATUS 0 0 63 56 = 2 ∧
        t.bootMode = false ∧ smGet (fun _ => none) t.mrs 0 = some regionZero ∧
        (∀ i, i ≠ 0 → smGet (fun _ => none) t.mrs i = smGet (fun _ => none) s.mrs i) ∧
        t.groom.image = some (imageRecord s.fuse s.codeImage) ∧
        t.reg .GRM_FW_VERSION 0 0 = BitVec.ofNat 64 (hdrNat s.codeImage 8 8) ∧
        t.reg .GRM_FW_SVN 0 0 = BitVec.ofNat 64 (hdrNat s.codeImage 16 4 % 256) ∧
        t.reg .GRM_FW_FEATURES 0 0 = BitVec.ofNat 64 (hdrNat s.codeImage 40 8) ∧
        t.reg .GRM_FEATURES_ACTIVE 0 0 = t.reg .GRM_FW_FEATURES 0 0 &&& s.reg .GRM_DRV_FEATURES 0 0 ∧
        (∀ w, w < 4 → t.reg .GRM_FW_DIGEST 0 w = BitVec.ofNat 64 (fwDigest s.codeImage / 2 ^ (64 * w))) ∧
        (∀ st, st < 8 → t.stackState st = if s.stackState st = 0 then 1 else s.stackState st))

/-- Each of the six requests, written while READY and not BUSY, sets BUSY and keeps OP, SEQ and the mailbox's first 128 bytes; the
request carries BAD_REQUEST where its length is not the one of its OP, and NOT_NEGOTIATED where the length is right, nothing is
reserved and its feature is not ACTIVE; ATTEST, CERT_CHAIN and KEY_OFFER of the right length with their feature ACTIVE run. Written
while BUSY or not READY, it is ignored and REQ_REFUSED is set. Nothing else changes. -/
def Obligations.MailboxRequests : Prop :=
  ∀ (s : State) (seq : BitVec 16) (len : BitVec 32), s.down = false → ∀ e ∈ requestRows,
    (s.grmPhase = 4 → s.grmBusy = false →
      ∃ t r, exec (e.2.2.2 seq len) s = .next t ∧ t = { s with regs := t.regs, groom := t.groom } ∧
        t.groom = { s.groom with req := some r, hand := t.groom.hand } ∧ t.grmBusy = true ∧
        s.fieldOnly t .GRM_REQ_STATUS 0 0 63 63 ∧ s.regsBut t [regAddr .GRM_REQ_STATUS 0 0] ∧
        r.op = e.1 ∧ r.seq = seq.toNat ∧ r.payload = s.mailbox 16 ∧ (e.1 ≠ 5 → t.groom.hand = s.groom.hand) ∧
        (len.toNat ≠ e.2.1 → r.verdict = 1) ∧
        (len.toNat = e.2.1 → e.1 ≤ 3 → r.verdict = if s.feature e.2.2.1 then 0 else 2)) ∧
    (s.grmBusy = true ∨ s.grmPhase ≠ 4 →
      ∃ t, exec (e.2.2.2 seq len) s = .next t ∧ t = { s with regs := t.regs, svc := t.svc } ∧
        (t.reg .GRM_EVENT 0 0).bit 0 = true ∧ s.regsBut t [regAddr .GRM_EVENT 0 0])

/-- A request in progress that is no handover completes: BUSY is 0, SEQ is the request's, REQ_DONE is set and no request is left.
RESULT is the verdict of a request that failed its checks. ATTEST answers OK with 12,672 bytes, CERT_CHAIN OK with COUNT 2,
KEY_OFFER OK with 256 bytes and a new offer. KEY_INSTALL answers OK with the session key it opens and destroys the offer, or KEY.
FUSE provisions an EMPTY owner slot, revokes a PROVISIONED one, raises the SVN minimum up to the running SVN, or writes an absent
image key, with OK; each refused subop answers REFUSED and leaves the fuses. The fuses change in no other case. GRM_MBOX,
GRM_REQ_STATUS, GRM_EVENT, events and the groom's own state are all that may change beside them. -/
def Obligations.MailboxRequestCompletes : Prop :=
  ∀ (s : State) (r : GrmReq), s.down = false → s.groom.req = some r → s.groom.hand = none →
    ∃ t, exec .grmRequestDone s = .next t ∧ t = { s with regs := t.regs, svc := t.svc, groom := t.groom, fuse := t.fuse } ∧
      t.grmBusy = false ∧ t.fld .GRM_REQ_STATUS 0 0 47 32 = r.seq % 2 ^ 16 ∧ (t.reg .GRM_EVENT 0 0).bit 1 = true ∧
      t.groom.req = none ∧ (r.verdict ≠ 0 ∨ r.op < 6 → t.fuse = s.fuse) ∧
      s.regsBut t (regAddr .GRM_REQ_STATUS 0 0 :: regAddr .GRM_EVENT 0 0 :: (upTo 1584).map (fun n => regAddr .GRM_MBOX 0 n)) ∧
      let result := t.fld .GRM_REQ_STATUS 0 0 55 48
      let len := t.fld .GRM_REQ_STATUS 0 0 31 0
      let w := hdrNat r.payload 0 8
      let slot := bitsOf w 55 48
      let svn := bitsOf w 31 0
      let data := hdrNat r.payload 8 32
      (r.verdict ≠ 0 → result = r.verdict % 256 ∧ len = 0) ∧
      (r.verdict = 0 → r.op = 1 → result = 0 ∧ len = 12672 ∧ (t.reg .GRM_MBOX 0 0).fld 31 0 = 0x7A110E5C) ∧
      (r.verdict = 0 → r.op = 2 → result = 0 ∧ (t.reg .GRM_MBOX 0 0).fld 63 56 = 2) ∧
      (r.verdict = 0 → r.op = 3 → result = 0 ∧ len = 256 ∧ t.groom.offer.isSome = true ∧ t.groom.offers = s.groom.offers + 1) ∧
      (r.verdict = 0 → r.op = 4 →
        (∀ k, s.keyOpen r.payload = some k → result = 0 ∧ len = 0 ∧ t.groom.sessionKey = some k ∧ t.groom.offer = none) ∧
        (s.keyOpen r.payload = none → result = 6 ∧ t.groom.sessionKey = s.groom.sessionKey ∧ t.groom.offer = s.groom.offer)) ∧
      (r.verdict = 0 → r.op = 6 → len = 0 ∧
        (bitsOf w 63 56 = 1 → if slot < 4 ∧ (s.fuse.owner slot).st = .empty
          then result = 0 ∧ t.fuse = s.fuse.setOwner slot { hash := data, st := .provisioned } else result = 3 ∧ t.fuse = s.fuse) ∧
        (bitsOf w 63 56 = 2 → if slot < 4 ∧ (s.fuse.owner slot).st = .provisioned
          then result = 0 ∧ t.fuse = s.fuse.setOwner slot { s.fuse.owner slot with st := .revoked } else result = 3 ∧ t.fuse = s.fuse) ∧
        (bitsOf w 63 56 = 3 → if s.fuse.svnMin < svn ∧ svn ≤ s.fld .GRM_FW_SVN 0 0 7 0
          then result = 0 ∧ t.fuse = { s.fuse with svnMin := svn } else result = 3 ∧ t.fuse = s.fuse) ∧
        (bitsOf w 63 56 = 4 → (¬ (slot < 2 ∧ s.groom.image.map (·.slot) = some (1 - slot)) → result = 3 ∧ t.fuse = s.fuse) ∧
          (slot = 0 → s.groom.image.map (·.slot) = some 1 → result = 0 ∧
            t.fuse = { s.fuse with vendor0 := { s.fuse.vendor0 with st := .revoked } }) ∧
          (slot = 1 → s.groom.image.map (·.slot) = some 0 → result = 0 ∧
            t.fuse = { s.fuse with vendor1 := { s.fuse.vendor1 with st := .revoked } })) ∧
        (bitsOf w 63 56 = 5 → if s.fuse.imageKey = none
          then result = 0 ∧ t.fuse = { s.fuse with imageKey := some data } else result = 3 ∧ t.fuse = s.fuse))

/-- HANDOVER_IMAGE_CHECKED: an image that passes its checks and can be read moves the handover on, keeping its digest; one whose
first failing check gives REASON e completes with RESULT IMAGE and e in the response. HANDOVER_CHECKPOINT_DONE writes the checkpoint
area and sets PHASE HANDOVER. HANDOVER_FIRMWARE_START copies the image into the code area and, where its digest is that of step 2,
records it, recomputes ACTIVE and starts the cores. HANDOVER_READY, warm and with no maintenance operation waiting, sets PHASE
READY, answers OK with COLD 0 and sets GRM_EVENT.HANDOVER. -/
def Obligations.HandoverSteps : Prop :=
  ∀ (s : State) (r : GrmReq) (h : Handover), s.down = false → s.groom.req = some r → s.groom.hand = some h →
    (h.step = .checking →
      (imageReason s.fuse (s.handImage h) h.len = none → s.badIn h.addr h.len = none →
        exec .handoverImageChecked s = .next { s with groom := { s.groom with
          hand := some { h with step := .checked, digest := fwDigest (s.handImage h) } } }) ∧
      (∀ e, imageReason s.fuse (s.handImage h) h.len = some e → e < 256 →
        ∃ t, exec .handoverImageChecked s = .next t ∧ t = { s with regs := t.regs, svc := t.svc, groom := t.groom } ∧
          t.groom = { s.groom with req := none, hand := none } ∧ t.grmBusy = false ∧ t.fld .GRM_REQ_STATUS 0 0 55 48 = 4 ∧
          t.fld .GRM_MBOX 0 0 7 0 = e ∧
          s.regsBut t [regAddr .GRM_REQ_STATUS 0 0, regAddr .GRM_EVENT 0 0, regAddr .GRM_MBOX 0 0])) ∧
    (∀ (header : List Word) (state : List Byte), h.step = .checked → header.length = 8 →
      ∃ t, exec (.handoverCheckpointDone header state) s = .next t ∧ t = { s with regs := t.regs, groom := t.groom } ∧
        t.grmPhase = 5 ∧ s.fieldOnly t .GRM_STATUS 0 0 3 0 ∧ s.regsBut t [regAddr .GRM_STATUS 0 0] ∧
        t.groom = { s.groom with hand := some { h with step := .checkpointed }, sram := t.groom.sram } ∧
        t.sramBytes 0x1C0000 64 = wordsBytes header ∧
        (∀ a, a < 0x1C0000 ∨ 0x1E0000 ≤ a → smGet (fun _ => (0 : Byte)) t.groom.sram a = smGet (fun _ => (0 : Byte)) s.groom.sram a)) ∧
    (h.step = .checkpointed → fwDigest (s.handImage h) = h.digest →
      ∃ t, exec .handoverFirmwareStart s = .next t ∧ t = { s with regs := t.regs, svc := t.svc, groom := t.groom } ∧
        t.groom.image = some (imageRecord s.fuse (s.handImage h)) ∧ t.fld .GRM_STATUS 0 0 15 12 = 15 ∧ t.grmPhase = s.grmPhase ∧
        t.sramBytes 0 (s.handImage h).length = s.handImage h ∧
        t.groom.hand = some { h with step := .started, since := s.time } ∧ t.groom.req = some r ∧
        t.reg .GRM_FW_VERSION 0 0 = BitVec.ofNat 64 (hdrNat (s.handImage h) 8 8) ∧
        t.reg .GRM_FEATURES_ACTIVE 0 0 = BitVec.ofNat 64 (hdrNat (s.handImage h) 40 8) &&& s.reg .GRM_DRV_FEATURES 0 0) ∧
    (h.step = .started → (∀ st, st < 8 → s.maintQ st = []) →
      ∃ t, exec (.handoverReady false) s = .next t ∧ t = { s with regs := t.regs, svc := t.svc, groom := t.groom } ∧
        t.groom = { s.groom with req := none, hand := none, beatAt := s.time } ∧ t.grmPhase = 4 ∧ t.grmBusy = false ∧
        t.fld .GRM_REQ_STATUS 0 0 55 48 = 0 ∧ t.fld .GRM_REQ_STATUS 0 0 31 0 = 8 ∧ t.reg .GRM_MBOX 0 0 = 0 ∧
        (t.reg .GRM_EVENT 0 0).bit 3 = true ∧
        s.regsBut t [regAddr .GRM_STATUS 0 0, regAddr .GRM_REQ_STATUS 0 0, regAddr .GRM_EVENT 0 0, regAddr .GRM_MBOX 0 0])

/-- A core watchdog of a running core, an uncorrectable SRAM word, a heartbeat that stopped for 20 ms while READY, firmware that
declares itself failed, and a handover whose new firmware missed its 100 ms deadline each raise a groom fault: GRM_FAULT_COUNT
advances, GRM_EVENT.FAULT is set, a request in progress ends with FAULT, a stack being retrained fails, ports in training go DOWN;
the cores start cold where the code area still has the digest recorded, and otherwise, or at the fourth fault within 60 s of the
first of three, the ROM waits with its REASON. With no RESYNC outstanding, the rest of the device goes on untouched. -/
def Obligations.GroomFaults : Prop :=
  ∀ s : State, s.down = false →
    (∀ core : Fin 4, s.firmwareRuns = true → (s.reg .GRM_STATUS 0 0).bit (12 + core) = true →
      ∃ t, exec (.coreWatchdogExpiry core) s = .next t ∧ s.GroomFaulted t) ∧
    (s.grmPhase = 4 → s.groom.beatAt + ms 20 ≤ s.time → ∃ t, exec .heartbeatTimeout s = .next t ∧ s.GroomFaulted t) ∧
    (s.grmPhase ≠ 0 → ∃ t, exec .groomSramUncorr s = .next t ∧ s.GroomFaulted t) ∧
    (s.firmwareRuns = true → ∃ t, exec .firmwareDeclareFailed s = .next t ∧ s.GroomFaulted t) ∧
    (∀ h, s.groom.hand = some h → h.step = .started → h.since + ms 100 ≤ s.time →
      ∃ t, exec .handoverDeadlineMiss s = .next t ∧ s.GroomFaulted t)

/-- In INIT, with a stack training and the start-up load not yet begun, HBM_TRAINING_DONE makes each training stack FAILED where its
bit of the mask is 1 and ONLINE otherwise, leaves the others, and starts the load of the update image from flash. A write of
GRM_DRV_FEATURES sets its ten bits; GRM_FEATURES_ACTIVE becomes firmware's AND driver's features, and FEATURES is set when that
changes it. While firmware runs and is not restarting, HEARTBEAT_ADVANCE adds 1 to GRM_HEARTBEAT. Where records may be written and
the ring is served, EVENT_RECORD_WRITE writes the oldest record held, 64 bytes at its place in the event ring behind the queue
table: block, instance and bit with the phase, sequence number, time, code, queue and corral, detail, zeros; and holds the rest.
Nothing else changes. -/
def Obligations.FirmwareRows : Prop :=
  ∀ s : State, s.down = false →
    (∀ failed : BitVec 8, s.grmPhase = 3 → (∃ st, st < 8 ∧ s.stackState st = 1) → s.groom.loadStarted = false →
      ∃ t, exec (.hbmTrainingDone failed) s = .next t ∧
        t = { s with regs := t.regs, svc := t.svc, groom := { s.groom with loadStarted := true }, hbm := t.hbm, mem := t.mem, bad := t.bad
                     draws := t.draws, cfg := t.cfg } ∧
        (∀ st, st < 8 → t.stackState st =
          if s.stackState st = 1 then (if failed.getLsbD st then 6 else 2) else s.stackState st) ∧
        t.grmPhase = 3 ∧ (∃ l, t.cfg.load = some l ∧ l.source = .flashUpdate ∧ l.atStart = true ∧ l.accepted = false) ∧
        t.fld .CFG_STATUS 0 0 28 27 = 1 ∧ t.reg .CFG_PROGRESS 0 0 = 0) ∧
    (∀ v : Word, ∃ t, exec (.grmDrvFeaturesWrite v) s = .next t ∧ t = { s with regs := t.regs, svc := t.svc } ∧
      t.reg .GRM_DRV_FEATURES 0 0 = BitVec.ofNat 64 (v.fld 9 0) ∧
      t.reg .GRM_FEATURES_ACTIVE 0 0 = s.reg .GRM_FW_FEATURES 0 0 &&& t.reg .GRM_DRV_FEATURES 0 0 ∧
      (t.reg .GRM_FEATURES_ACTIVE 0 0 ≠ s.reg .GRM_FEATURES_ACTIVE 0 0 → (t.reg .GRM_EVENT 0 0).bit 4 = true) ∧
      (t.reg .GRM_FEATURES_ACTIVE 0 0 = s.reg .GRM_FEATURES_ACTIVE 0 0 → t.svc = s.svc ∧ t.reg .GRM_EVENT 0 0 = s.reg .GRM_EVENT 0 0) ∧
      s.regsBut t [regAddr .GRM_DRV_FEATURES 0 0, regAddr .GRM_FEATURES_ACTIVE 0 0, regAddr .GRM_EVENT 0 0]) ∧
    (s.firmwareRuns = true → s.grmPhase ≠ 6 →
      ∃ t, exec .heartbeatAdvance s = .next t ∧ t = { s with regs := t.regs, groom := { s.groom with beatAt := s.time } } ∧
        t.fld .GRM_HEARTBEAT 0 0 47 0 = (s.fld .GRM_HEARTBEAT 0 0 47 0 + 1) % 2 ^ 48 ∧
        s.fieldOnly t .GRM_HEARTBEAT 0 0 47 0 ∧ s.regsBut t [regAddr .GRM_HEARTBEAT 0 0]) ∧
    (∀ e rest, s.eventsOpen = true → s.svc.events = e :: rest →
      let a := s.fld .HST_QTABLE_BASE 0 0 56 12 * 4096 + 0x400000 + 64 * (e.seq % 8192)
      a + 64 ≤ hbmTop → s.hbmServed a = true →
      ∃ t, exec .eventRecordWrite s = .next t ∧ t = { s with mem := t.mem, bad := t.bad, svc := { s.svc with events := rest } } ∧
        t.rdBytes a 64 = [e.word0 + (e.seq / 8192 + 1) % 2, e.seq, e.time, e.word3, e.detail, 0, 0, 0].flatMap (leBytes 8) ∧
        s.memBut t a 64)

/-- With no operation of the stack waiting and no handover: FENCE of an ONLINE stack in which no table lies makes it FENCING;
UNFENCE of a FENCED one makes it ONLINE and completes; RETRAIN of a FENCED or FAILED one with the feature ACTIVE makes it
RETRAINING; in any other state, with a table in the stack, or without the feature, the operation leaves the state and completes with
ERROR E_FIELD_RANGE. Each adds 1 to ISSUED. A FENCE with no unit waiting completes with the stack FENCED; a retraining completes
FENCED, or FAILED. Each completion adds 1 to DONE, a successful one sets ERROR 0 and HBM_EVENT.STATE. -/
def Obligations.StackMaintenance : Prop :=
  ∀ (s : State) (st : Fin 8), s.down = false → s.grmPhase ≠ 5 →
    let issued (t : State) := t.fld .HBM_MAINT_STATUS st 0 63 48
    let done (t : State) := t.fld .HBM_MAINT_STATUS st 0 47 32
    let error (t : State) := t.fld .HBM_MAINT_STATUS st 0 31 16
    let refused (t : State) := t.stackState st = s.stackState st ∧ error t = E_FIELD_RANGE ∧ done t = (done s + 1) % 2 ^ 16 ∧
      issued t = (issued s + 1) % 2 ^ 16 ∧ t.maintQ st = [] ∧ t = { s with regs := t.regs, hbm := t.hbm }
    (s.maintQ st = [] →
      (s.stackState st = 2 → s.fenceBlocked st = false → ∃ t, exec (.hbmFence st) s = .next t ∧ t.stackState st = 3 ∧
        issued t = (issued s + 1) % 2 ^ 16 ∧ done t = done s ∧ t.maintQ st = [1] ∧ t = { s with regs := t.regs, hbm := t.hbm }) ∧
      (s.stackState st ≠ 2 ∨ s.fenceBlocked st = true → ∃ t, exec (.hbmFence st) s = .next t ∧ refused t) ∧
      (s.stackState st = 4 → ∃ t, exec (.hbmUnfence st) s = .next t ∧ t.stackState st = 2 ∧ t.maintQ st = [] ∧
        issued t = (issued s + 1) % 2 ^ 16 ∧ done t = (done s + 1) % 2 ^ 16 ∧ error t = 0 ∧ (t.reg .HBM_EVENT st 0).bit 3 = true ∧
        t = { s with regs := t.regs, hbm := t.hbm, svc := t.svc }) ∧
      (s.stackState st ≠ 4 → ∃ t, exec (.hbmUnfence st) s = .next t ∧ refused t) ∧
      (s.stackState st = 4 ∨ s.stackState st = 6 → s.feature 5 = true → ∃ t, exec (.hbmRetrain st) s = .next t ∧
        t.stackState st = 5 ∧ t.maintQ st = [3] ∧ issued t = (issued s + 1) % 2 ^ 16 ∧ done t = done s ∧
        (∀ p, p < 32 → (t.pch (32 * st.val + p)).inSr = false) ∧ t = { s with regs := t.regs, hbm := t.hbm }) ∧
      (¬(s.stackState st = 4 ∨ s.stackState st = 6) ∨ s.feature 5 = false → ∃ t, exec (.hbmRetrain st) s = .next t ∧ refused t)) ∧
    (s.maintQ st = [1] → s.stackState st = 3 → (∀ c, c < 16 → (s.ctrl st c).waiting = []) →
      ∃ t, exec (.hbmFenceComplete st) s = .next t ∧ t.stackState st = 4 ∧ t.maintQ st = [] ∧ done t = (done s + 1) % 2 ^ 16 ∧
        error t = 0 ∧ issued t = issued s ∧ (t.reg .HBM_EVENT st 0).bit 3 = true ∧
        t = { s with regs := t.regs, hbm := t.hbm, svc := t.svc } ∧ t.hbm.undef = s.hbm.undef) ∧
    (s.maintQ st = [3] → s.stackState st = 5 → ∀ ok, ∃ t, exec (.hbmRetrainComplete st ok) s = .next t ∧
      t.stackState st = (if ok then 4 else 6) ∧ t.maintQ st = [] ∧ done t = (done s + 1) % 2 ^ 16 ∧ issued t = issued s ∧
      (ok = true → error t = 0 ∧ (t.reg .HBM_EVENT st 0).bit 3 = true ∧ t = { s with regs := t.regs, hbm := t.hbm, svc := t.svc } ∧
        t.hbm.undef = s.hbm.undef) ∧
      (ok = false → (t.reg .HBM_EVENT st 0).bit 4 = true ∧
        t = { s with regs := t.regs, hbm := t.hbm, svc := t.svc, mem := t.mem, bad := t.bad, draws := s.draws + 1 }))

/-- At a position of a controller of an ONLINE or FENCING stack every class gains its share and the class with the largest credit,
READ before WRITE before REMOTE, pays 20. A single waiting unit whose bank is not under refresh is served and counted by its class;
where its class is not the position's, the position counts as given away, and under a strict split it is left unused and the unit
waits. With nothing waiting nothing is served. A scrub read that is due takes a position that no class claims, and after 100
intervals the next one. Units that arrive at a stack that is not ONLINE are refused and counted. No other controller changes. An
uncorrectable error in the controller's request buffers discards what waits there, and raises E_HBM_UNCORR, of queue 0xFFFF, in
every corral with a request among it. An error in a word of its memory makes it correctable, and with several bits or a second time
uncorrectable. A correction that the stack reports is counted. Credits and shares are those of HBM_SPLIT. -/
def Obligations.ControllerPositions : Prop :=
  ∀ (s : State) (st : Fin 8) (c : Fin 16), s.down = false →
    let count (t : State) (n : Nat) := t.fld .HBM_CNT st n 47 0
    let k := s.ctrl st c
    let a := k.read + (s.fld .HBM_SPLIT 0 0 20 16 : Int)
    let b := k.write + (s.fld .HBM_SPLIT 0 0 12 8 : Int)
    let d := k.remote + (s.fld .HBM_SPLIT 0 0 4 0 : Int)
    let p : UnitClass := if b ≤ a ∧ d ≤ a then .read else if d ≤ b then .write else .remote
    let n (x : UnitClass) := match x with | .read => 0 | .write => 1 | .remote => 2
    let strict := (s.reg .HBM_SPLIT 0 0).bit 32
    ((s.stackState st = 2 ∨ s.stackState st = 3) → k.scrubDue = none →
      ∃ t, exec (.hbmPositionServe st c (.serve [])) s = .next t ∧ t = { s with hbm := t.hbm, regs := t.regs } ∧
        (t.ctrl st c).read = a - (if p = .read then 20 else 0) ∧ (t.ctrl st c).write = b - (if p = .write then 20 else 0) ∧
        (t.ctrl st c).remote = d - (if p = .remote then 20 else 0) ∧
        (∀ i, i ≠ st.val * 16 + c.val → smGet (fun _ => CtrlSt.idle) t.hbm.ctrls i = smGet (fun _ => CtrlSt.idle) s.hbm.ctrls i) ∧
        s.regsBut t ((upTo 5).map (fun i => regAddr .HBM_CNT st i)) ∧
        (k.waiting = [] → (t.ctrl st c).waiting = [] ∧ ∀ i, i < 3 → count t i = count s i) ∧
        (∀ u, k.waiting = [u] → s.bankBusy (s.pcOf u.addr.toNat) (s.bankOf u.addr.toNat) = false →
          (u.cls = p → (t.ctrl st c).waiting = [] ∧ count t (n p) = (count s (n p) + 1) % 2 ^ 48 ∧ count t 4 = count s 4) ∧
          (u.cls ≠ p → count t 4 = (count s 4 + 1) % 2 ^ 48 ∧
            (strict = false → (t.ctrl st c).waiting = [] ∧ count t (n u.cls) = (count s (n u.cls) + 1) % 2 ^ 48) ∧
            (strict = true → (t.ctrl st c).waiting = [u] ∧ count t (n u.cls) = count s (n u.cls))))) ∧
    (∀ u : HbmUnit, s.stackOf u.addr.toNat = st → s.ctrlOf u.addr.toNat = c → s.stackState st ≠ 2 → s.stackState st ≠ 3 →
      ∃ t, exec (.hbmPositionServe st c (.serve [u])) s = .next t ∧ t = { s with regs := t.regs } ∧
        count t 10 = (count s 10 + 1) % 2 ^ 48 ∧ s.regsBut t [regAddr .HBM_CNT st 10]) ∧
    (∀ since, (s.stackState st = 2 ∨ s.stackState st = 3) → k.scrubDue = some since →
      k.waiting = [] ∨ since + s.fld .HBM_SCRUB_CFG 0 0 19 0 * 100000 ≤ s.time →
      ∃ t, exec (.hbmPositionServe st c (.serve [])) s = .next t ∧ t = { s with hbm := t.hbm, regs := t.regs, svc := t.svc } ∧
        (t.ctrl st c).waiting = k.waiting ∧ (t.ctrl st c).scrubDue = none ∧ (∀ i, i < 5 → count t i = count s i) ∧
        count t 8 = (count s 8 + if (s.pch (32 * st.val + 2 * c.val)).inSr ∧ (s.pch (32 * st.val + 2 * c.val + 1)).inSr then 0 else 1)
          % 2 ^ 48) ∧
    (∃ t, exec (.hbmPositionServe st c .spoiled) s = .next t ∧
      t = { s with hbm := { s.hbm with ctrls := t.hbm.ctrls }, svc := t.svc, cmds := t.cmds } ∧ (t.ctrl st c).waiting = [] ∧
      (∀ n : BitVec 8, (∃ u ∈ k.waiting, u.corral = some n) → s.discard n.toNat = none →
        (∃ r, t.discard n.toNat = some { code := E_HBM_UNCORR, queue := 0xFFFF, instant := s.time, repair := r, joined := [] }) ∧
        ∀ x ∈ t.cmds, x.corral = n.toNat → x.phase = .discarding E_HBM_UNCORR 0xFFFF) ∧
      ((∀ u ∈ k.waiting, u.corral = none) → t.svc = s.svc ∧ t.cmds = s.cmds)) ∧
    (∀ (w : BitVec 34) (lost : Bool), let a := w.toNat * 32
      let hit := s.stackOf a = st ∧ s.ctrlOf a = c ∧ 2 ≤ s.stackState st ∧ a ∉ s.bad
      (¬ hit → exec (.hbmPositionServe st c (.upset w lost)) s = .next s) ∧
      (hit → lost = true ∨ a ∈ s.hbm.soft → exec (.hbmPositionServe st c (.upset w lost)) s =
        .next { s with bad := a :: s.bad, hbm := { s.hbm with soft := s.hbm.soft.erase a } }) ∧
      (hit → lost = false → a ∉ s.hbm.soft → exec (.hbmPositionServe st c (.upset w lost)) s =
        .next { s with hbm := { s.hbm with soft := a :: s.hbm.soft } })) ∧
    (∃ t, exec (.hbmPositionServe st c .stackFixed) s = .next t ∧ t = { s with regs := t.regs } ∧
      count t 6 = (count s 6 + 1) % 2 ^ 48 ∧ s.regsBut t [regAddr .HBM_CNT st 6])

/-- Above 85 degrees HBM_TEMP_HOT reports the temperature and HOT, and sets HBM_EVENT.HOT where HOT was 0; at or below it changes
nothing. HBM_HOT_CLEAR does the reverse. BANK_REFRESH refreshes a bank of a stack that is ONLINE, FENCING, FENCED or RETRAINING and
not in self-refresh, once 3.9 µs, or 1.95 µs where HOT is 1, have passed since its last refresh; before that it changes nothing.
Nothing else changes, the stack's state included. With IDLE_US not 0, a pseudo-channel of an ONLINE, FENCING or FENCED stack that no
unit waits for and none has used for IDLE_US µs enters self-refresh and shows it, with its walk paused where scrub is on; with
IDLE_US 0 it never does. Where scrub is on and MAX_DEFER_S seconds have passed since the walk of one in self-refresh completed,
scrub wakes it. A scrub read whose interval is over, with both pseudo-channels awake, waits for a position while units wait, and
else counts a unit, moves that walk on by one and turns to the other pseudo-channel; the only word with a correctable error in the
unit read is rewritten and counted. -/
def Obligations.StackRefreshAndScrub : Prop :=
  ∀ (s : State) (st : Fin 8), s.down = false →
    (∀ temp : BitVec 8, 85 < temp.toNat → ∃ t, exec (.hbmTempHot st temp) s = .next t ∧ t = { s with regs := t.regs, svc := t.svc } ∧
      t.fld .HBM_STATUS st 0 23 16 = temp.toNat ∧ (t.reg .HBM_STATUS st 0).bit 8 = true ∧ t.stackState st = s.stackState st ∧
      ((s.reg .HBM_STATUS st 0).bit 8 = false → (t.reg .HBM_EVENT st 0).bit 2 = true) ∧
      ((s.reg .HBM_STATUS st 0).bit 8 = true → t.svc = s.svc ∧ t.reg .HBM_EVENT st 0 = s.reg .HBM_EVENT st 0) ∧
      s.regsBut t [regAddr .HBM_STATUS st 0, regAddr .HBM_EVENT st 0]) ∧
    (∀ temp : BitVec 8, temp.toNat ≤ 85 → exec (.hbmTempHot st temp) s = .next s) ∧
    (∀ temp : BitVec 8, temp.toNat ≤ 85 → ∃ t, exec (.hbmHotClear st temp) s = .next t ∧ t = { s with regs := t.regs } ∧
      t.fld .HBM_STATUS st 0 23 16 = temp.toNat ∧ (t.reg .HBM_STATUS st 0).bit 8 = false ∧ t.stackState st = s.stackState st ∧
      s.regsBut t [regAddr .HBM_STATUS st 0]) ∧
    (∀ (pc : Fin 32) (bank : Fin 64),
      let g := 32 * st.val + pc.val
      let due := smGet (fun _ => 0) s.hbm.refreshed (g * 64 + bank.val) + if (s.reg .HBM_STATUS st 0).bit 8 then 1950 else 3900
      (2 ≤ s.stackState st → s.stackState st ≤ 5 → (s.pch g).inSr = false → due ≤ s.time →
        ∃ t, exec (.bankRefresh st pc bank) s = .next t ∧
          t = { s with hbm := { s.hbm with refreshed := t.hbm.refreshed, busy := t.hbm.busy } } ∧ t.bankBusy g bank = true ∧
          ∀ k, smGet (fun _ => 0) t.hbm.refreshed k = if k = g * 64 + bank.val then s.time else smGet (fun _ => 0) s.hbm.refreshed k) ∧
      (s.time < due → exec (.bankRefresh st pc bank) s = .next s)) ∧
    (∀ pc : Fin 32,
      let g := 32 * st.val + pc.val
      (s.fld .HBM_SR_IDLE st pc 19 0 = 0 → exec (.selfRefreshEntry st pc) s = .next s) ∧
      (s.fld .HBM_SR_IDLE st pc 19 0 ≠ 0 → (s.pch g).inSr = false → (s.pch g).waking = false →
        (s.ctrl st (pc / 2)).waiting.any (fun u => s.pcOf u.addr.toNat == g) = false →
        (s.pch g).usedAt + s.fld .HBM_SR_IDLE st pc 19 0 * 1000 ≤ s.time → 2 ≤ s.stackState st → s.stackState st ≤ 4 →
        ∃ t, exec (.selfRefreshEntry st pc) s = .next t ∧ t = { s with regs := t.regs, hbm := { s.hbm with pcs := t.hbm.pcs } } ∧
          t.pch g = { s.pch g with inSr := true } ∧ (∀ i, i ≠ g → t.pch i = s.pch i) ∧ (t.reg .HBM_SR_STATE st 0).bit pc = true ∧
          ((s.reg .HBM_SCRUB_CFG 0 0).bit 31 = true → (t.reg .HBM_SCRUB_STATUS st 0).bit pc = true) ∧
          s.regsBut t [regAddr .HBM_SR_STATE st 0, regAddr .HBM_SCRUB_STATUS st 0]) ∧
      ((s.pch g).inSr = true → (s.reg .HBM_SCRUB_CFG 0 0).bit 31 = true →
        (s.pch g).walkedAt + s.fld .HBM_SCRUB_CFG 0 0 63 32 * 10 ^ 9 ≤ s.time →
        ∃ t, exec (.scrubDeferWake st pc) s = .next t ∧ t = { s with regs := t.regs, hbm := { s.hbm with pcs := t.hbm.pcs } } ∧
          t.pch g = { s.pch g with inSr := false, waking := true } ∧ (∀ i, i ≠ g → t.pch i = s.pch i) ∧
          (t.reg .HBM_SR_STATE st 0).bit pc = false ∧ (t.reg .HBM_SCRUB_STATUS st 0).bit pc = false ∧
          t.fld .HBM_CNT st 9 47 0 = (s.fld .HBM_CNT st 9 47 0 + 1) % 2 ^ 48 ∧
          s.regsBut t [regAddr .HBM_SR_STATE st 0, regAddr .HBM_SCRUB_STATUS st 0, regAddr .HBM_CNT st 9])) ∧
    (∀ c : Fin 16,
      let k := s.ctrl st c
      let g := 32 * st.val + 2 * c.val + b2n k.scrubLow
      let a := s.unitAddr g (s.pch g).walk
      (s.reg .HBM_SCRUB_CFG 0 0).bit 31 = true → 2 ≤ s.stackState st → s.stackState st ≤ 5 →
      k.scrubAt + s.fld .HBM_SCRUB_CFG 0 0 19 0 * 1000 ≤ s.time → (s.pch g).inSr = false → s.bad = [] →
      (s.pch g).walk + 1 < 4194304 →
      (k.waiting ≠ [] → ∃ t, exec (.hbmScrubRead st c) s = .next t ∧ t = { s with hbm := { s.hbm with ctrls := t.hbm.ctrls } } ∧
        t.ctrl st c = { k with scrubAt := s.time, scrubDue := some (k.scrubDue.getD s.time) }) ∧
      (k.waiting = [] → s.hbm.soft = [] → ∃ t, exec (.hbmScrubRead st c) s = .next t ∧ t = { s with regs := t.regs, hbm := t.hbm } ∧
        t.fld .HBM_CNT st 8 47 0 = (s.fld .HBM_CNT st 8 47 0 + 1) % 2 ^ 48 ∧ s.regsBut t [regAddr .HBM_CNT st 8] ∧
        t.ctrl st c = { k with scrubAt := s.time, scrubLow := !k.scrubLow, scrubDue := none } ∧
        t.pch g = { s.pch g with walk := (s.pch g).walk + 1 } ∧ (∀ i, i ≠ g → t.pch i = s.pch i)) ∧
      (∀ i, i < 16 → k.waiting = [] → s.hbm.soft = [a + 32 * i] → ∃ t, exec (.hbmScrubRead st c) s = .next t ∧
        t = { s with regs := t.regs, hbm := t.hbm, svc := t.svc } ∧ t.hbm.soft = [] ∧
        t.fld .HBM_CNT st 5 47 0 = (s.fld .HBM_CNT st 5 47 0 + 1) % 2 ^ 48 ∧ (t.reg .HBM_EVENT st 0).bit 0 = true))

/-- A packet behind another of its path waits. Else a best-effort packet in the network, whose move is under way or is begun by its
next turn code with an explicit count, goes to the neighbour in its direction over a link within the die that is on, with the hops
left reduced, and nothing else changes. Over a bridge lane that no other packet uses or stands behind, one of its flits crosses and
is counted, and the packet follows its last flit. A move off the mesh faults with cause 1, over a link switched off with 2, a
reserved code with 0, an END away from the destination with 3; a fault drops the packet, counts, sets ROUTE_FAULT and, where that
was clear, records router, code position, network and cause. An END at the destination delivers; a broadcast is delivered at router
0 and at each router its copies come to, and copied on east along row 0 and south down each column. A new request leaves with its
table's route, tracked until the timeout of its target. Nothing else changes. Of a guaranteed DAT packet of a flow, at the head of
its path and on its way over a link within the die that is on: in one of its flow's slots, after the guard, one flit crosses and is
counted, where the link has sent fewer than three in the slot, and the packet follows its last flit. Within the guard, or a slot
early, it waits and nothing changes. Later than its slots it waits too, and each flit it still has here counts a missed slot once,
with the event. -/
def Obligations.NetworkPacketHops : Prop :=
  (∀ (s : State) (p : NocPacket), s.down = false → p.router < 768 → (p.guar && p.net == 3) = false →
    let die := routerDie p.router
    let rest := s.noc.packets.erase p
    let aim := if p.dstKind = 6 then 0 else p.dst
    let heads := p ∈ s.noc.packets ∧ ∀ q ∈ s.noc.packets.takeWhile (· != p), q.path ≠ p.path
    let moves (d : Dir) (left : Nat) := (p.dir = some d ∧ left = p.left) ∨
      (p.dir = none ∧ p.spread = false ∧ p.pos < 15 ∧ codeDir (turnCode p.route p.pos) = some d ∧ turnCode p.route (p.pos + 1) < 14 ∧
        left = turnCode p.route (p.pos + 1) + 1)
    let hop (d : Dir) (n left : Nat) (lane : Option Nat) : NocPacket :=
      { p with
        router := n, hops := p.hops + 1, missed := false, bridges := p.bridges + b2n lane.isSome
        dir := if 1 < left then some d else none
        left := left - 1, pos := if 1 < left ∨ p.spread = true then p.pos else p.pos + 2, crossed := 0, lane := lane }
    let copies : List NocPacket :=
      (if p.router < 31 then [{ p with spread := true, dir := some .east, left := 1, lane := none }] else []) ++
      (if p.router < 736 then [{ p with spread := true, dir := some .south, left := 1, lane := none }] else [])
    let spreads := exec (.nocPacketHop p) s = .next { s with noc := { s.noc with packets := rest ++ copies, delivered := s.noc.delivered ++ [p] } }
    let faulted (pos cause : Nat) := ∃ t, exec (.nocPacketHop p) s = .next t ∧
      t = { s with noc := { s.noc with packets := rest }, regs := t.regs, svc := t.svc } ∧
      t.fld .NOC_CNT die 0 47 0 = (s.fld .NOC_CNT die 0 47 0 + 1) % 2 ^ 48 ∧ (t.reg .NOC_EVENT die 0).bit 0 = true ∧
      ((s.reg .NOC_EVENT die 0).bit 0 = false → t.fld .NOC_ROUTE_FAULT die 0 63 54 = p.router ∧
        t.fld .NOC_ROUTE_FAULT die 0 53 50 = pos % 16 ∧ t.fld .NOC_ROUTE_FAULT die 0 49 48 = p.net % 4 ∧
        t.fld .NOC_ROUTE_FAULT die 0 47 46 = cause) ∧
      ((s.reg .NOC_EVENT die 0).bit 0 = true → t.reg .NOC_ROUTE_FAULT die 0 = s.reg .NOC_ROUTE_FAULT die 0) ∧
      s.regsBut t [regAddr .NOC_CNT die 0, regAddr .NOC_EVENT die 0, regAddr .NOC_ROUTE_FAULT die 0]
    (p ∈ s.noc.packets → (∃ q ∈ s.noc.packets.takeWhile (· != p), q.path = p.path) → exec (.nocPacketHop p) s = .next s) ∧
    (∀ d n left, heads → moves d left → stepRouter p.router d = some n → s.linkOff p.router n d = false → routerDie n = die →
      exec (.nocPacketHop p) s = .next { s with noc := { s.noc with packets := rest ++ [hop d n left none] } }) ∧
    (∀ d n left, heads → moves d left → stepRouter p.router d = some n → s.linkOff p.router n d = false → routerDie n ≠ die →
      p.net < 4 → p.crossed < 5 →
      let lane := 4 * p.router + dirCode d
      p.lane ≠ some lane → (∀ q ∈ rest, q.leavesBy lane = false ∧ q.lane ≠ some lane) →
      ∃ t, exec (.nocPacketHop p) s = .next t ∧
        t = { s with noc := { s.noc with lanes := t.noc.lanes, packets :=
          if p.crossed + 1 < p.flits then s.noc.packets.replace p { p with crossed := p.crossed + 1, missed := false }
          else rest ++ [hop d n left (some lane)] }, regs := t.regs } ∧
        t.fld .NOC_CNT die 5 47 0 = (s.fld .NOC_CNT die 5 47 0 + 1) % 2 ^ 48 ∧ s.regsBut t [regAddr .NOC_CNT die 5] ∧
        ∀ k, k ≠ lane → smGet (fun _ => LaneSt.idle) t.noc.lanes k = smGet (fun _ => LaneSt.idle) s.noc.lanes k) ∧
    (∀ d left, heads → moves d left →
      (stepRouter p.router d = none → faulted p.pos 1) ∧
      (∀ n, stepRouter p.router d = some n → s.linkOff p.router n d = true → faulted p.pos 2)) ∧
    (heads → p.dir = none → p.spread = true → spreads) ∧
    (heads → p.dir = none → p.spread = false → p.pos < 15 →
      (turnCode p.route p.pos = 0 → p.router = aim → p.net = 2 → p.dstKind = 6 → spreads) ∧
      (turnCode p.route p.pos = 0 → p.router = aim → p.isResponse = false → ¬ (p.net = 2 ∧ p.dstKind = 6) → exec (.nocPacketHop p) s =
        .next { s with noc := { s.noc with packets := rest, delivered := s.noc.delivered ++ [p] } }) ∧
      (turnCode p.route p.pos = 0 → p.router ≠ aim → faulted p.pos 3) ∧
      (turnCode p.route p.pos ≠ 0 → codeDir (turnCode p.route p.pos) = none → faulted p.pos 0)) ∧
    (p ∉ s.noc.packets → freshPkt p = true → p.net = 0 → s.tagFree (routerDie p.src) p.tag = true → p.gen = s.tagGen (routerDie p.src) p.tag →
      ∃ t r, exec (.nocPacketHop p) s = .next t ∧ t = { s with noc := t.noc, regs := t.regs, svc := t.svc } ∧
        t.tracked (routerDie p.src) p.tag = some r ∧ r.gen = p.gen ∧
        r.deadline = s.time + (if p.dstKind = 3 then s.fld .NOC_TIMEOUT (routerDie p.src) 0 51 32 else s.fld .NOC_TIMEOUT (routerDie p.src) 0 19 0) * 1000 ∧
        ∀ q ∈ t.noc.packets, q ∈ s.noc.packets ∨ q.route = s.routeFor { p with flow := none })) ∧
  ∀ (s : State) (p : NocPacket) (d : Dir) (n f : Nat), s.down = false → p.router < 768 → p.guar = true → p.net = 3 → p.flow = some f →
    p ∈ s.noc.packets → (∀ q ∈ s.noc.packets.takeWhile (· != p), q.path ≠ p.path) → p.dir = some d →
    stepRouter p.router d = some n → s.linkOff p.router n d = false → routerDie n = routerDie p.router →
    let die := routerDie p.router
    let w := s.reg .NOC_FLOW_SLOTS (routerDie p.src) f
    let place := (s.time / 2 % 64 + 64 - (w.fld 5 0 + p.hops + p.bridges) % 64) % 64
    let early := place = 63 ∨ (p.lane ≠ none ∧ place = 62)
    let l := smGet (fun _ => LaneSt.idle) s.noc.lanes (4 * p.router + dirCode d)
    let sent : NocPacket :=
      { p with
        router := n, hops := p.hops + 1, missed := false, dir := if 1 < p.left then some d else none, left := p.left - 1
        pos := if 1 < p.left ∨ p.spread = true then p.pos else p.pos + 2, crossed := 0, lane := none }
    let rest := s.noc.packets.erase p
    let full := l.slot = s.time / 2 ∧ 3 ≤ l.guar
    (place ≤ w.fld 11 6 → s.time % 2 = 1 → ¬ full → ∃ t, exec (.nocPacketHop p) s = .next t ∧
      t = { s with noc := { s.noc with lanes := t.noc.lanes, packets :=
          if p.crossed + 1 < p.flits then s.noc.packets.replace p { p with crossed := p.crossed + 1, missed := false }
          else rest ++ [sent] }, regs := t.regs } ∧
      t.fld .NOC_CNT die 3 47 0 = (s.fld .NOC_CNT die 3 47 0 + 1) % 2 ^ 48 ∧ s.regsBut t [regAddr .NOC_CNT die 3]) ∧
    (place ≤ w.fld 11 6 → s.time % 2 = 0 ∨ full → exec (.nocPacketHop p) s = .next s) ∧
    (w.fld 11 6 < place → early ∨ p.missed = true → exec (.nocPacketHop p) s = .next s) ∧
    (w.fld 11 6 < place → ¬ early → p.missed = false → ∃ t, exec (.nocPacketHop p) s = .next t ∧
      t = { s with noc := { s.noc with packets := s.noc.packets.replace p { p with missed := true } }, regs := t.regs, svc := t.svc } ∧
      t.fld .NOC_CNT die 4 47 0 = (s.fld .NOC_CNT die 4 47 0 + (p.flits - p.crossed)) % 2 ^ 48 ∧ (t.reg .NOC_EVENT die 0).bit 2 = true ∧
      s.regsBut t [regAddr .NOC_CNT die 4, regAddr .NOC_EVENT die 0])

/-- A packet stuck in the network is dropped and counted. A request past its deadline is no longer tracked, advances its tag's
generation, and its tag is held for four timeouts; the timeout is counted and its event set; the running command it belonged to,
where its corral discards nothing yet, fails with E_NET_TIMEOUT, and every other command of that corral is discarded. A response
that matches no request is counted, with its event, and ends the hold of a tag that waited for that generation; one that matches
changes nothing. A hold that has run its time ends. -/
def Obligations.InitiatorTimeouts : Prop :=
  ∀ s : State, s.down = false →
    (∀ p ∈ s.noc.packets, p.router < 768 → ∃ t, exec (.nocFlitStuck p) s = .next t ∧
      t = { s with noc := { s.noc with packets := s.noc.packets.erase p }, regs := t.regs, svc := t.svc } ∧
      t.fld .NOC_CNT (routerDie p.router) 6 47 0 = (s.fld .NOC_CNT (routerDie p.router) 6 47 0 + 1) % 2 ^ 48 ∧
      (t.reg .NOC_EVENT (routerDie p.router) 0).bit 4 = true ∧
      s.regsBut t [regAddr .NOC_CNT (routerDie p.router) 6, regAddr .NOC_EVENT (routerDie p.router) 0]) ∧
    (∀ (die : Fin 4) (tag : BitVec 16) (r : TrackedReq), s.tracked die tag.toNat = some r → r.deadline ≤ s.time →
      ∃ t, exec (.initiatorTimeout die tag) s = .next t ∧ t.tracked die tag.toNat = none ∧
        t.tagGen die tag.toNat = (r.gen + 1) % 256 ∧
        smGet (fun _ => none) t.noc.held (die * 65536 + tag.toNat) = some (r.gen, s.time + 4 * r.timeout) ∧
        t.fld .NOC_CNT die 1 47 0 = (s.fld .NOC_CNT die 1 47 0 + 1) % 2 ^ 48 ∧ (t.reg .NOC_EVENT die 0).bit 1 = true ∧
        s.regsBut t [regAddr .NOC_CNT die 1, regAddr .NOC_EVENT die 0] ∧
        (s.cmd r.queue r.seq = none → t = { s with noc := t.noc, regs := t.regs, svc := t.svc }) ∧
        (∀ c, s.cmd r.queue r.seq = some c → c.corral = r.corral → c.phase = .running → s.discard c.corral = none →
          t = { s with noc := t.noc, regs := t.regs, svc := t.svc, cmds := t.cmds } ∧
          (∃ x, t.cmd r.queue r.seq = some x ∧ x.phase = .failing E_NET_TIMEOUT 0 0) ∧
          (∀ x ∈ t.cmds, x.corral = c.corral → (x.queue, x.seq) ≠ (r.queue, r.seq) → x.phase = .discarding E_NET_TIMEOUT r.queue) ∧
          t.discard c.corral = some { code := E_NET_TIMEOUT, queue := r.queue, instant := s.time, repair := [], joined := [] })) ∧
    (∀ (die : Fin 4) (tag : BitVec 16) (gen : BitVec 8),
      (∀ r, s.tracked die tag.toNat = some r → r.gen = gen.toNat → exec (.lateResponse die tag gen) s = .next s) ∧
      ((∀ r, s.tracked die tag.toNat = some r → r.gen ≠ gen.toNat) →
        ∃ t, exec (.lateResponse die tag gen) s = .next t ∧
          t = { s with noc := { s.noc with held := t.noc.held }, regs := t.regs, svc := t.svc } ∧
          t.fld .NOC_CNT die 2 47 0 = (s.fld .NOC_CNT die 2 47 0 + 1) % 2 ^ 48 ∧ (t.reg .NOC_EVENT die 0).bit 3 = true ∧
          s.regsBut t [regAddr .NOC_CNT die 2, regAddr .NOC_EVENT die 0] ∧
          ∀ g u, smGet (fun _ => none) s.noc.held (die * 65536 + tag.toNat) = some (g, u) →
            smGet (fun _ => none) t.noc.held (die * 65536 + tag.toNat) = if g = gen.toNat then none else some (g, u)) ∧
      (∀ g u, smGet (fun _ => none) s.noc.held (die * 65536 + tag.toNat) = some (g, u) → u ≤ s.time →
        ∃ t, exec (.tagHoldExpiry die tag) s = .next t ∧ t = { s with noc := { s.noc with held := t.noc.held } } ∧
          ∀ k, smGet (fun _ => none) t.noc.held k = if k = die * 65536 + tag.toNat then none else smGet (fun _ => none) s.noc.held k))

/-- A paddock that may not tick, or whose gait has a member whose edge is held, keeps everything on GAIT_EDGE. Otherwise every
member that ticks goes to its next tick, its gait is not stopped, and it leaves user reset at the edge that ends tick RESET_TICKS -
1; no other paddock's tick or stage changes; a paddock without a group counts its edge. USER_RESET_DEASSERT is that edge, and does
nothing in another tick. A gait whose edge has been held for 1 µs past its period stops on every member, and their batches leave for
their rings. -/
def Obligations.GaitEdgesAndStops : Prop :=
  ∀ (s : State) (p : Fin 9216) (pins : BitVec 64), s.down = false →
    let members := s.gaitMembers p
    let resetTicks (x : Nat) := (smGet (fun _ => RParam.dflt) s.cfg.live.rparams (s.pdkRegion x)).ticks
    let ticked (t : State) := t = { s with pdks := t.pdks, regs := t.regs, svc := t.svc, mem := t.mem, bad := t.bad, draws := t.draws
                                           cfg := { s.cfg with regions := t.cfg.regions } } ∧
      (∀ x ∈ members, (t.pdk x).tick = (s.pdk x).tick + 1 ∧ (t.pdk x).lastEdge = s.time ∧ (t.pdk x).stopped = false ∧
        (t.pdk x).stage = if (s.pdk x).stage = 2 ∧ (s.pdk x).tick + 1 = resetTicks x then 3 else (s.pdk x).stage) ∧
      (∀ x, x ∉ members → (t.pdk x).tick = (s.pdk x).tick ∧ (t.pdk x).stage = (s.pdk x).stage) ∧
      (s.groupOf p = none → t.fld .PDK_EDGE_COUNT p 0 47 0 = (s.fld .PDK_EDGE_COUNT p 0 47 0 + 1) % 2 ^ 48)
    (s.pdkTicks p = false → exec (.gaitEdge p pins) s = .next s) ∧
    (∀ x ∈ members, s.edgeHeld x ≠ 0 → exec (.gaitEdge p pins) s = .next s) ∧
    (s.pdkTicks p = true → (∀ x ∈ members, s.edgeHeld x = 0) →
      (∃ t, exec (.gaitEdge p pins) s = .next t ∧ ticked t) ∧
      ((s.pdk p).stage = 2 → (s.pdk p).tick + 1 = resetTicks p → p.val ∈ members →
        ∃ t, exec (.userResetDeassert p) s = .next t ∧ ticked t ∧ (t.pdk p).stage = 3)) ∧
    ((s.pdk p).stage ≠ 2 ∨ (s.pdk p).tick + 1 ≠ resetTicks p → exec (.userResetDeassert p) s = .next s) ∧
    (s.pdkTicks p = true → (s.pdk p).stopped = false → (∃ x ∈ members, s.edgeHeld x ≠ 0) →
      (s.pdk p).lastEdge * 1000 + s.pdkPeriod p + 1000000 ≤ s.time * 1000 →
      ∃ t, exec (.gaitStop p) s = .next t ∧ t = { s with pdks := t.pdks, mem := t.mem, bad := t.bad } ∧
        (∀ x ∈ members, (t.pdk x).stopped = true ∧ (t.pdk x).stopAt = s.time ∧ (t.pdk x).outRing.batch = [] ∧
          (t.pdk x).tick = (s.pdk x).tick) ∧ ∀ x, x ∉ members → t.pdk x = s.pdk x)

/-- The oldest word in flight from a paddock reaches its receiver behind the words that wait there, fewer than four; a receiver that
is held, shut, not released or replaying takes nothing, and the sender counts the drop with its event; another word changes nothing.
After a delivery no gait of the sender's or the receiver's group is stopped that nothing holds. A batch with words in it leaves for
its ring where it holds 16, 100 ns after its first word, or when the gait has stopped, and otherwise stays. A write of whole aligned
words within a paddock's RAM slot stores them and nothing else; an access that is not whole aligned words is counted as bad; a read
changes nothing. -/
def Obligations.PaddockWordsAndRam : Prop :=
  ∀ (s : State) (p : Fin 9216), s.down = false →
    (∀ (w : Word) (rest : List Word), (s.pdk p).flight = w :: rest → ∃ t, exec (.channelWordDeliver p w) s = .next t ∧
      t = { s with pdks := t.pdks, regs := t.regs, svc := t.svc } ∧
      ∀ x, x ∈ s.groupMembers p ∨ x ∈ s.groupMembers (s.pdkTo p) → (t.pdk x).stopped = true → t.gaitHeld x = true) ∧
    (∀ (w : Word) (rest : List Word), (s.pdk p).flight = w :: rest →
      (∀ x, x ∈ s.groupMembers p ∨ x ∈ s.groupMembers (s.pdkTo p) → (s.pdk x).stopped = false) →
      (s.discards (s.pdkTo p) = false → (s.pdk (s.pdkTo p)).fifo.length < 4 → ∃ t, exec (.channelWordDeliver p w) s = .next t ∧ t = { s with pdks := t.pdks } ∧
        (t.pdk p).flight = rest ∧ (t.pdk (s.pdkTo p)).fifo = (s.pdk (s.pdkTo p)).fifo ++ [w] ∧
        ∀ x, x ≠ p.val → x ≠ s.pdkTo p → t.pdk x = s.pdk x) ∧
      (s.discards (s.pdkTo p) = true → ∃ t, exec (.channelWordDeliver p w) s = .next t ∧
        t = { s with pdks := t.pdks, regs := t.regs, svc := t.svc } ∧ t.pdk p = { s.pdk p with flight := rest } ∧
        (∀ x, x ≠ p.val → t.pdk x = s.pdk x) ∧
        t.fld .PDK_CH_DROP_WORDS p 0 47 0 = (s.fld .PDK_CH_DROP_WORDS p 0 47 0 + 1) % 2 ^ 48 ∧
        (t.reg .PDK_EVENT p 0).bit 0 = true ∧ s.regsBut t [regAddr .PDK_CH_DROP_WORDS p 0, regAddr .PDK_EVENT p 0])) ∧
    (∀ w : Word, (s.pdk p).flight.head? ≠ some w → exec (.channelWordDeliver p w) s = .next s) ∧
    (let due := (s.pdk p).outRing.batchAt + 100 ≤ s.time ∨ (s.pdk p).stopped = true ∨ 16 ≤ (s.pdk p).outRing.batch.length
      let ring := s.pdkRingAt p true
      let k := (s.pdk p).outRing
      (due → k.batch ≠ [] → ∃ t, exec (.ringBatchFlush p) s = .next t ∧ t = { s with pdks := t.pdks, mem := t.mem, bad := t.bad } ∧
        t.pdk p = { s.pdk p with outRing := { k with p := k.p + 8 * k.batch.length, batch := [] } } ∧
        (∀ x, x ≠ p.val → t.pdk x = s.pdk x) ∧ t.mem = (s.ringStore ring.1 ring.2 k.p (wordsBytes k.batch)).mem) ∧
      (¬ due → exec (.ringBatchFlush p) s = .next s)) ∧
    (∀ (off : BitVec 13) (d : List Byte) (len : BitVec 13), off.toNat + d.length ≤ 0x1200 →
      (off.toNat % 8 = 0 → d.length % 8 = 0 → ∃ t, exec (.paddockRamAccess p off (some d) len) s = .next t ∧
        t = { s with mem := t.mem, bad := t.bad } ∧ t.rdBytes (pdkRamAddr p off.toNat) d.length = d ∧
        s.memBut t (pdkRamAddr p off.toNat) d.length) ∧
      (off.toNat % 8 ≠ 0 ∨ d.length % 8 ≠ 0 → ∃ t, exec (.paddockRamAccess p off (some d) len) s = .next t ∧
        t = { s with regs := t.regs, svc := t.svc } ∧ (t.reg .DBG_EVENT 0 0).bit 0 = true ∧
        t.fld .DBG_BAD_REG_ACCESS 0 0 47 0 = (s.fld .DBG_BAD_REG_ACCESS 0 0 47 0 + 1) % 2 ^ 48)) ∧
    (∀ off len : BitVec 13, off.toNat + len.toNat ≤ 0x1200 → off.toNat % 8 = 0 → len.toNat % 8 = 0 →
      exec (.paddockRamAccess p off none len) s = .next s)

/-- ARM of a port that is neither ARMED nor RUNNING arms it with ERROR 0 and its pointer at 0, or, where a check fails, leaves it
OFF with the error of the first; E_CORRAL_ACCESS where no corral owns the paddock or its region is quarantined. ARM of a busy port
changes nothing. STOP turns an ARMED port OFF and a RUNNING one DONE; a running capture without samples writes nothing. STOP of
another port changes nothing. In the tick that START names an ARMED port of a ticking paddock becomes RUNNING. A RUNNING capture
writes its oldest closed block, stamps, first tick, count, gap, losses, paddock and samples, to the 512 bytes at the region's
pointer, where that memory is served, and moves the pointer on by one block while the region has another; no other byte changes, and
one unit goes to its controller. An ARMED or RUNNING replay that holds fewer than two blocks, with blocks left and memory that can
be read, takes the next 64 words of its region by one unit and moves its pointer on, in LOOP mode back to block 0 with the loop
counted. -/
def Obligations.ProbePorts : Prop :=
  ∀ (s : State) (p : Fin 9216), s.down = false →
    let k := s.pdk p
    let capError := s.armError p (s.fld .PDK_PROBE_BASE p 0 56 9) (s.fld .PDK_PROBE_LEN p 0 31 0) true
    let repError := s.armError p (s.fld .PDK_REPLAY_BASE p 0 56 9) (s.fld .PDK_REPLAY_LEN p 0 31 0) false
    let capBusy := k.cap = .armed ∨ k.cap = .running
    let repBusy := k.rep = .armed ∨ k.rep = .running
    (s.owner .paddock p = none ∨ s.pdkShut p = true → capError = E_CORRAL_ACCESS ∧ repError = E_CORRAL_ACCESS) ∧
    (capBusy → exec (.probeArm p) s = .next s) ∧ (repBusy → exec (.replayArm p) s = .next s) ∧
    (¬ capBusy → ∃ t, exec (.probeArm p) s = .next t ∧ t = { s with pdks := t.pdks, regs := t.regs } ∧
      t.fld .PDK_PROBE_CTL p 0 31 16 = capError % 2 ^ 16 ∧ s.fieldOnly t .PDK_PROBE_CTL p 0 31 16 ∧
      s.regsBut t [regAddr .PDK_PROBE_CTL p 0, regAddr .PDK_PROBE_WPTR p 0] ∧ (∀ x, x ≠ p.val → t.pdk x = s.pdk x) ∧
      (capError ≠ 0 → t.pdk p = { k with cap := .off }) ∧
      (capError = 0 → t.pdk p = { k with cap := .armed, block := none, full := [], lostRun := 0 } ∧ t.reg .PDK_PROBE_WPTR p 0 = 0)) ∧
    (¬ repBusy → ∃ t, exec (.replayArm p) s = .next t ∧ t = { s with pdks := t.pdks, regs := t.regs } ∧
      t.fld .PDK_REPLAY_CTL p 0 31 16 = repError % 2 ^ 16 ∧ s.fieldOnly t .PDK_REPLAY_CTL p 0 31 16 ∧
      s.regsBut t [regAddr .PDK_REPLAY_CTL p 0, regAddr .PDK_REPLAY_RPTR p 0] ∧ (∀ x, x ≠ p.val → t.pdk x = s.pdk x) ∧
      (repError ≠ 0 → t.pdk p = { k with rep := .off }) ∧
      (repError = 0 → t.pdk p = { k with rep := .armed, repBuf := [], repNext := 0 } ∧ t.reg .PDK_REPLAY_RPTR p 0 = 0)) ∧
    (let stopped (c : ProbePhase) : PdkSt := if c = .armed then { k with cap := .off } else { k with cap := .done };
      (k.cap = .armed ∨ (k.cap = .running ∧ k.full = [] ∧ k.block = none)) →
        ∃ t, exec (.probeStop p) s = .next t ∧ t = { s with pdks := t.pdks } ∧ t.pdk p = stopped k.cap ∧
          ∀ x, x ≠ p.val → t.pdk x = s.pdk x) ∧
    (k.cap = .off ∨ k.cap = .done → exec (.probeStop p) s = .next s) ∧
    (k.rep = .armed → ∃ t, exec (.replayStop p) s = .next t ∧ t = { s with pdks := t.pdks } ∧ t.pdk p = { k with rep := .off } ∧
      ∀ x, x ≠ p.val → t.pdk x = s.pdk x) ∧
    (k.rep = .running → ∃ t, exec (.replayStop p) s = .next t ∧ t = { s with pdks := t.pdks } ∧
      t.pdk p = { k with rep := .done, repBuf := [] } ∧ ∀ x, x ≠ p.val → t.pdk x = s.pdk x) ∧
    (k.rep = .off ∨ k.rep = .done → exec (.replayStop p) s = .next s) ∧
    (s.pdkTicks p = true → k.cap = .armed → s.fld .PDK_PROBE_START p 0 47 0 = k.tick → k.rep ≠ .armed →
      ∃ t, exec (.probeStartTick p) s = .next t ∧ t = { s with pdks := t.pdks } ∧ t.pdk p = { k with cap := .running } ∧
        ∀ x, x ≠ p.val → t.pdk x = s.pdk x) ∧
    (let k := s.pdk p
      let w := s.fld .PDK_PROBE_WPTR p 0 31 0
      let a := s.fld .PDK_PROBE_BASE p 0 56 9 * 512 + 512 * w
      ∀ b rest, k.cap = .running → k.full = b :: rest → b.samples.length ≤ 60 → a + 512 ≤ hbmTop → s.hbmServed a = true →
        w + 1 < s.fld .PDK_PROBE_LEN p 0 31 0 →
        let u := s.blockUnit .capture (s.owner .paddock p) true a
        ∃ t, exec (.captureBlockWrite p) s = .next t ∧ t = { u with pdks := t.pdks, regs := t.regs, mem := t.mem, bad := t.bad } ∧
          t.pdk p = { k with full := rest } ∧ (∀ x, x ≠ p.val → t.pdk x = s.pdk x) ∧ t.fld .PDK_PROBE_WPTR p 0 31 0 = w + 1 ∧
          u.regsBut t [regAddr .PDK_PROBE_WPTR p 0] ∧ s.memBut t a 512 ∧
          t.rdWord a = b.stampFirst % 2 ^ 64 ∧ t.rdWord (a + 8) = b.stampLast % 2 ^ 64 ∧
          t.rdWord (a + 16) = (b.tickFirst % 2 ^ 48 * 2 ^ 16 + b.samples.length * 2 ^ 8 + b2n b.gap) % 2 ^ 64 ∧
          t.rdWord (a + 24) = min b.lost 0xFFFFFFFF * 2 ^ 32 + p.val ∧
          ∀ j, j < 60 → t.rdWord (a + 32 + 8 * j) = (b.samples.getD j 0).toNat) ∧
    (let k := s.pdk p
      let w := s.fld .PDK_REPLAY_RPTR p 0 31 0
      let loops := s.fld .PDK_REPLAY_RPTR p 0 63 32
      let blocks := s.fld .PDK_REPLAY_LEN p 0 31 0
      let a := s.fld .PDK_REPLAY_BASE p 0 56 9 * 512 + 512 * w
      (k.rep = .armed ∨ k.rep = .running) → k.repBuf.length < 2 → (∀ x ∈ s.groupMembers p, (s.pdk x).stopped = false) → w < blocks → a + 512 ≤ hbmTop → s.hbmServed a = true →
        s.badIn a 512 = none →
        let u := s.blockUnit .replay (s.owner .paddock p) false a
        ∃ t, exec (.stimulusBlockArrival p) s = .next t ∧ t = { u with pdks := t.pdks, regs := t.regs } ∧
          t.pdk p = { k with repBuf := k.repBuf ++ [(blocks * loops + w, bytesWords 64 (s.rdBytes a 512))] } ∧
          (∀ x, x ≠ p.val → t.pdk x = s.pdk x) ∧ u.regsBut t [regAddr .PDK_REPLAY_RPTR p 0] ∧
          (w + 1 = blocks → (s.reg .PDK_REPLAY_CTL p 0).bit 4 = true →
            t.fld .PDK_REPLAY_RPTR p 0 31 0 = 0 ∧ t.fld .PDK_REPLAY_RPTR p 0 63 32 = (loops + 1) % 2 ^ 32) ∧
          (w + 1 < blocks → t.fld .PDK_REPLAY_RPTR p 0 31 0 = w + 1 ∧ t.fld .PDK_REPLAY_RPTR p 0 63 32 = loops))

/-- A write of CFG_LOAD with a reserved encoding has no effect. While a load runs it is refused: counted, with CFG_EVENT.REFUSED,
and nothing else. Without one, a hitch load on a device that is not the lead reports E_CFG_ROLE, and an HBM source that is not
512-byte aligned reports E_OPERAND_ALIGN; otherwise the load starts from its source, with CFG_STATUS.SOURCE and CFG_PROGRESS 0, and
for a hitch the devices of the hitch await their reports and HITCH is 1. -/
def Obligations.ConfigurationLoadStarts : Prop :=
  ∀ (s : State) (v : Word), s.down = false →
    let errorIs (code : Nat) := ∃ t, exec (.cfgLoad v) s = .next t ∧ t = { s with regs := t.regs } ∧
      t.fld .CFG_STATUS 0 0 63 48 = code ∧ s.fieldOnly t .CFG_STATUS 0 0 63 48 ∧ s.regsBut t [regAddr .CFG_STATUS 0 0]
    let src : LoadSource := if v.fld 59 58 = 0 then .hbm else if v.fld 59 58 = 1 then .flashUpdate else .flashFallback
    let hitch := v.fld 57 56 = 1
    let addr := s.fld .CFG_LOAD_ADDR 0 0 56 0
    let legal := v.fld 63 60 = 1 ∧ v.fld 59 58 ≤ 2 ∧ v.fld 57 56 ≤ 1
    (¬ legal → exec (.cfgLoad v) s = .next s) ∧
    (legal → s.cfg.load ≠ none → ∃ t, exec (.cfgLoad v) s = .next t ∧ t = { s with regs := t.regs, svc := t.svc } ∧
      t.fld .CFG_REFUSED_COUNT 0 0 47 0 = (s.fld .CFG_REFUSED_COUNT 0 0 47 0 + 1) % 2 ^ 48 ∧ (t.reg .CFG_EVENT 0 0).bit 4 = true ∧
      s.regsBut t [regAddr .CFG_REFUSED_COUNT 0 0, regAddr .CFG_EVENT 0 0]) ∧
    (legal → s.cfg.load = none → hitch → s.isLead = false → errorIs E_CFG_ROLE) ∧
    (legal → s.cfg.load = none → ¬(hitch ∧ s.isLead = false) → src = .hbm ∧ addr % 512 ≠ 0 → errorIs E_OPERAND_ALIGN) ∧
    (legal → s.cfg.load = none → ¬(hitch ∧ s.isLead = false) → ¬(src = .hbm ∧ addr % 512 ≠ 0) →
      ∃ t l, exec (.cfgLoad v) s = .next t ∧ t.cfg.load = some l ∧ l.source = src ∧ l.addr = addr ∧
        l.len = (s.reg .CFG_LOAD_LEN 0 0).toNat ∧ l.hitch = (v.fld 57 56 == 1) ∧ l.accepted = false ∧ l.oldEpoch = s.reg .CFG_EPOCH 0 0 ∧
        t.fld .CFG_STATUS 0 0 28 27 = v.fld 59 58 ∧ t.reg .CFG_PROGRESS 0 0 = 0 ∧
        (¬ hitch → t = { s with regs := t.regs, cfg := { s.cfg with load := some l } } ∧
          s.regsBut t [regAddr .CFG_STATUS 0 0, regAddr .CFG_PROGRESS 0 0] ∧ s.fieldOnly t .CFG_STATUS 0 0 28 27) ∧
        (hitch → t = { s with regs := t.regs, rein := t.rein, sent := t.sent, cfg := t.cfg } ∧
          t.cfg = { s.cfg with load := some l, hitch := some { devices := s.hitchDevices, got := [], since := s.time } } ∧
          (t.reg .CFG_STATUS 0 0).bit 24 = true))

/-- While a load whose image has not been accepted reads its header from HBM or flash, for this device alone and not as the fallback
or the start-up load: a source that ends before the header or before the frame list ends the load with E_CFG_TRUNCATED; otherwise
the first check of the header, and then of the list, that fails ends it with that check's error. The device keeps its configuration:
beside the units of an HBM source's reads only CFG_STATUS.ERROR and CFG_EVENT.FAILED change. With no load, or with an accepted one,
CFG_HEADER_ACCEPT does nothing. -/
def Obligations.ImageHeaderChecks : Prop :=
  (∀ s : State, s.down = false → (∀ l, s.cfg.load = some l → l.accepted = true) → exec .cfgHeaderAccept s = .next s) ∧
  ∀ (s : State) (l : LoadSt), s.down = false → s.cfg.load = some l → l.accepted = false → l.source ≠ .reins → l.hitch = false →
    l.asFallback = false → l.atStart = false →
    let n := s.srcLen l
    let h := s.srcBytes l 0 512
    let k := hdrList h
    let ends (f : State) (code : Nat) := ∃ t, exec .cfgHeaderAccept s = .next t ∧ s.onlyUnits f ∧
      t = { f with regs := t.regs, svc := t.svc, cfg := { s.cfg with load := none } } ∧ t.fld .CFG_STATUS 0 0 63 48 = code % 2 ^ 16 ∧
      s.fieldOnly t .CFG_STATUS 0 0 63 48 ∧ (t.reg .CFG_EVENT 0 0).bit 1 = true ∧
      f.regsBut t [regAddr .CFG_STATUS 0 0, regAddr .CFG_EVENT 0 0]
    let f1 := s.readSource l 0 512
    (n < 512 → ends (s.readSource l 0 n) E_CFG_TRUNCATED) ∧
    (512 ≤ n → s.srcBad l 0 512 = none →
      (∀ e, hdrCheck1 h = some e → ends f1 e) ∧
      (hdrCheck1 h = none → n < 512 + k → ends (f1.readSource l 512 (n - 512)) E_CFG_TRUNCATED) ∧
      (hdrCheck1 h = none → 512 + k ≤ n → s.srcBad l 512 k = none → ∀ e, s.hdrChecks h (s.srcBytes l 512 k) = some e →
        ends (f1.readSource l 512 k) e))

/-- An image whose header and frame list pass their checks, from HBM or flash and whole in its source, is accepted: CFG_EPOCH.VALID
is 0 and its epoch kept, CFG_STATUS.PARTIAL says which kind it is, STATE is LOADING_FULL or LOADING_PARTIAL except in the fallback
load, and CFG_PROGRESS counts the header and list. Each region of the image is LOADING in stage 0, its paddocks too (their RAM goes
back to its loaded contents where they were past stage 0); the other regions are as they were. A full image stops every queue that
is enabled. -/
def Obligations.ImageAcceptance : Prop :=
  ∀ (s : State) (l : LoadSt), s.down = false → s.cfg.load = some l → l.accepted = false → l.source ≠ .reins →
    let n := s.srcLen l
    let h := s.srcBytes l 0 512
    let k := hdrList h
    let part := hdrPartial h
    512 ≤ n → s.srcBad l 0 512 = none → hdrCheck1 h = none → 512 + k ≤ n → s.srcBad l 512 k = none →
    s.hdrChecks h (s.srcBytes l 512 k) = none → hdrTotal h ≤ n →
    ∃ t, exec .cfgHeaderAccept s = .next t ∧
      t.cfg = { s.cfg with regions := t.cfg.regions, load := some { l with
          accepted := true, head := h, flist := s.srcBytes l 512 k
          key := if hdrEncrypted h = false then none else if hdrSession h then s.groom.sessionKey else s.fuse.imageKey } } ∧
      (t.reg .CFG_EPOCH 0 0).bit 32 = false ∧ s.fieldOnly t .CFG_EPOCH 0 0 32 32 ∧ (t.reg .CFG_STATUS 0 0).bit 26 = part ∧
      t.fld .CFG_STATUS 0 0 31 29 = (if l.asFallback then s.fld .CFG_STATUS 0 0 31 29 else if part then 2 else 1) ∧
      t.reg .CFG_PROGRESS 0 0 = BitVec.ofNat 64 (512 + k) ∧
      (∀ r, r < 256 → t.region r = if part = false ∨ bitAt (hdrMask h) r = true
        then { s.region r with stage := 0, command := false, loading := true } else s.region r) ∧
      (∀ r, r < 256 → part = false ∨ bitAt (hdrMask h) r = true → ∀ p ∈ s.regionPdks r, (t.pdk p).stage = 0) ∧
      (part = false → ∀ q, (s.queue q).phase = .enabled → (t.queue q).phase = .stopped ∧ (t.queue q).error = E_CFG_QUARANTINE) ∧
      (part = false → (∀ r, r < 256 → ∀ p ∈ s.regionPdks r, (s.pdk p).stage = 0) → t.mem = s.mem) ∧ t.time = s.time ∧ t.fuse = s.fuse ∧ t.groom = s.groom

/-- An accepted image from HBM or flash, whole in its source, with nothing left to discard, whose body runs to END without an error,
whose checks at END hold and whose digest matches, commits: the staged structure and frames are the device's, the load is over,
STATE is CONFIGURED with ERROR 0 and CFG_EVENT.COMMITTED, CFG_EPOCH holds the image's epoch and VALID, CFG_PROGRESS the whole image.
Each of its regions takes the digest and epoch, in stage 0, released if the image says so; other regions keep theirs. After a full
image every queue is DISABLED. -/
def Obligations.ConfigurationCommit : Prop :=
  ∀ (s : State) (l : LoadSt), s.down = false → s.cfg.load = some l → l.accepted = true → l.source ≠ .reins → l.hitch = false →
    let h := l.head
    let off := 512 + hdrList h
    let part := hdrPartial h
    let body := imageBody l (s.srcBytes l off (hdrBody h)) (s.srcBytes l (off + hdrBody h) 16)
    let words := (upTo (hdrBody h / 8)).map (fun i => wordAt body.1 (8 * i))
    let f := s.readSource l off (hdrTotal h - off)
    let base : Staged := { st := s.stageBase l, frames := s.cfg.frames, wrote := [], inFrames := false }
    let g := runBody (if part then some (hdrMask h) else none) (if part then some (listEntries h l.flist) else none)
      (words.length + 1) false base words
    let s1 := (f.framesIn g.1).setReg .CFG_PROGRESS 0 0 (BitVec.ofNat 64 (hdrTotal h))
    let full := (({ s1 with cfg := { s1.cfg with live := g.1.st } } : State).applyRegs g.1.st.regs).settleRole
    s.loadBusy l = false → hdrTotal h ≤ s.srcLen l → s.srcBad l off (hdrTotal h - off) = none →
    (hdrEncrypted h = true → l.key ≠ none) → g.2 = none →
    endCheck g.1.st g.1.frames (fun f => !part || bitAt (hdrMask h) (regionIn f g.1.st.regions)) = none →
    (part = false → full.flowsOk = true ∧ f.positionDiffers full = false) →
    (Config.shake256 body.1).toNat = hdrDigest h → body.2 = true →
    ∃ t, exec .cfgCommit s = .next t ∧ t.cfg.live = { g.1.st with regs := [] } ∧ t.cfg.frames = g.1.frames ∧ t.cfg.load = none ∧
      t.fld .CFG_STATUS 0 0 31 29 = 3 ∧ t.fld .CFG_STATUS 0 0 63 48 = 0 ∧ (t.reg .CFG_EVENT 0 0).bit 0 = true ∧
      t.reg .CFG_EPOCH 0 0 = BitVec.ofNat 64 (2 ^ 32 + hdrEpoch h) ∧ t.reg .CFG_PROGRESS 0 0 = BitVec.ofNat 64 (hdrTotal h) ∧
      (∀ r, r < 256 → t.region r = if part = false ∨ bitAt (hdrMask h) r = true
        then { s.region r with stage := 0, command := hdrAuto h, loadedAt := s.time, digest := hdrDigest h, epoch := hdrEpoch h,
                               loading := false, quarantined := false }
        else s.region r) ∧
      (part = false → ∀ q, (t.queue q).phase = .disabled) ∧ t.time = s.time ∧ t.fuse = s.fuse ∧ t.groom = s.groom

/-- An accepted image that its source does not hold whole fails at CFG_COMMIT, and one over the reins that has brought no byte for
CFG_TRUNC_MS fails at CFG_STREAM_TIMEOUT, both with E_CFG_TRUNCATED and CFG_EVENT.FAILED. A partial image leaves its regions
quarantined in stage 0, the other regions as they were, and CFG_EPOCH as it was before the load. A full image makes the device fall
back: a load from the fallback image starts. The fallback image itself, whichever kind it is, leaves the device UNCONFIGURED with no
structure and no enabled queue. A stream that is not late goes on. -/
def Obligations.FailedLoad : Prop :=
  ∀ (s : State) (l : LoadSt), s.down = false → s.cfg.load = some l → l.accepted = true → l.hitch = false →
    let mask := hdrMask l.head
    let failed (t : State) := t.fld .CFG_STATUS 0 0 63 48 = E_CFG_TRUNCATED ∧ (t.reg .CFG_EVENT 0 0).bit 1 = true ∧
      (hdrPartial l.head = true → l.asFallback = false → t.cfg.load = none ∧ t.cfg.live = s.cfg.live ∧ t.cfg.frames = s.cfg.frames ∧
        t.reg .CFG_EPOCH 0 0 = l.oldEpoch ∧ (t.reg .CFG_EVENT 0 0).bit 3 = true ∧
        t.fld .CFG_STATUS 0 0 31 29 = (if s.cfg.live = CfgStruct.empty ∧ l.oldEpoch.bit 32 = false then 0 else 3) ∧
        (∀ r, r < 256 → t.region r = if bitAt mask r = true
          then { s.region r with stage := 0, command := false, loading := false, quarantined := true } else s.region r) ∧
        t.queues = s.queues ∧ t.cmds = s.cmds ∧
        ((∀ r, bitAt mask r = true → ∀ p ∈ s.regionPdks r, (s.pdk p).stage = 0) → t.mem = s.mem)) ∧
      (hdrPartial l.head = false → l.asFallback = false → l.source ≠ .flashFallback →
        t.fld .CFG_STATUS 0 0 31 29 = 4 ∧ (t.reg .CFG_STATUS 0 0).bit 25 = true ∧ (t.reg .CFG_EVENT 0 0).bit 2 = true ∧
        (∃ f, t.cfg.load = some f ∧ f.source = .flashFallback ∧ f.asFallback = true ∧ f.accepted = false) ∧
        t.queues = s.queues ∧ t.cmds = s.cmds ∧ t.mem = s.mem) ∧
      (l.asFallback = true ∨ (hdrPartial l.head = false ∧ l.source = .flashFallback) →
        t.fld .CFG_STATUS 0 0 31 29 = 0 ∧ (t.reg .CFG_EPOCH 0 0).bit 32 = false ∧ t.cfg.load = none ∧
        t.cfg.live = CfgStruct.empty ∧ (∀ r, t.region r = RegionSt.idle) ∧ (∀ q, (t.queue q).phase = .disabled) ∧ t.tethers = [])
    let late := l.lastByte + s.fld .CFG_TRUNC_MS 0 0 31 0 * 1000000 ≤ s.time
    (l.source ≠ .reins → s.loadBusy l = false → s.srcLen l < hdrTotal l.head → ∃ t, exec .cfgCommit s = .next t ∧ failed t) ∧
    (l.source = .reins → late → l.bytes.length < hdrTotal (l.bytes.take 512) → ∃ t, exec .cfgStreamTimeout s = .next t ∧ failed t) ∧
    (l.source ≠ .reins ∨ ¬ late → exec .cfgStreamTimeout s = .next s)

/-- While the lead awaits reports: the first report of a device of the hitch is recorded, and while another is awaited nothing else
changes; a second report, or one of a device outside the hitch, changes nothing. The report that completes the set ends the hitch
load: HITCH is 0, CFG_MCAST_STATUS holds the number of devices and of each outcome, and each entry of the report array that lies in
served memory holds its device's report. A device other than the lead that has not reported when the initiator timeout is over is
recorded NO_RESPONSE, the rest of its entry free; before that the timeout changes nothing. -/
def Obligations.HitchLoadReports : Prop :=
  ∀ (s : State) (h : HitchLoad), s.down = false → s.cfg.hitch = some h →
    let awaited (d : Nat) := d ∈ h.devices ∧ smFind h.got d = none
    let settles (d : Nat) := ∀ x ∈ h.devices, x ≠ d → smFind h.got x ≠ none
    let recorded (d epoch code st : Nat) (t : State) :=
      let got := smPut h.got d (epoch, code, st)
      let count (v : Nat) := (got.filter (fun e => e.2.2.2 == v)).length
      (¬ settles d → t = { s with cfg := { s.cfg with hitch := some { h with got := got } }, draws := t.draws }) ∧
      (settles d → t = { s with cfg := { s.cfg with hitch := none }, regs := t.regs, mem := t.mem, bad := t.bad, draws := t.draws } ∧
        (t.reg .CFG_STATUS 0 0).bit 24 = false ∧ s.fieldOnly t .CFG_STATUS 0 0 24 24 ∧
        t.reg .CFG_MCAST_STATUS 0 0 = BitVec.ofNat 64 (h.devices.length * 2 ^ 56 + count 0 * 2 ^ 48 + count 1 * 2 ^ 40 + count 2 * 2 ^ 32
          + count 3 * 2 ^ 24) ∧
        s.regsBut t [regAddr .CFG_STATUS 0 0, regAddr .CFG_MCAST_STATUS 0 0] ∧
        ∀ i, i < h.devices.length →
          let a := s.fld .CFG_REPORT_ADDR 0 0 56 0 + 8 * i
          a + 8 ≤ hbmTop → a % 8 = 0 → s.hbmServed a = true →
            ∃ e, smFind got (h.devices.getD i 0) = some e ∧ t.rdWord a = reportWord e)
    let late := h.since + s.nocTimeout 0 true ≤ s.time
    (∀ (d : BitVec 16) (epoch : BitVec 32) (code : BitVec 16) (st : BitVec 2),
      (awaited d.toNat → ∃ t, exec (.cfgLoadReport d epoch code st) s = .next t ∧
        recorded d.toNat epoch.toNat code.toNat st.toNat t ∧ t.draws = s.draws) ∧
      (¬ awaited d.toNat → exec (.cfgLoadReport d epoch code st) s = .next s)) ∧
    (∀ d : BitVec 16,
      (awaited d.toNat → d.toNat ≠ s.devId → late → ∃ t epoch code, exec (.cfgReportTimeout d) s = .next t ∧
        recorded d.toNat epoch code 3 t ∧ t.draws = s.draws + 1) ∧
      (¬ awaited d.toNat ∨ ¬ late → exec (.cfgReportTimeout d) s = .next s))

/-- RELEASE of a region in stage 0 that is neither quarantined nor loading, on a configured device, commands its release; otherwise
it changes nothing. HOLD of a region past stage 0 returns it and its used paddocks to stage 0 with their initial storage, their
rings closed but for the partner, and what they were late by is counted; the words they had sent reach their receivers, and memory
outside their RAM stays. A commanded region whose wait A is over enters stage 1, and one in stage 1 whose wait B is over stage 2,
its owned paddocks with it, their tick 0 with open rings where they are bound to one. Before the wait is over nothing changes. A
release changes no other region, paddock or register; the bits an I/O cell presents in tick 0 are free. -/
def Obligations.RegionReleaseSteps : Prop :=
  ∀ (s : State) (r : BitVec 8), s.down = false →
    let x := s.region r.toNat
    let par := smGet (fun _ => RParam.dflt) s.cfg.live.rparams r.toNat
    let used := s.regionPdks r.toNat
    let owned := s.releasedPdks r.toNat
    let free := x.quarantined = false ∧ x.loading = false
    let moved (t : State) (y : RegionSt) (f : Nat → PdkSt) :=
      t = { s with cfg := { s.cfg with regions := t.cfg.regions }, pdks := t.pdks, draws := t.draws } ∧ t.region r.toNat = y ∧
      (∀ k, k ≠ r.toNat → t.region k = s.region k) ∧ (∀ p ∈ owned, t.pdk p = f p) ∧ ∀ p, p ∉ owned → t.pdk p = s.pdk p
    (s.fld .CFG_STATUS 0 0 31 29 ≠ 0 → x.stage = 0 → free →
      ∃ t, exec (.cfgRelease r) s = .next t ∧ moved t { x with command := true } s.pdk ∧ t.draws = s.draws) ∧
    (s.fld .CFG_STATUS 0 0 31 29 = 0 ∨ x.stage ≠ 0 ∨ ¬ free → exec (.cfgRelease r) s = .next s) ∧
    (x.stage ≠ 0 → ∃ t, exec (.cfgHold r) s = .next t ∧
      t = { s with cfg := { s.cfg with regions := t.cfg.regions }, pdks := t.pdks, regs := t.regs, mem := t.mem, bad := t.bad, svc := t.svc } ∧
      t.region r.toNat = { x with stage := 0, command := false } ∧ (∀ k, k ≠ r.toNat → t.region k = s.region k) ∧
      (∀ p ∈ used, t.pdk p = { PdkSt.idle0 with
        fa := (initFF s.cfg.frames p).1, fb := (initFF s.cfg.frames p).2, flight := (t.pdk p).flight
        inRing := { PdkRing.idle with partner := (s.pdk p).inRing.partner }
        outRing := { PdkRing.idle with partner := (s.pdk p).outRing.partner } }) ∧
      (∀ p, p ∉ used → t.pdk p = { s.pdk p with fifo := (t.pdk p).fifo }) ∧
      (∀ a, (∀ p ∈ used, a < pdkRamAddr p 0 ∨ pdkRamAddr p 0 + 4608 ≤ a) → t.rd a = s.rd a) ∧
      s.regsBut t (used.flatMap (fun p => [regAddr .PDK_STRETCH_NS p 0, regAddr .PDK_STOP_NS p 0, regAddr .PDK_CH_DROP_WORDS p 0,
        regAddr .PDK_EVENT p 0]))) ∧
    (x.stage = 0 → exec (.cfgHold r) s = .next s) ∧
    (x.stage = 0 → x.command = true → free → x.loadedAt + par.waitA ≤ s.time → ∃ t, exec (.releaseWaitAExpiry r) s = .next t ∧
      moved t { x with stage := 1, stageAt := s.time } (fun p => { s.pdk p with stage := 1 }) ∧ t.draws = s.draws) ∧
    (x.stage ≠ 0 ∨ x.command = false ∨ ¬ free ∨ s.time < x.loadedAt + par.waitA → exec (.releaseWaitAExpiry r) s = .next s) ∧
    (x.stage = 1 → x.stageAt + par.waitB ≤ s.time → owned ≠ [] → ∃ t, exec (.releaseWaitBExpiry r) s = .next t ∧
      moved t { x with stage := 2, stageAt := s.time } (fun p => { s.pdk p with
        stage := 2, tick := 0, lastEdge := s.time, userIn := (t.pdk p).userIn
        inRing := { PdkRing.idle with opened := pdkBind s.cfg.frames p false == 2, partner := (s.pdk p).inRing.partner }
        outRing := { PdkRing.idle with opened := pdkBind s.cfg.frames p true == 2, partner := (s.pdk p).outRing.partner } })) ∧
    (x.stage ≠ 1 ∨ s.time < x.stageAt + par.waitB → exec (.releaseWaitBExpiry r) s = .next s)

/-- A probe on a device that is not the lead reports E_CFG_ROLE; one while another runs does nothing. A lead without tree neighbours
answers for itself at once: its result registers count the device as MATCH, MISMATCH or LOADING, or not at all where its ID is
outside the range, SEQ grows and BUSY is 0. A lead with neighbours is BUSY until each has answered. An answer is added exactly; the
last one writes the results, and sets CFG_EVENT.INCONSISTENT if a device mismatches or is missing. A neighbour of the range that is
late counts as missing. The periodic probe runs on a lead when its period is over. -/
def Obligations.ConsistencyProbes : Prop :=
  (∀ (s : State) (v : Word), s.down = false →
    let first := s.fld .CFG_CONSIST_RANGE 0 0 15 0
    let last := s.fld .CFG_CONSIST_RANGE 0 0 31 16
    let idle := (s.reg .CFG_CONSIST_STATUS 0 0).bit 0 = false
    let same := v.bit 59 = true ∨ (s.fld .CFG_EPOCH 0 0 31 0 = s.fld .CFG_CONSIST_EPOCH 0 0 31 0 ∧ s.ownDigest = s.wantDigest)
    let inside := first ≤ s.devId ∧ s.devId ≤ last
    let a := if ¬ inside then 0 else if (s.reg .CFG_EPOCH 0 0).bit 32 = false then 1 else if same then 2 else 3
    (v.fld 63 62 ≠ 1 ∨ 2 ≤ v.fld 61 60 → exec (.consistProbe v) s = .next s) ∧
    (v.fld 63 62 = 1 → v.fld 61 60 < 2 → s.isLead = false → ∃ t, exec (.consistProbe v) s = .next t ∧ t = { s with regs := t.regs } ∧
      t.fld .CFG_CONSIST_STATUS 0 0 31 16 = E_CFG_ROLE ∧ s.fieldOnly t .CFG_CONSIST_STATUS 0 0 31 16 ∧
      s.regsBut t [regAddr .CFG_CONSIST_STATUS 0 0]) ∧
    (v.fld 63 62 = 1 → v.fld 61 60 < 2 → s.isLead = true → ¬ idle → exec (.consistProbe v) s = .next s) ∧
    (v.fld 63 62 = 1 → v.fld 61 60 = 0 → s.isLead = true → idle → s.cfg.probes = [] →
      (s.treeChildren = [] → ∃ t, exec (.consistProbe v) s = .next t ∧ t = { s with regs := t.regs, svc := t.svc } ∧
        t.fld .CFG_CONSIST_STATUS 0 0 63 48 = (s.fld .CFG_CONSIST_STATUS 0 0 63 48 + 1) % 2 ^ 16 ∧
        t.fld .CFG_CONSIST_STATUS 0 0 31 16 = 0 ∧ (t.reg .CFG_CONSIST_STATUS 0 0).bit 0 = false ∧
        t.fld .CFG_CONSIST_RESULT0 0 0 31 0 = b2n (a = 2) ∧ t.fld .CFG_CONSIST_RESULT0 0 0 63 32 = b2n (a = 3) ∧
        t.fld .CFG_CONSIST_RESULT1 0 0 31 0 = b2n (a = 1) ∧ t.fld .CFG_CONSIST_RESULT1 0 0 63 32 = 0 ∧
        (a = 3 → t.fld .CFG_CONSIST_RESULT2 0 0 15 0 = s.devId % 2 ^ 16 ∧ (t.reg .CFG_CONSIST_RESULT2 0 0).bit 32 = true ∧
          (t.reg .CFG_EVENT 0 0).bit 5 = true ∧ (t.reg .CFG_EVENT 0 0).bit 6 = true)) ∧
      (s.treeChildren ≠ [] → ∃ t p, exec (.consistProbe v) s = .next t ∧
        t = { s with regs := t.regs, svc := t.svc, rein := t.rein, sent := t.sent, cfg := { s.cfg with probes := [p] } } ∧
        p.led = true ∧ p.waiting = s.treeChildren ∧ p.sum = answerSum s.devId a ∧ p.first = first ∧ p.last = last ∧
        (t.reg .CFG_CONSIST_STATUS 0 0).bit 0 = true))) ∧
  (∀ s : State, s.down = false →
    let ms := s.fld .CFG_CONSIST_PERIOD 0 0 31 0
    let due := s.isLead = true ∧ ms ≠ 0 ∧ s.cfg.probeAt + ms * 1000000 ≤ s.time
    (¬ due → exec .consistPeriodExpiry s = .next s) ∧
    (due → (s.reg .CFG_CONSIST_STATUS 0 0).bit 0 = true → exec .consistPeriodExpiry s
      = .next { s with draws := s.draws + 1, cfg := { s.cfg with probeAt := s.time } }) ∧
    (due → (s.reg .CFG_CONSIST_STATUS 0 0).bit 0 = false → s.cfg.probes = [] → s.treeChildren ≠ [] →
      ∃ t p, exec .consistPeriodExpiry s = .next t ∧ t.cfg = { s.cfg with probes := [p], probeAt := s.time } ∧ p.led = true ∧
        (∀ d ∈ s.treeChildren, d ∈ p.waiting) ∧ (t.reg .CFG_CONSIST_STATUS 0 0).bit 0 = true ∧ t.draws = s.draws + 1)) ∧
  ∀ (s : State) (p : ProbeSt) (dev : BitVec 16), s.down = false → s.cfg.probes = [p] → p.led = true → p.waiting ≠ [] →
    (∀ matched mismatch loading missing fm fx,
      let a : ProbeSum := p.sum.plus {
        matched := matched.toNat, mismatch := mismatch.toNat, loading := loading.toNat, missing := missing.toNat
        firstMismatch := fm.map (fun (x : BitVec 16) => x.toNat), firstMissing := fx.map (fun (x : BitVec 16) => x.toNat) }
      let c : Instr := .consistProbeAnswer dev matched mismatch loading missing fm fx
      (dev.toNat ∉ p.waiting → exec c s = .next s) ∧
      (dev.toNat ∈ p.waiting → p.waiting.erase dev.toNat ≠ [] → exec c s
        = .next { s with cfg := { s.cfg with probes := [{ p with waiting := p.waiting.erase dev.toNat, sum := a }] } }) ∧
      (dev.toNat ∈ p.waiting → p.waiting.erase dev.toNat = [] → ∃ t, exec c s = .next t ∧
        t = { s with regs := t.regs, svc := t.svc, cfg := { s.cfg with probes := [] } } ∧
        (t.reg .CFG_CONSIST_STATUS 0 0).bit 0 = false ∧
        t.fld .CFG_CONSIST_RESULT0 0 0 31 0 = a.matched % 2 ^ 32 ∧ t.fld .CFG_CONSIST_RESULT0 0 0 63 32 = a.mismatch % 2 ^ 32 ∧
        t.fld .CFG_CONSIST_RESULT1 0 0 31 0 = a.loading % 2 ^ 32 ∧ t.fld .CFG_CONSIST_RESULT1 0 0 63 32 = a.missing % 2 ^ 32 ∧
        (a.mismatch ≠ 0 ∨ a.missing ≠ 0 → (t.reg .CFG_EVENT 0 0).bit 5 = true))) ∧
    (dev.toNat ∈ p.waiting → p.since + s.nocTimeout 0 true ≤ s.time → p.first ≤ dev.toNat → dev.toNat ≤ p.last →
      ∃ t, exec (.consistAnswerTimeout dev) s = .next t ∧ exec (.consistProbeAnswer dev 0 0 0 1 none (some dev)) s = .next t) ∧
    (dev.toNat ∉ p.waiting ∨ s.time < p.since + s.nocTimeout 0 true → exec (.consistAnswerTimeout dev) s = .next s)

/-- Training of a port that is DOWN or TRAINING ends in ALIGNING with its lanes, or fails, also where a TORUS port's frequencies
differ; a failed step leaves the port DOWN, the third in a row FAILED; a wheeler then reports a neighbour that every port toward it
has lost. Four good markers in a row with FEC lock take it from ALIGNING to INIT, where it sends its identity; a bad one, or one
whose LANE or SEQ disagree between the lanes, starts the count again with RNL_EVENT.ALIGN. Each marker gives the receiver its lanes
and starts its descramblers and pair numbers anew. In INIT the peer's identity is recorded: the peer the topology names brings the
port UP with fresh sequence numbers and credits, another one makes it MISWIRED. A FAILED port is tried again after 1 s. No other
port changes. -/
def Obligations.LinkTrainsUp : Prop :=
  ∀ (s : State) (i : Fin 16), s.down = false →
    let k := s.port i
    let fails (t : State) := t = { s with regs := t.regs, rein := { s.rein with ports := t.rein.ports }, svc := t.svc, sent := t.sent } ∧
      t.sent = (match if k.failures < 2 then t.lostBy i else none with | some p => [.mgmtDown p] | none => []) ++ s.sent ∧
      t.port i = { k with failures := k.failures + 1, failedAt := s.time, markers := 0, badMarkers := 0, fecLock := false } ∧
      (∀ x, x ≠ i.val → t.port x = s.port x) ∧ t.portState i = (if 3 ≤ k.failures + 1 then 7 else 1) ∧
      (3 ≤ k.failures + 1 → (t.reg .RNL_EVENT i 0).bit 1 = true) ∧ t.fld .RNL_PORT_STATUS i 0 19 16 = 0 ∧
      s.regsBut t [regAddr .RNL_PORT_STATUS i 0, regAddr .RNL_EVENT i 0]
    let goes (t : State) (p : PortSt) (state : Nat) := t = { s with regs := t.regs, rein := { s.rein with ports := t.rein.ports }, sent := t.sent } ∧
      t.sent = (if state = 4 then [.ident i s.devId (s.reg .RNL_PORT_CFG i 0) s.rein.numbered] else []) ++ s.sent ∧
      t.port i = p ∧ (∀ x, x ≠ i.val → t.port x = s.port x) ∧ t.portState i = state ∧ s.regsBut t [regAddr .RNL_PORT_STATUS i 0]
    (∀ (ok freq : Bool) (inv : BitVec 4),
      (s.portState i ≠ 1 → s.portState i ≠ 2 → exec (.reinTrainingComplete i ok freq inv) s = .next s) ∧
      (s.portState i = 1 ∨ s.portState i = 2 → (freq = true ∧ s.portRole i = 1) ∨ ok = false →
        ∃ t, exec (.reinTrainingComplete i ok freq inv) s = .next t ∧ fails t ∧
          (freq = true → s.portRole i = 1 → t.fld .RNL_PORT_STATUS i 0 6 4 = 5)) ∧
      (s.portState i = 1 ∨ s.portState i = 2 → ¬(freq = true ∧ s.portRole i = 1) → ok = true →
        ∃ t, exec (.reinTrainingComplete i ok freq inv) s = .next t ∧ goes t { k with
            markers := 0, badMarkers := 0, fecLock := false, tx := LineTx.start, rx := LineRx.start } 3 ∧
          t.fld .RNL_PORT_STATUS i 0 19 16 = 15 ∧ t.fld .RNL_PORT_STATUS i 0 15 12 = inv.toNat)) ∧
    (∀ (fields : List (BitVec 32)) (good fec ber : Bool), s.portState i = 3 →
      let l := fields.map (·.toNat)
      (good = true → fieldsAgree l = true → ∃ t, exec (.alignMarkerReceive i fields good fec ber) s = .next t ∧
        goes t { k with rx := k.rx.atMarker s.time l, markers := k.markers + 1, badMarkers := 0, fecLock := k.fecLock || fec }
          (if 4 ≤ k.markers + 1 ∧ (k.fecLock = true ∨ fec = true) then 4 else 3)) ∧
      (good = false ∨ fieldsAgree l = false → ∃ t, exec (.alignMarkerReceive i fields good fec ber) s = .next t ∧ t.portState i = 3 ∧
        t.port i = { k with rx := k.rx.atMarker s.time l, markers := 0 } ∧
        (t.reg .RNL_EVENT i 0).bit 2 = true ∧ s.regsBut t [regAddr .RNL_EVENT i 0])) ∧
    (∀ (dev : BitVec 16) (pp : BitVec 4) (cfg : Word) (numbered : Bool),
      (s.portState i ≠ 4 → exec (.reinInitIdent i dev pp cfg numbered) s = .next s) ∧
      (s.portState i = 4 → k.txq = [] → ∃ t, exec (.reinInitIdent i dev pp cfg numbered) s = .next t ∧
        t = { s with regs := t.regs, rein := { s.rein with ports := t.rein.ports }, svc := t.svc } ∧
        t.reg .RNL_PEER i 0 = BitVec.ofNat 64 (2 ^ 31 + pp.toNat * 2 ^ 20 + dev.toNat) ∧ (∀ x, x ≠ i.val → t.port x = s.port x) ∧
        s.regsBut t [regAddr .RNL_PORT_STATUS i 0, regAddr .RNL_EVENT i 0, regAddr .RNL_PEER i 0] ∧
        (s.peerOk i dev.toNat cfg numbered = true → t.portState i = 5 ∧ (t.reg .RNL_EVENT i 0).bit 0 = true ∧
          t.port i = { k with failures := 0, badMarkers := 0, rxSeq := 4095, nakSent := false, txSeq := 0, retry := [], credits := [],
                              partPkt := [], drain := false, owed := [], tx := { k.tx with wait := [], nakOut := false } }) ∧
        (s.peerOk i dev.toNat cfg numbered = false → t.portState i = 6 ∧ (t.reg .RNL_EVENT i 0).bit 3 = true ∧ t.port i = k))) ∧
    (s.portState i = 7 → k.failedAt + 1000000000 ≤ s.time →
      ∃ t, exec (.reinFailedRetry i) s = .next t ∧ goes t { k with failures := 0 } 1) ∧
    (s.portState i ≠ 7 ∨ s.time < k.failedAt + 1000000000 → exec (.reinFailedRetry i) s = .next s)

/-- A loss of cause 1, 2 or 5 takes a port from UP to DOWN with that CAUSE, counted, with RNL_EVENT.STATE and empty buffers, and a
wheeler reports to its lead the position that every port toward it has now lost to SIGNAL or MARKERS; a port in training fails a
step, a TORUS port for its frequency with CAUSE FREQ, a MISWIRED one goes DOWN, and any other is unchanged. The second bad marker in
a row takes it to ALIGNING. A write of RNL_PORT_CFG starts the link anew: DOWN where EN is 1 and the role is not OFF, else OFF, and
from UP with CAUSE CONFIG. With LANE_RETRAIN, BER_HIGH and a partner UP, a port is drained; a drained one with nothing to send or
confirm leaves UP for TRAINING. An ACK timeout resends every unacknowledged flit, counted, and past the limit takes the link DOWN.
-/
def Obligations.LinkLeavesUp : Prop :=
  ∀ (s : State) (i : Fin 16), s.down = false →
    let k := s.port i
    let quiet := k.retry = [] ∧ k.txq = []
    let count (t : State) (n : Nat) := t.fld .RNL_CNT i n 47 0
    let left (t : State) (cause state : Nat) := t.portState i = state ∧ t.fld .RNL_PORT_STATUS i 0 6 4 = cause ∧
      count t 7 = (count s 7 + 1) % 2 ^ 48 ∧ (t.reg .RNL_EVENT i 0).bit 0 = true ∧
      t.port i = { k with retry := [], txq := [], partPkt := [], markers := 0, badMarkers := 0, fecLock := false, drain := false,
                          nakSent := false, eyeRun := false, owed := [], tx := LineTx.start, rx := LineRx.start } ∧ (∀ x, x ≠ i.val → t.port x = s.port x) ∧
      t = { s with regs := t.regs, rein := { s.rein with ports := t.rein.ports }, svc := t.svc, sent := t.sent } ∧
      t.sent = (match if cause = 4 then none else t.lostBy i with | some p => [.mgmtDown p] | none => []) ++ s.sent ∧
      s.regsBut t [regAddr .RNL_PORT_STATUS i 0, regAddr .RNL_EVENT i 0, regAddr .RNL_CNT i 7]
    (∀ c : BitVec 3, c = 1 ∨ c = 2 ∨ c = 5 →
      (s.portState i = 5 → quiet → ∃ t, exec (.reinLinkDown i c) s = .next t ∧ left t c.toNat 1) ∧
      (s.portState i = 2 ∨ s.portState i = 3 ∨ s.portState i = 4 → ∃ t, exec (.reinLinkDown i c) s = .next t ∧
        (t.port i).failures = k.failures + 1 ∧ t.portState i = (if 3 ≤ k.failures + 1 then 7 else 1) ∧
        (c = 5 → s.portRole i = 1 → t.fld .RNL_PORT_STATUS i 0 6 4 = 5) ∧
        s.regsBut t [regAddr .RNL_PORT_STATUS i 0, regAddr .RNL_EVENT i 0]) ∧
      (s.portState i = 6 → ∃ t, exec (.reinLinkDown i c) s = .next t ∧ t = { s with regs := t.regs } ∧ t.portState i = 1 ∧
        t.fld .RNL_PORT_STATUS i 0 19 16 = 0 ∧ t.fld .RNL_PORT_STATUS i 0 15 4 = s.fld .RNL_PORT_STATUS i 0 15 4 ∧ s.regsBut t [regAddr .RNL_PORT_STATUS i 0]) ∧
      (s.portState i = 0 ∨ s.portState i = 1 ∨ s.portState i = 7 → exec (.reinLinkDown i c) s = .next s)) ∧
    (s.portState i = 5 → k.badMarkers ≠ 0 → quiet → ∀ (fields : List (BitVec 32)) (good fec : Bool),
      good = false ∨ fieldsAgree (fields.map (·.toNat)) = false →
      ∃ t, exec (.alignMarkerReceive i fields good fec false) s = .next t ∧ t.portState i = 3 ∧ t.fld .RNL_PORT_STATUS i 0 6 4 = 2 ∧
        count t 7 = (count s 7 + 1) % 2 ^ 48 ∧ (t.reg .RNL_EVENT i 0).bit 2 = true) ∧
    (∀ v : Word, quiet → ∃ t, exec (.rnlPortCfgWrite i v) s = .next t ∧
      t = { s with regs := t.regs, rein := { s.rein with ports := t.rein.ports }, svc := t.svc } ∧
      t.reg .RNL_PORT_CFG i 0 = regWritten .RNL_PORT_CFG (s.reg .RNL_PORT_CFG i 0) v ∧
      t.portState i = (if (t.reg .RNL_PORT_CFG i 0).bit 63 = true ∧ t.portRole i ≠ 0 then 1 else 0) ∧ (t.port i).failures = 0 ∧
      (∀ x, x ≠ i.val → t.port x = s.port x) ∧
      (s.portState i = 5 → t.fld .RNL_PORT_STATUS i 0 6 4 = 4 ∧ count t 7 = (count s 7 + 1) % 2 ^ 48 ∧
        (t.reg .RNL_EVENT i 0).bit 0 = true) ∧
      (s.portState i ≠ 5 → s.regsBut t [regAddr .RNL_PORT_CFG i 0, regAddr .RNL_PORT_STATUS i 0])) ∧
    (let retrain := s.feature 6 = true ∧ s.ready = true ∧ s.portState i = 5 ∧ s.portRole i = 1 ∧ (s.reg .RNL_EVENT i 0).bit 5 = true ∧
        s.partnerUp i = true
     (retrain → ∃ t, exec (.laneRetrain i) s = .next t ∧ t = { s with rein := { s.rein with ports := t.rein.ports } } ∧
       t.port i = { k with drain := true } ∧ ∀ x, x ≠ i.val → t.port x = s.port x) ∧
     (¬ retrain → exec (.laneRetrain i) s = .next s)) ∧
    (k.drain = true → s.portState i = 5 → quiet → ∃ t, exec (.laneRetrainDrained i) s = .next t ∧ left t 4 2) ∧
    (k.drain = false ∨ s.portState i ≠ 5 ∨ ¬ quiet → exec (.laneRetrainDrained i) s = .next s) ∧
    (let due := s.portState i = 5 ∧ k.retry ≠ [] ∧ k.ackAt + s.fld .RNL_RETRY i 0 31 0 ≤ s.time
     let past := ∃ f ∈ k.retry, s.fld .RNL_RETRY i 0 39 32 < f.tries + 1
     (¬ due → exec (.reinRetryTimeout i) s = .next s) ∧
     (due → ¬ past → ∃ t, exec (.reinRetryTimeout i) s = .next t ∧
       t = { s with regs := t.regs, rein := { s.rein with ports := t.rein.ports }, svc := t.svc } ∧
       t.port i = { k with retry := k.retry.map (fun f => { f with tries := f.tries + 1 }), ackAt := s.time
                           tx := { k.tx with wait := k.retry.map (·.seq) } } ∧
       (∀ x, x ≠ i.val → t.port x = s.port x) ∧ count t 5 = (count s 5 + 1) % 2 ^ 48 ∧
       count t 0 = (count s 0 + k.retry.length) % 2 ^ 48 ∧
       ((∃ f ∈ k.retry, 1 ≤ f.tries) → (t.reg .RNL_EVENT i 0).bit 5 = true) ∧
       s.regsBut t [regAddr .RNL_EVENT i 0, regAddr .RNL_CNT i 5, regAddr .RNL_CNT i 0]) ∧
     (due → past → ∃ t, exec (.reinRetryTimeout i) s = .next t ∧ t.portState i = 1 ∧ t.fld .RNL_PORT_STATUS i 0 6 4 = 3 ∧
       (t.port i).retry = [] ∧ (t.port i).txq = []))

/-- On a port that is UP, a flit whose CRC or length is wrong is counted and refused with a NAK. A good DATA flit, whose ACK and
credits bring nothing new, is taken where its SEQ is the next one: it is counted, SEQ moves on and a READ that it completes for this
device is served, and its credits are owed to the peer, while one that waits at another port keeps them; where its SEQ is another it
is refused. Bytes of a packet that is not whole wait. A port that is not UP takes no flit. The slots of a codeword pair, on a port
that is aligned or further, count the symbols corrected and the codewords lost, and their flits are received in turn; a pair out of
sequence sets RNL_EVENT.ALIGN and its flits are discarded. START begins an eye scan on a link that is UP, and the scan's end reports
its errors with DONE. Nothing else changes. -/
def Obligations.FlitsAndEyeScans : Prop :=
  ∀ (s : State) (i : Fin 16), s.down = false →
    let k := s.port i
    let upd (t : State) (p : PortSt) := t = { s with regs := t.regs, rein := { s.rein with ports := t.rein.ports } } ∧ t.port i = p ∧
      ∀ x, x ≠ i.val → t.port x = s.port x
    (∀ flit : List Byte,
      let h := wordAt flit 0
      let sound := flit.length = 256 ∧ crc32 (flit.take 252) = leNat (flit.drop 252)
      let data := bitsOf h 63 60 = 1 ∧ bitsOf h 7 0 = 0 ∧ 18 ≤ bitsOf h 34 30 ∧ bitAt h 35 = false ∧ k.retry = [] ∧ k.txq = []
      let next := bitsOf h 59 48 = (k.rxSeq + 1) % 4096
      let got := parsePkts 64 (k.partPkt ++ (flit.drop 8).take 244)
      let taken (t : State) (owed : SMap Nat) := upd t { k with
          rxSeq := bitsOf h 59 48, nakSent := false, partPkt := got.2, tx := { k.tx with nakOut := false }, owed := owed } ∧
        t.fld .RNL_CNT i 1 47 0 = (s.fld .RNL_CNT i 1 47 0 + 1) % 2 ^ 48 ∧ s.regsBut t [regAddr .RNL_CNT i 1]
      (s.portState i ≠ 5 → exec (.reinFlitReceive i (.flit flit)) s = .next s) ∧
      (s.portState i = 5 → ¬ sound → ∃ t, exec (.reinFlitReceive i (.flit flit)) s = .next t ∧ upd t { k with nakSent := true } ∧
        t.fld .RNL_CNT i 4 47 0 = (s.fld .RNL_CNT i 4 47 0 + 1) % 2 ^ 48 ∧ s.regsBut t [regAddr .RNL_CNT i 4]) ∧
      (s.portState i = 5 → sound → data → ¬ next → ∃ t, exec (.reinFlitReceive i (.flit flit)) s = .next t ∧ upd t { k with nakSent := true } ∧
        t.regs = s.regs) ∧
      (s.portState i = 5 → sound → data → next → got.1 = [] → ∃ t, exec (.reinFlitReceive i (.flit flit)) s = .next t ∧ taken t k.owed) ∧
      (s.portState i = 5 → sound → data → next → ∀ p, got.1 = [p] → p.typ = T_READ →
        (∃ u, taken u (smSet (fun _ => 0) k.owed p.pkt.vc.toNat (smGet (fun _ => 0) k.owed p.pkt.vc.toNat + cdiv (pktBytes p) 16)) ∧
          (pktBad p = true ∨ (∀ j g b, u.hopOf i p ≠ .out j g b) →
            exec (.reinFlitReceive i (.flit flit)) s = exec (.reinRead i p.pkt) u)) ∧
        (∃ u, taken u k.owed ∧ ∀ j g b, pktBad p = false → u.hopOf i p = .out j g b → g ≤ 3 → j ≠ i → (u.port j).txq = [] →
          let q : TypedPkt := { typ := T_READ, pkt := { p.pkt with ghops := BitVec.ofNat 2 g, vc := BitVec.ofNat 5 (vcOf 0 g b) }
                                via := some (i.val, p.pkt.vc.toNat) }
          (u.port j).credit q.pkt.vc.toNat < cdiv (pktBytes q) 16 →
          ∃ t, exec (.reinFlitReceive i (.flit flit)) s = .next t ∧ (t.port j).txq = [q] ∧ (t.port i).owed = k.owed ∧
            t.regs = u.regs ∧ t.sent = s.sent))) ∧
    (∀ slots : List Byte,
      let r := k.rx.takePair (s.fld .RNL_PORT_STATUS i 0 15 12) (slots.map slotLevels)
      (s.portState i < 3 ∨ 5 < s.portState i → exec (.reinFlitReceive i (.pair slots)) s = .next s) ∧
      (3 ≤ s.portState i → s.portState i ≤ 5 → ∃ u, upd u { k with rx := r.2 } ∧
        u.fld .RNL_CNT i 2 47 0 = (s.fld .RNL_CNT i 2 47 0 + r.1.corrected) % 2 ^ 48 ∧
        u.fld .RNL_CNT i 3 47 0 = (s.fld .RNL_CNT i 3 47 0 + r.1.lost) % 2 ^ 48 ∧ s.regsBut u [regAddr .RNL_CNT i 2, regAddr .RNL_CNT i 3] ∧
        (r.1.pair = none ∨ r.1.pair = some k.rx.pair →
          exec (.reinFlitReceive i (.pair slots)) s = runFlits i (r.1.flits.filterMap id) u) ∧
        (∀ n, r.1.pair = some n → n ≠ k.rx.pair → ∃ t, exec (.reinFlitReceive i (.pair slots)) s = .next t ∧
          (t.reg .RNL_EVENT i 0).bit 2 = true ∧ t.port i = { k with rx := r.2, nakSent := true }))) ∧
    (∀ v : Word, ∃ t, exec (.eyeScanStart i v) s = .next t ∧
      t.reg .RNL_EYE_CTL i 0 = regWritten .RNL_EYE_CTL (s.reg .RNL_EYE_CTL i 0) v ∧
      s.regsBut t [regAddr .RNL_EYE_CTL i 0, regAddr .RNL_EYE_RESULT i 0] ∧
      (v.bit 63 = true → s.portState i = 5 → upd t { k with eyeRun := true } ∧ t.reg .RNL_EYE_RESULT i 0 = 0) ∧
      (v.bit 63 = false ∨ s.portState i ≠ 5 → t = { s with regs := t.regs } ∧ t.reg .RNL_EYE_RESULT i 0 = s.reg .RNL_EYE_RESULT i 0)) ∧
    ∀ e : BitVec 48,
      (k.eyeRun = true → s.portState i = 5 → ∃ t, exec (.eyeScanDone i e) s = .next t ∧ upd t { k with eyeRun := false } ∧
        t.reg .RNL_EYE_RESULT i 0 = BitVec.ofNat 64 (2 ^ 63 + e.toNat) ∧ s.regsBut t [regAddr .RNL_EYE_RESULT i 0]) ∧
      (k.eyeRun = false ∨ s.portState i ≠ 5 → exec (.eyeScanDone i e) s = .next s)

/-- A READ, WRITE or TETHER_OP on a REQ channel that is addressed to this device, in a corral that exists, is served and answered
over the port that leads to its sender, its corral, tag, generation and place with it: READ with the bytes at its address, WRITE
with an acknowledgement once the bytes are stored, each once its units stand at their controllers, and a tether operation with the
value before it, where SIGNAL stores its operand, ADD and FETCH_ADD add it, and COMPARE_SWAP replaces an equal value. A tether the
corral does not own is answered with E_CORRAL_ACCESS, a corral that does not exist with E_REMOTE_CORRAL, and an access that fails
with its error. -/
def Obligations.RemoteRequestsServed : Prop :=
  ∀ (s : State) (i : Fin 16) (p : ReinPkt) (j g b : Nat), s.down = false → s.portState i = 5 → p.vc.toNat < 8 → p.len.toNat ≤ 512 →
    p.dst.toNat = s.devId → p.src.toNat ≠ s.devId → s.nextHop s.devId p.src.toNat 0 0 none = .out j g b →
    let answer (u : State) (typ code : Nat) (payload : List Byte) : State := u.queuePkt j { typ := typ, pkt := {
      dst := p.src, src := BitVec.ofNat 16 s.devId, vc := BitVec.ofNat 5 (vcOf 1 g b), ghops := BitVec.ofNat 2 g
      len := BitVec.ofNat 11 payload.length, corral := p.corral, tag := p.tag, gen := p.gen, srcIndex := p.srcIndex
      srcRouter := p.srcRouter, code := BitVec.ofNat 16 code, addr := p.addr, payload := payload } }
    let error (code : Nat) : State := answer s T_ERROR code []
    let c := p.corral.toNat
    let va := p.addr.fld 56 0
    (s.corral c = none →
      exec (.reinRead i p) s = .next (error E_REMOTE_CORRAL) ∧ exec (.reinWrite i p) s = .next (error E_REMOTE_CORRAL) ∧
      exec (.remoteTetherSignal i p) s = .next (error E_REMOTE_CORRAL) ∧ exec (.remoteTetherAdd i p) s = .next (error E_REMOTE_CORRAL) ∧
      exec (.remoteTetherFetchAdd i p) s = .next (error E_REMOTE_CORRAL) ∧
      exec (.remoteTetherCompareSwap i p) s = .next (error E_REMOTE_CORRAL)) ∧
    (s.corral c ≠ none →
      (s.rangeErr c false va p.len.toNat = none →
        exec (.reinRead i p) s = .next (answer (s.portAccess .reinPort c false va p.len.toNat) T_READ_DATA 0 (s.vaBytes c va p.len.toNat))) ∧
      (s.rangeErr c true va p.payload.length = none →
        exec (.reinWrite i p) s
          = .next (answer ((s.vaWrite c va p.payload).portAccess .reinPort c true va p.payload.length) T_WRITE_ACK 0 [])) ∧
      (let n := p.addr.toNat
       let x := BitVec.ofNat 64 (wordAt p.payload 0)
       let y := BitVec.ofNat 64 (wordAt p.payload 8)
       let reply (u : State) : State := answer u T_TETHER_RSP 0 (leBytes 8 (s.tether n).toNat)
       (32768 ≤ n ∨ s.owns c .tether n = false →
         exec (.remoteTetherSignal i p) s = .next (error E_CORRAL_ACCESS) ∧ exec (.remoteTetherAdd i p) s = .next (error E_CORRAL_ACCESS) ∧
         exec (.remoteTetherFetchAdd i p) s = .next (error E_CORRAL_ACCESS) ∧
         exec (.remoteTetherCompareSwap i p) s = .next (error E_CORRAL_ACCESS)) ∧
       (n < 32768 → s.owns c .tether n = true →
         exec (.remoteTetherSignal i p) s = .next (reply (s.setTether n x)) ∧
         exec (.remoteTetherAdd i p) s = .next (reply (s.setTether n (s.tether n + x))) ∧
         exec (.remoteTetherFetchAdd i p) s = .next (reply (s.setTether n (s.tether n + x))) ∧
         exec (.remoteTetherCompareSwap i p) s
           = .next (reply (if s.tether n = x ∧ y ≠ s.tether n then s.setTether n y else s)))))

/-- A response on an RSP channel addressed to this device, whose tag is in use with its generation, ends that request. READ_DATA of
a READ stands in the transfer at the request's place; the position of its stream moves on to the end of what is complete, and
WRITE_ACK and TETHER_RSP change nothing more. ERROR fails the command with its code, DETAIL naming the device for the codes that
name one; of a failed translation the stream keeps the place while other reads are outstanding; a code that is a corral fault begins
the corral's discard. A response to no request is counted late with NOC_EVENT.LATE and changes no command. -/
def Obligations.ResponsesArrive : Prop :=
  ∀ (s : State) (i : Fin 16) (p : ReinPkt), s.down = false → s.portState i = 5 → 8 ≤ p.vc.toNat → p.vc.toNat < 16 →
    p.len.toNat ≤ 512 → p.dst.toNat = s.devId →
    let die := routerDie p.srcRouter.toNat % 4
    let key := die * 65536 + p.tag.toNat
    let waits := ∃ r, s.tracked die p.tag.toNat = some r ∧ r.gen = p.gen.toNat ∧ r.remote.isSome = true
    (¬ waits → ∀ c : Instr, c = .reinReadData i p ∨ c = .reinWriteAck i p ∨ c = .tetherRsp i p ∨ c = .reinError i p →
      ∃ t, exec c s = .next t ∧ t = { s with noc := { s.noc with held := t.noc.held }, regs := t.regs, svc := t.svc } ∧
        t.fld .NOC_CNT die 2 47 0 = (s.fld .NOC_CNT die 2 47 0 + 1) % 2 ^ 48 ∧ (t.reg .NOC_EVENT die 0).bit 3 = true ∧
        s.regsBut t [regAddr .NOC_CNT die 2, regAddr .NOC_EVENT die 0]) ∧
    ∀ (r : TrackedReq) (k : Cmd), s.tracked die p.tag.toNat = some r → r.gen = p.gen.toNat → r.remote.isSome = true →
      s.cmd r.queue r.seq = some k → k.queue = r.queue → k.seq = r.seq → k.corral = r.corral → k.phase = .running →
      (s.ctx r.ctx).rfault = none →
      let x := s.ctx r.ctx
      let ended (t : State) := ∀ n, smGet (fun _ => none) t.noc.reqs n = if n = key then none else smGet (fun _ => none) s.noc.reqs n
      let settled (t : State) (y : StreamCtx) := (∀ n, n ≠ r.ctx → t.ctx n = s.ctx n) ∧
        let done := t.completed r.queue r.seq r.ctx
        t.ctx r.ctx = (if r.kind ≠ 0 ∧ y.pos < done then
          { y with pos := done, phase := if y.phase = .waiting then .active else y.phase, advanced := s.time } else y)
      let plain (t : State) (y : StreamCtx) := ended t ∧ settled t y ∧
        t = { s with noc := { s.noc with reqs := t.noc.reqs }, ctxs := t.ctxs }
      (∃ t, exec (.reinWriteAck i p) s = .next t ∧ plain t x) ∧ (∃ t, exec (.tetherRsp i p) s = .next t ∧ plain t x) ∧
      (∃ t, exec (.reinReadData i p) s = .next t ∧
        plain t (if r.kind = T_READ then { x with got := patchBytes x.got r.dest (p.payload.take r.len) } else x)) ∧
      (p.code.toNat = E_XLATE_FAULT → ∃ t, exec (.reinError i p) s = .next t ∧ ended t ∧
        (t.outstanding r.queue r.seq r.ctx T_READ ≠ [] → t.cmds = s.cmds ∧
          (t.ctx r.ctx).rfault = some { pos := r.dest, va := r.addr, dev := r.remote.getD 0, write := r.kind == T_WRITE })) ∧
      (p.code.toNat ≠ E_XLATE_FAULT → isCorralFault p.code.toNat = false → ∃ t, exec (.reinError i p) s = .next t ∧ ended t ∧ settled t x ∧
        (∃ k2, t.cmd r.queue r.seq = some k2 ∧
          k2.phase = .failing p.code.toNat (if namesDevice p.code.toNat then r.remote.getD 0 else 0) (streamStage k r.ctx)) ∧
        t = { s with noc := { s.noc with reqs := t.noc.reqs }, cmds := t.cmds, ctxs := t.ctxs } ∧
        ∀ q n, ¬(q = r.queue ∧ n = r.seq) → t.cmd q n = s.cmd q n) ∧
      (isCorralFault p.code.toNat = true → ∃ t, exec (.reinError i p) s = .next t ∧ ended t ∧ t.discard k.corral ≠ none)

/-- On a device that is not held, TREE, TIME, ENUM and RELAY complete whatever they carry and leave the fuses, the power domain, the
test port and the commands that wait as they were, and all but TIME the timebase: on a port that is not UP they change nothing, and
a packet on another class's VC is discarded and counted. A lead that enumerates takes position 0 and the sizes of its hitch, 1 by 1
by 1 where no torus port is UP; another device does nothing. A device without a number takes its hitch, its sizes and the position
one step from the sender; an ENUM at the lead or with another place for a numbered device is a conflict and the port MISWIRED. A
TREE contribution at offset 0 opens with its header and one at the offset it has reached extends it. A TIME exchange with the parent
gives the delay and offset; before the first lock, with nothing running, the timebase steps by the offset and locks; later an offset
above 1 µs loses the lock; one with another device changes nothing. A relayed frame is counted and handled as the host port's. -/
def Obligations.TreeTimeEnumRelay : Prop :=
  (∀ (s : State) (i : Fin 16) (p : ReinPkt) (f : EthFrame) (t2 t3 : BitVec 64), s.down = false →
    let kept (t : State) := t.pending = s.pending ∧ t.fuse = s.fuse ∧ t.pwr = s.pwr ∧ t.tap = s.tap
    let discarded := (s.bump .RNL_CNT i 8 1).raise0 .rnl i 4
    (∃ t, exec (.reinTree i p) s = .next t ∧ kept t ∧ t.time = s.time) ∧ (∃ t, exec (.reinTime i p t2 t3) s = .next t ∧ kept t) ∧
    (∃ t, exec (.reinEnum i p) s = .next t ∧ kept t ∧ t.time = s.time) ∧
    (∃ t, exec (.reinRelay i p f) s = .next t ∧ kept t ∧ t.time = s.time) ∧
    (s.portState i ≠ 5 → exec (.reinTree i p) s = .next s ∧ exec (.reinTime i p t2 t3) s = .next s ∧ exec (.reinEnum i p) s = .next s ∧
      exec (.reinRelay i p f) s = .next s) ∧
    (s.portState i = 5 → (p.vc.toNat ≠ 16 → exec (.reinTree i p) s = .next discarded) ∧
      (p.vc.toNat ≠ 17 → exec (.reinTime i p t2 t3) s = .next discarded ∧ exec (.reinEnum i p) s = .next discarded ∧
        exec (.reinRelay i p f) s = .next discarded))) ∧
  (∀ (s : State) (dims : BitVec 9), s.down = false →
    (s.isLead = false → exec (.enumerationStart dims) s = .next s) ∧
    (s.isLead = true → ∃ t, exec (.enumerationStart dims) s = .next t ∧
      t.time = s.time ∧ t.pending = s.pending ∧ t.fuse = s.fuse ∧ t.pwr = s.pwr ∧ t.tap = s.tap ∧
      (s.hotPlug = false ∨ s.noc.reqs = [] → t.rein.numbered = true ∧
        t.fld .RNL_IDENT 0 0 53 48 = 0 ∧ t.fld .RNL_IDENT 0 0 63 54 = s.fld .RNL_IDENT 0 0 63 54 ∧
        t.fld .RNL_IDENT 0 0 47 39 = (if s.upTorus = [] then 73 else dims.toNat)) ∧
      (s.hotPlug = false → s.upTorus = [] →
        t = { s with regs := t.regs, rein := { s.rein with numbered := true } } ∧ s.regsBut t [regAddr .RNL_IDENT 0 0]))) ∧
  (∀ (s : State) (i : Fin 16) (p : ReinPkt), s.down = false → s.portState i = 5 → p.len.toNat ≤ 512 →
    (p.vc.toNat = 17 → p.code.toNat = 1 →
      let dim := s.portDim i
      let size := match dim with | 0 => p.addr.fld 47 45 | 1 => p.addr.fld 44 42 | _ => p.addr.fld 41 39
      let from_ := p.addr.fld 53 48
      let c := (coordOf from_ dim + (if s.portDir i = 1 then 1 else size - 1)) % max 1 size
      let pos := from_ - coordOf from_ dim * 4 ^ dim + c * 4 ^ dim
      let conflict := s.isLead = true ∨ s.portRole i ≠ 1 ∨ (s.rein.numbered = true ∧ (pos ≠ s.ownPos ∨ p.addr.fld 63 54 ≠ s.ownHitch))
      (conflict → (s.port i).retry = [] → (s.port i).txq = [] → ∃ t, exec (.reinEnum i p) s = .next t ∧
        t = { s with regs := t.regs, svc := t.svc, rein := { s.rein with ports := t.rein.ports } } ∧ t.portState i = 6 ∧
        (t.reg .RNL_EVENT i 0).bit 6 = true ∧ (t.reg .RNL_EVENT i 0).bit 0 = true ∧
        t.fld .RNL_CNT i 7 47 0 = (s.fld .RNL_CNT i 7 47 0 + 1) % 2 ^ 48 ∧ (∀ x, x ≠ i.val → t.port x = s.port x) ∧
        s.regsBut t [regAddr .RNL_EVENT i 0, regAddr .RNL_PORT_STATUS i 0, regAddr .RNL_CNT i 7]) ∧
      (¬ conflict → s.rein.numbered = true → (∀ j ∈ s.upTorus, s.posAbsent (s.neighbour (s.portDim j) (s.portDir j)) = false) →
        exec (.reinEnum i p) s = .next s) ∧
      (¬ conflict → s.rein.numbered = false → pos < 64 → ∃ t, exec (.reinEnum i p) s = .next t ∧ t.rein.numbered = true ∧
        t.fld .RNL_IDENT 0 0 63 54 = p.addr.fld 63 54 ∧ t.fld .RNL_IDENT 0 0 53 48 = pos ∧
        t.fld .RNL_IDENT 0 0 47 39 = p.addr.fld 47 39 ∧ t.svc = { s.svc with pollSeen := s.time })) ∧
    (p.vc.toNat = 16 → p.code.toNat = 1 → p.dst.toNat = s.devId → p.addr = 0 →
      ∃ t k, exec (.reinTree i p) s = .next t ∧ t = { s with rein := { s.rein with contribs := s.rein.contribs ++ [k] } } ∧
        k.dev = p.src.toNat ∧ k.corral = p.corral.toNat ∧ k.header = bytesWords 4 p.payload ∧ k.bytes = p.payload.drop 32) ∧
    (p.vc.toNat = 16 → p.code.toNat = 1 → p.dst.toNat = s.devId → ∀ k, s.rein.contribs = [k] → k.dev = p.src.toNat → k.corral = p.corral.toNat →
      p.addr.toNat = k.bytes.length → 0 < k.bytes.length → k.bytes.length < k.need →
      exec (.reinTree i p) s = .next { s with rein := { s.rein with contribs := [{ k with bytes := k.bytes ++ p.payload }] } }) ∧
    (p.vc.toNat = 17 → p.dst.toNat = s.devId → ∀ (t2 t3 : BitVec 64),
      (s.timeParent ≠ some p.src.toNat ∨ s.svc.leadLost = true → exec (.reinTime i p t2 t3) s = .next s) ∧
      (s.timeParent = some p.src.toNat → s.svc.leadLost = false →
      let t1 : Int := wordAt p.payload 0 * 64 + wordAt p.payload 8 % 64
      let trim := ((s.reg .RNL_DELAY i 0).extractLsb' 48 16).toInt
      let delay : Int := ((t2.toNat - t1) + (p.addr.toNat - t3.toNat)) / 2 - trim
      let off : Int := ((t2.toNat - t1) - (p.addr.toNat - t3.toNat)) / 2
      let parent := bitAt (wordAt p.payload 24) 0 = true ∨ p.src.toNat = s.fld .RNL_STRING 0 0 63 54 * 64
      ∃ t, exec (.reinTime i p t2 t3) s = .next t ∧ t.fld .RNL_DELAY i 0 31 0 = (delay % 2 ^ 32).toNat ∧
        t.fld .RNL_TIME_STATUS 0 0 31 0 = (off % 2 ^ 32).toNat ∧
        t = { s with regs := t.regs, svc := t.svc, time := t.time, rein := { s.rein with locked := t.rein.locked } } ∧
        (s.rein.locked = false → parent → s.mayStep = true →
          t.time = (s.time - off / 64).toNat ∧ t.rein.locked = true ∧ (t.reg .RNL_TIME_STATUS 0 0).bit 63 = true) ∧
        (s.rein.locked = false → parent → s.mayStep = false → t.time = s.time ∧ t.rein.locked = decide (off.natAbs ≤ 64000)) ∧
        (s.rein.locked = false → ¬ parent → t.time = s.time ∧ t.rein.locked = false) ∧
        (s.rein.locked = true → t.time = s.time ∧ t.rein.locked = true ∧
          (t.reg .RNL_TIME_STATUS 0 0).bit 63 = decide (off.natAbs ≤ 64000) ∧
          (64000 < off.natAbs → (s.reg .RNL_TIME_STATUS 0 0).bit 63 = true → ∀ j, j < 16 → (t.reg .RNL_EVENT j 0).bit 7 = true))))) ∧
  (∀ (s : State) (i : Fin 16) (p : ReinPkt) (f : EthFrame), s.down = false → s.portState i = 5 → 1 ≤ p.len.toNat → p.len.toNat ≤ 545 →
    p.vc.toNat = 17 → p.dst.toNat = s.devId → bitsOf (wordAt p.payload 0) 12 0 + 8 ≤ 8 * p.len.toNat →
    let port := bitsOf (wordAt p.payload 0) 17 16
    let dropped := s.frameBad port f = true ∨ isRoce f.body = false
    let counted := s.bump .HST_CNT port 0 1
    (s.isLead = true → exec (.reinRelay i p f) s = .next counted) ∧
    (s.isLead = false → dropped → exec (.reinRelay i p f) s = .next (counted.bump .HST_CNT port 2 1)) ∧
    (s.isLead = false → ¬ dropped → exec (.reinRelay i p f) s = .next { counted.roceIn port f with
      time := s.time, fuse := s.fuse, pwr := s.pwr, tap := s.tap, pending := s.pending }))

/-- A device other than the lead takes the presence mask it is sent, and its outstanding requests to devices newly absent end; the
lead takes none. A poll tells a wheeler that its lead lives, and it answers. A lead with HOT_PLUG polls every admitted position; a
device that answers is not missed; the third poll in a row that one misses, or the report of its last present neighbour, makes it
absent. A wheeler that has heard no poll for 40 ms gives its lead up and is not LOCKED. A matching answer of an unadmitted position
admits it; another one only marks the probe. Where a condition is not met nothing changes. -/
def Obligations.HotPlug : Prop :=
  (∀ (s : State) (m : Word), s.down = false →
    (s.isLead = true → exec (.presenceMaskUpdate m) s = .next s) ∧
    (s.isLead = false → ∃ t, exec (.presenceMaskUpdate m) s = .next t ∧ t.svc.presence = m.toNat ∧
      (s.noc.reqs = [] → t = { s with svc := { s.svc with presence := m.toNat } }) ∧
      ∀ (die tag : Nat) (r : TrackedReq) (dev : Nat), tag < 65536 → s.tracked die tag = some r → r.remote = some dev →
        dev / 64 = s.ownHitch → s.posAbsent (dev % 64) = false → t.posAbsent (dev % 64) = true → t.tracked die tag = none)) ∧
  (∀ (s : State) (answered : Word), s.down = false →
    (s.isLead = false → exec (.mgmtPoll answered) s = .next { s with sent := .mgmtAnswer :: s.sent, svc := { s.svc with pollSeen := s.time } }) ∧
    (s.isLead = true → s.hotPlug = false → exec (.mgmtPoll answered) s = .next s) ∧
    (s.isLead = true → s.hotPlug = true → s.admitted s.ownPos = true → ∃ t, exec (.mgmtPoll answered) s = .next t ∧
      ((∀ p, p < 64 → p ≠ s.ownPos → s.admitted p = true → answered.bit p = true) →
        t.sent = (s.polled.map WireMsg.mgmtPoll).reverse ++ s.sent) ∧
      ∀ p, p < 64 → p ≠ s.ownPos → s.admitted p = true →
        let misses := smGet (fun _ => 0) s.svc.pollMiss p + 1
        (answered.bit p = true → t.admitted p = true ∧ smGet (fun _ => 0) t.svc.pollMiss p = 0) ∧
        (answered.bit p = false → misses < 3 → t.admitted p = true ∧ smGet (fun _ => 0) t.svc.pollMiss p = misses) ∧
        (answered.bit p = false → 3 ≤ misses → t.admitted p = false ∧ smGet (fun _ => 0) t.svc.pollMiss p = 0))) ∧
  (∀ s : State, s.down = false →
    let lost := s.isLead = false ∧ s.rein.numbered = true ∧ s.svc.pollSeen + 40000000 ≤ s.time
    (lost → ∃ t, exec .leadPollLoss s = .next t ∧ t = { s with regs := t.regs, svc := { s.svc with leadLost := true } } ∧
      (t.reg .RNL_TIME_STATUS 0 0).bit 63 = false ∧ s.fieldOnly t .RNL_TIME_STATUS 0 0 63 63 ∧
      s.regsBut t [regAddr .RNL_TIME_STATUS 0 0]) ∧
    (¬ lost → exec .leadPollLoss s = .next s)) ∧
  (∀ (s : State) (p n : BitVec 6) (a : BitVec 2), s.down = false →
    let x := p.toNat
    let may := s.isLead = true ∧ s.hotPlug = true ∧ s.admitted x = false ∧ s.posNames x = true ∧ x ≠ s.ownPos
    let mask := smGet (fun _ => 0) s.svc.downReports x
    let heard (k : Nat) := k = n.toNat ∨ bitAt mask k = true
    let reports := s.isLead = true ∧ s.hotPlug = true ∧ s.admitted x = true ∧ x ≠ s.ownPos ∧ n.toNat ∈ s.torusNeighbours x
    (¬ may → exec (.admitProbe p a) s = .next s) ∧
    (may → a = 2 → ∃ t, exec (.admitProbe p a) s = .next t ∧ t.svc.probedAt = s.time ∧ t.admitted x = true) ∧
    (may → a ≠ 2 → exec (.admitProbe p a) s = .next { s with svc := { s.svc with probedAt := s.time } }) ∧
    (¬ reports → exec (.neighbourDownReport p n) s = .next s) ∧
    (reports → (∃ k ∈ s.torusNeighbours x, ¬ heard k ∧ s.admitted k = true) → ∃ t, exec (.neighbourDownReport p n) s = .next t ∧
      t = { s with svc := { s.svc with downReports := t.svc.downReports } } ∧ t.admitted x = true ∧
      ∀ k, bitAt (smGet (fun _ => 0) t.svc.downReports x) k = decide (heard k)) ∧
    (reports → s.admitted s.ownPos = true → (∀ k ∈ s.torusNeighbours x, heard k ∨ s.admitted k = false) →
      ∃ t, exec (.neighbourDownReport p n) s = .next t ∧ t.admitted x = false))

/-- With trace off, outside a multiple of the interval, or a second time in one instant, no sample is taken. A single traced stall's
sample enters its die's open block with its stamp; a lost one is counted with DBG_EVENT.LOST. Turning trace on empties every block
and pointer. At each microsecond, once, every corral with a queue adds its occupancies. A device card of a RESYNC is written whole
up to the length asked for, and its command ends; a hitch card first asks every wheeler. A wheeler that is late is entered as not
answering. Nothing else changes. -/
def Obligations.TraceOccupancyAndCards : Prop :=
  (∀ (s : State) (stamps : List (BitVec 64)) (lost : List (Fin 3072)), s.down = false →
    let on := (s.reg .DBG_TRACE_CFG 0 0).bit 63 = true
    let due := on ∧ s.time % s.fld .DBG_TRACE_CFG 0 0 51 32 = 0 ∧ s.obs.lastSample ≠ some s.time
    (¬ due → exec (.traceSample stamps lost) s = .next s) ∧
    (due → ∃ t, exec (.traceSample stamps lost) s = .next t ∧ t.obs.lastSample = some s.time ∧
      t = { s with regs := t.regs, obs := t.obs, svc := t.svc, mem := t.mem, bad := t.bad, hbm := t.hbm } ∧
      ∀ st : Fin 3072, (∀ x, x < 3072 → ((s.reg .DBG_TRACE_STALL 0 (x / 64)).bit (x % 64) = true ↔ x = st.val)) →
        let d := st.val / 768
        let v := (stamps.getD 0 0).toNat
        (s.reg .DBG_TRACE_STATUS 0 0).bit d = false → (s.traceDie d).block = [] →
        (st ∉ lost → t.traceDie d = { s.traceDie d with
          block := [{ stamp := if s.time ≤ v ∧ v ≤ s.time + 3 then v else s.time, word := s.sampleWord st }] } ∧ t.regs = s.regs) ∧
        (st ∈ lost → t.traceDie d = { s.traceDie d with lost := (s.traceDie d).lost + 1 } ∧ (t.reg .DBG_EVENT 0 0).bit 1 = true ∧
          t.fld .DBG_TRACE_LOST 0 d 47 0 = (s.fld .DBG_TRACE_LOST 0 d 47 0 + 1) % 2 ^ 48))) ∧
  (∀ (s : State) (v : Word), s.down = false →
    let w := regWritten .DBG_TRACE_CFG (s.reg .DBG_TRACE_CFG 0 0) v
    ∃ t, exec (.dbgTraceCfgWrite v) s = .next t ∧ t.reg .DBG_TRACE_CFG 0 0 = w ∧
      ((s.reg .DBG_TRACE_CFG 0 0).bit 63 = false → w.bit 63 = true → t = { s with regs := t.regs, obs := t.obs } ∧
        t.fld .DBG_TRACE_STATUS 0 0 3 0 = 0 ∧ ∀ d, d < 4 → t.reg .DBG_TRACE_WPTR 0 d = 0 ∧ t.traceDie d = TraceDie.idle) ∧
      ((s.reg .DBG_TRACE_CFG 0 0).bit 63 = w.bit 63 → t = { s with regs := t.regs } ∧ s.regsBut t [regAddr .DBG_TRACE_CFG 0 0]) ∧
      ((s.reg .DBG_TRACE_CFG 0 0).bit 63 = true → w.bit 63 = false → ∀ d, d < 4 → (t.traceDie d).block = [])) ∧
  (∀ s : State, s.down = false → (∀ q c, s.owner .queue q = some c → c < 256) →
    let due := s.time % 1000 = 0 ∧ s.obs.lastOcc ≠ some s.time
    (¬ due → exec .occupancyTick s = .next s) ∧
    (due → ∃ t, exec .occupancyTick s = .next t ∧ t = { s with regs := t.regs, obs := { s.obs with lastOcc := some s.time } } ∧
      (∀ c k, k < 4 → (∃ e ∈ s.queues, s.owner .queue e.1 = some c) →
        t.fld .DBG_OCC 0 (4 * c + k) 47 0 = (s.fld .DBG_OCC 0 (4 * c + k) 47 0 + s.occupancy c k) % 2 ^ 48) ∧
      s.regsBut t ((upTo 1024).map (fun i => regAddr .DBG_OCC 0 i)))) ∧
  (∀ (s : State) (q : Fin 65536) (n : BitVec 32) (c : Cmd), s.down = false → s.cmd q n.toNat = some c → descClass c.desc = 10 →
    c.phase = .running → s.ready = true →
    let card := s.deviceCard
    let dest := bitsOf (dw c.desc 3) 56 0
    let out := card.take (dw c.desc 4)
    let c1 := { c with moved := card.length }
    (bitsOf (dw c.desc 2) 63 62 = 0 → s.rangeErr c.corral true dest out.length = none → exec (.stableCardDone q n) s
      = .next (((s.putOwn c.corral dest out).setCmd c1).finishCmd c1 (okCode c1) 0 0 false)) ∧
    (bitsOf (dw c.desc 2) 63 62 ≠ 0 → s.rein.cardFor = none → ∃ t, exec (.stableCardDone q n) s = .next t ∧
      t.rein.cardFor = some (q.val, n.toNat) ∧ t.rein.cardSince = s.time ∧
      t.rein.cards.map (·.dev) = s.hitchDevices.filter (fun d => d != s.devId) ∧
      t = { s with rein := t.rein, sent := t.sent, regs := t.regs })) ∧
  ∀ (s : State) (dev : BitVec 16), s.down = false →
    let due := s.rein.cardFor ≠ none ∧ s.rein.cardSince + s.nocTimeout 0 true ≤ s.time
    (¬ due → exec (.cardAnswerTimeout dev) s = .next s) ∧
    (due → exec (.cardAnswerTimeout dev) s = .next { s with rein := { s.rein with cards := s.rein.cards.map (fun k =>
      if k.dev = dev.toNat ∧ k.whole = false then { k with bytes := [], whole := true } else k) } })

/-- A port whose link is down takes no frame. A frame is counted, and its FEC codewords and a bad FCS with it; one that the port
does not take is counted as dropped too, an accepted RoCE packet for the port's address is processed, and one for a wheeler is
relayed. A PFC frame pauses the priorities it names and the port honours for 512 bit times per quantum, and a pause of 0 ends one. A
pause that is over lets the messages that waited go out in order. The buffer at XOFF sends the longest pause, at XON a release. A
CNP halves the rate of its queue pair where RP_EN is set, not below 1 Gbit/s, and 55 µs without one raise it by RATE_STEP, not above
the line rate. A link shows its signal and its locks; one that changes raises HST_EVENT.LINK, and one that goes down resets its
bootstrap queue pair. -/
def Obligations.HostPortsAndFlow : Prop :=
  (∀ (s : State) (p : Fin 4), s.down = false →
    let count (t : State) (n : Nat) := t.fld .HST_CNT p n 47 0
    let counted := s.bump .HST_CNT p 0 1
    let h := s.hostPort p
    let rx := s.fld .HST_PFC p 0 7 0
    let paused (en : Nat) (quanta : List (BitVec 16)) (t u : State) :=
      u = { t with hostPorts := u.hostPorts, regs := u.regs } ∧ count u 6 = (count t 6 + 1) % 2 ^ 48 ∧
      (∀ x, x ≠ p.val → u.hostPort x = t.hostPort x) ∧ (u.hostPort p).txq = h.txq ∧ (u.hostPort p).xoff = h.xoff ∧
      ∀ k, smGet (fun _ => 0) (u.hostPort p).paused k = if k < 8 ∧ bitAt en k = true ∧ bitAt rx k = true
        then (if quanta.getD k 0 = 0 then 0 else s.time + (((quanta.getD k 0).toNat * 32) + 24) / 25)
        else smGet (fun _ => 0) h.paused k
    (∀ f : EthFrame,
      let seen := (s.frameErrs p f).bump .HST_CNT p 0 1
      let answers (t : State) := exec (.ethFrameReceive p f) s = .next { t with
        time := s.time, fuse := s.fuse, pwr := s.pwr, tap := s.tap, pending := s.pending }
      let pfc := ∃ en q, f.body = .pfc en q
      (s.linkUp p = false → exec (.ethFrameReceive p f) s = .next s) ∧
      (count seen 0 = (count s 0 + 1) % 2 ^ 48 ∧ count seen 3 = (count s 3 + (if f.badFcs then 1 else 0)) % 2 ^ 48 ∧
        count seen 4 = (count s 4 + f.fecFixed.toNat) % 2 ^ 48 ∧ count seen 5 = (count s 5 + f.fecLost.toNat) % 2 ^ 48 ∧
        (f.fecLost ≠ 0 → (seen.reg .HST_EVENT p 0).bit 1 = true)) ∧
      (s.linkUp p = true → f.badFcs = true ∨ (pfc ∧ 4352 < f.len.toNat) ∨ (¬ pfc ∧ (s.frameBad p f = true ∨ isRoce f.body = false)) →
        exec (.ethFrameReceive p f) s = .next (seen.bump .HST_CNT p 2 1)) ∧
      (s.linkUp p = true → f.badFcs = false → isRoce f.body = true → s.frameBad p f = false →
        (s.ownFrame p f = true → answers (seen.roceIn p f)) ∧
        (s.ownFrame p f = false → s.relayTo p f = none → exec (.ethFrameReceive p f) s = .next (seen.bump .HST_CNT p 2 1)) ∧
        (∀ x, s.ownFrame p f = false → s.relayTo p f = some x → x ≠ s.ownPos → answers (seen.relayOut p x f.raw))) ∧
      (∀ en q, s.linkUp p = true → f.badFcs = false → f.body = .pfc en q → f.len.toNat ≤ 4352 →
        ∃ t, exec (.ethFrameReceive p f) s = .next t ∧ paused en.toNat q seen t)) ∧
    (∀ (en : BitVec 8) (q : List (BitVec 16)), ∃ t, exec (.pfcFrameReceive p en q) s = .next t ∧ paused en.toNat q counted t) ∧
    (∀ k : Fin 8, s.time < smGet (fun _ => 0) h.paused k → exec (.pfcPauseExpiry p k) s = .next s) ∧
    (∀ k : Fin 8, smGet (fun _ => 0) h.paused k ≤ s.time → (h.txq = [] ∨ s.portPaused p = false) →
      ∃ t, exec (.pfcPauseExpiry p k) s = .next t ∧ t = { s with hostPorts := t.hostPorts, regs := t.regs, sent := t.sent } ∧
        smGet (fun _ => 0) (t.hostPort p).paused k = 0 ∧ (t.hostPort p).txq = [] ∧ t.sent = (h.txq.map (·.1)).reverse ++ s.sent ∧
        count t 1 = (count s 1 + (h.txq.map (·.2)).sum) % 2 ^ 48 ∧ ∀ x, x ≠ p.val → t.hostPort x = s.hostPort x) ∧
    (∀ kib : BitVec 11,
      let tx := s.fld .HST_PFC p 0 15 8
      let full := s.fld .HST_PFC p 0 47 32 ≤ kib.toNat
      let low := h.xoff = true ∧ kib.toNat ≤ s.fld .HST_PFC p 0 63 48
      let sends (quanta : Nat) (xoff : Bool) := ∃ t, exec (.pfcXonSend p kib) s = .next t ∧
        t = { s with hostPorts := t.hostPorts, regs := t.regs, sent := .pfc p tx quanta :: s.sent } ∧
        t.hostPort p = { h with xoff := xoff } ∧ (∀ x, x ≠ p.val → t.hostPort x = s.hostPort x) ∧
        count t 7 = (count s 7 + 1) % 2 ^ 48 ∧ count t 1 = (count s 1 + 1) % 2 ^ 48
      (tx ≠ 0 → full → sends 0xFFFF true) ∧ (tx ≠ 0 → ¬ full → low → sends 0 false) ∧
      (tx = 0 ∨ (¬ full ∧ ¬ low) → exec (.pfcXonSend p kib) s = .next s)) ∧
    (∀ (up sig pcs fec : Bool) (lanes : BitVec 4) (an : Bool),
      let off := s.fld .HST_PORT_STATUS p 0 5 4 = 0
      (up = true ∨ sig = true → off → exec (.hostLinkChange p ⟨up, sig, pcs, fec⟩ lanes an) s = .next s) ∧
      ((up = false ∧ sig = false) ∨ ¬ off → ∃ t, exec (.hostLinkChange p ⟨up, sig, pcs, fec⟩ lanes an) s = .next t ∧
        t.fld .HST_PORT_STATUS p 0 11 8 = (if up then 15 else lanes.toNat) ∧ (t.reg .HST_PORT_STATUS p 0).bit 6 = an ∧ t.linkUp p = up ∧
        (t.reg .HST_PORT_STATUS p 0).bit 1 = (up || sig) ∧ (t.reg .HST_PORT_STATUS p 0).bit 2 = (up || (sig && pcs && lanes == 15)) ∧
        (t.reg .HST_PORT_STATUS p 0).bit 3 = (up || (sig && fec)) ∧
        (s.linkUp p = up → t = { s with regs := t.regs } ∧ s.regsBut t [regAddr .HST_PORT_STATUS p 0]) ∧
        (s.linkUp p ≠ up → (t.reg .HST_EVENT p 0).bit 0 = true) ∧
        (s.linkUp p = true → up = false → t.qp (2048 * p.val) = QpSt.idle)))) ∧
  ∀ (s : State) (i : Fin 8192), s.down = false →
    let p := i.val / 2048
    let k := s.qp i
    let other (t : State) := ∀ x, x ≠ i.val → t.qp x = s.qp x
    (∃ t, exec (.cnpReceive i) s = .next t ∧ t = { s with regs := t.regs, qps := t.qps } ∧ other t ∧
      t.fld .HST_CNT p 8 47 0 = (s.fld .HST_CNT p 8 47 0 + 1) % 2 ^ 48 ∧
      t.fld .HST_CNT p 0 47 0 = (s.fld .HST_CNT p 0 47 0 + 1) % 2 ^ 48 ∧
      t.qp i = if (s.reg .HST_CC p 0).bit 1 then { k with rate := max 1000 (k.rate / 2), rateAt := s.time } else k) ∧
    (k.rateAt + 55000 ≤ s.time → ∃ t, exec (.cnpRateRecovery i) s = .next t ∧ t = { s with qps := t.qps } ∧ other t ∧
      t.qp i = { k with rate := min 400000 (k.rate + s.fld .HST_CC p 0 47 32), rateAt := s.time }) ∧
    (s.time < k.rateAt + 55000 → exec (.cnpRateRecovery i) s = .next s)

/-- On an armed queue pair in RTS whose port is not paused, a request with the expected PSN is served: a WRITE to one piece of HBM
stores its bytes, a READ sends the bytes, an atomic on a tether answers the value before it and stores the new one, a SEND posts its
descriptors to its queue, and each moves the expected PSN on. An access its region refuses is answered with a remote access error
and no other effect; an unsupported request and a SEND of a wrong length put the queue pair into ERROR with an invalid-request NAK.
Packets go out with the header that the port and the queue pair give them. An acknowledgement ends the writes it covers. The ACK
timeout repeats every outstanding request and counts it, or ends in ERROR with no retry left. -/
def Obligations.RoceRequestsAndAnswers : Prop :=
  (∀ (s : State) (i : Fin 8192) (psn : BitVec 24), s.down = false →
    let k := s.qp i
    let port := i.val / 2048
    let mtu := qpMtu k
    k.phase = .rts → k.entry ≠ [] → psn.toNat = k.rqPsn → s.portPaused port = false → (s.hostPort port).txq = [] →
    let hdr : FrameHdr := { port := port, vlan := if (s.reg .HST_PORT_CFG port 0).bit 44 then some (s.fld .HST_PORT_CFG port 0 43 32) else none
                            pcp := s.fld .HST_PORT_CFG port 0 23 21, dscp := s.fld .HST_PORT_CFG port 0 31 26
                            tclass := some (bitsOf (dw k.entry 0) 55 48 / 4 * 4 + 2), ecn := 2 }
    let accepted (t : State) (n : Nat) := (t.qp i).rqPsn = (k.rqPsn + n) % 2 ^ 24 ∧ (t.qp i).phase = .rts ∧
      ∀ x, x ≠ i.val → t.qp x = s.qp x
    let broken (c : Instr) := ∃ t, exec c s = .next t ∧ (t.qp i).phase = .error ∧ .framed hdr (.roceNak i psn.toNat 1) ∈ t.sent ∧
      (t.reg .HST_EVENT port 0).bit 2 = true
    let refused (c : Instr) := ∃ t, exec c s = .next t ∧ t.sent = .framed hdr (.roceNak i psn.toNat 2) :: s.sent ∧ t.mem = s.mem ∧
      t.tethers = s.tethers ∧ t.qps = s.qps ∧ t.fld .HST_CNT port 13 47 0 = (s.fld .HST_CNT port 13 47 0 + 1) % 2 ^ 48
    broken (.roceUnsupportedRequest i psn) ∧
    (∀ (rkey : BitVec 32) (off : BitVec 64) (data : List Byte), data.length ≤ 2 ^ 31 →
      let r := s.hostTarget i rkey.toNat off.toNat data.length permWrite
      let n := packetsOf mtu data.length
      (r.1 = .refused → refused (.rdmaWrite i psn rkey off data)) ∧
      (∀ pa, r.1 = .pieces [(pa, data.length)] → pa + data.length ≤ hbmTop → pa < hbmTop →
        ∃ t, exec (.rdmaWrite i psn rkey off data) s = .next t ∧ accepted t n ∧
          t = { s with mem := t.mem, bad := t.bad, mrs := t.mrs, qps := t.qps, regs := t.regs, svc := t.svc, hbm := t.hbm,
                       sent := .framed hdr (.roceAck i ((psn.toNat + n - 1) % 2 ^ 24)) :: s.sent } ∧
          t.rdBytes pa data.length = data ∧ s.memBut t pa data.length)) ∧
    (∀ (rkey : BitVec 32) (off : BitVec 64) (len : BitVec 32), len.toNat ≤ 2 ^ 31 →
      let r := s.hostTarget i rkey.toNat off.toNat len.toNat permRead
      (r.1 = .refused → refused (.rdmaRead i psn rkey off len)) ∧
      (∀ pa, r.1 = .pieces [(pa, len.toNat)] → pa < hbmTop →
        ∃ t, exec (.rdmaRead i psn rkey off len) s = .next t ∧ accepted t (packetsOf mtu len.toNat) ∧
          t = { s with mrs := t.mrs, qps := t.qps, regs := t.regs, svc := t.svc, hbm := t.hbm,
                       sent := .framed hdr (.roceData i psn.toNat (s.rdBytes pa len.toNat)) :: s.sent })) ∧
    (∀ (rkey : BitVec 32) (off : BitVec 64) (x y : Word),
      let r := s.hostTarget i rkey.toNat off.toNat 8 permAtomic
      (∀ n, r.1 ≠ .tethers n) → refused (.rdmaFetchAdd i psn rkey off x) ∧ refused (.rdmaCompareSwap i psn rkey off x y)) ∧
    (∀ (rkey : BitVec 32) (off : BitVec 64) (x y : Word) (n : Nat),
      (s.hostTarget i rkey.toNat off.toNat 8 permAtomic).1 = .tethers n →
      let old := s.tether n
      let replied (t : State) := accepted t 1 ∧ t.mem = s.mem ∧ t.sent.head? = some (.framed hdr (.roceAtomic i psn.toNat old)) ∧
        ∀ z, z ≠ n → t.tether z = s.tether z
      (∃ t, exec (.rdmaFetchAdd i psn rkey off x) s = .next t ∧ replied t ∧ t.tether n = old + x) ∧
      (∃ t, exec (.rdmaCompareSwap i psn rkey off x y) s = .next t ∧ replied t ∧ t.tether n = if old = x then y else old)) ∧
    (∀ (data : List Byte) (q : Nat), s.sendQueue i = some q → data.length ≤ 2 ^ 31 →
      let v := s.queue q
      let n := data.length / 128
      let legal := 128 ≤ data.length ∧ data.length ≤ 4096 ∧ data.length % 128 = 0
      (¬ legal → broken (.roceSend i psn data)) ∧
      (legal → 2 ^ entryRingLog v < sub32 v.pi v.admitIx + n → ∃ t, exec (.roceSend i psn data) s = .next t ∧
        t = { s with regs := t.regs, sent := t.sent } ∧ ∃ timer, t.sent = .framed hdr (.roceRnr i psn.toNat timer) :: s.sent) ∧
      (legal → v.phase = .enabled → entryRingHost v = false → sub32 v.pi v.admitIx + n ≤ 2 ^ entryRingLog v → v.pi < 2 ^ 32 → v.admitIx < 2 ^ 32 → (∀ j, j < n →
          s.rangeErr (s.queueCorral q) true (dw v.entry 0 + 128 * ((v.pi + j) % 2 ^ entryRingLog v)) 128 = none) →
        ∃ t, exec (.roceSend i psn data) s = .next t ∧ (t.queue q).pi = (v.pi + n) % 2 ^ 32 ∧
          (t.qp i).rqPsn = (k.rqPsn + packetsOf mtu data.length) % 2 ^ 24 ∧ (∃ l, t.sent.head? = some (.framed hdr (.roceAck i l))) ∧
          ∀ x, x ≠ q → t.queue x = s.queue x))) ∧
  ∀ (s : State) (i : Fin 8192), s.down = false →
    let k := s.qp i
    let port := i.val / 2048
    let limit := bitsOf (dw k.entry 1) 23 21
    let counted (n : Nat) := s.bump .HST_CNT port 0 n
    (k.phase ≠ .rts → ∀ psn a, exec (.roceResponseReceive i psn a) s = .next (counted (match a with
      | .readData data => max 1 ((data.length + qpMtu k - 1) / qpMtu k) | _ => 1))) ∧
    (k.phase = .rts → ∀ psn : BitVec 24, ∃ t, exec (.roceResponseReceive i psn .ack) s = .next t ∧ t = { counted 1 with qps := t.qps } ∧
      (∀ x, x ≠ i.val → t.qp x = s.qp x) ∧ t.qp i = { k with outstanding :=
        (k.outstanding.filter (fun r => !(r.write && psnLe (r.last (qpMtu k)) psn.toNat))).map (fun r => { r with sentAt := s.time }) }) ∧
    (∀ r l, k.outstanding = r :: l → r.sentAt + 4096 * 2 ^ bitsOf (dw k.entry 1) 20 16 ≤ s.time →
      (∀ x ∈ k.outstanding, psnLe r.psn x.psn = true) →
      ((∀ x ∈ k.outstanding, x.tries < limit) → ∃ t, exec (.roceAckTimeout i) s = .next t ∧
        t = { s with qps := t.qps, regs := t.regs, sent := t.sent, hostPorts := t.hostPorts } ∧
        t.qp i = { k with outstanding := k.outstanding.map (fun x => { x with tries := x.tries + 1, sentAt := s.time }) } ∧
        t.fld .HST_CNT port 11 47 0 = (s.fld .HST_CNT port 11 47 0
          + (k.outstanding.map (fun x => if x.write then x.packets (qpMtu k) else 1)).sum) % 2 ^ 48) ∧
      ((∃ x ∈ k.outstanding, limit ≤ x.tries) → ∃ t, exec (.roceAckTimeout i) s = .next t ∧ (t.qp i).phase = .error ∧
        (t.qp i).outstanding = [] ∧ (t.reg .HST_EVENT port 0).bit 2 = true)) ∧
    ((∀ r l, k.outstanding = r :: l → s.time < r.sentAt + 4096 * 2 ^ bitsOf (dw k.entry 1) 20 16) →
      exec (.roceAckTimeout i) s = .next s)

/-- A doorbell write within the ring that does not go back moves PI of an ENABLED queue with an HBM ring, and one that goes no
further than the records moves CI of a queue with nothing held; another one, or one with a reserved encoding, is refused and
counted. RESUME makes a halted stream of the queue ACTIVE, ABORT fails its command, and neither acts on a stream that is not halted.
ENABLE of a DISABLED queue reads its entry and makes it ENABLED, or STOPPED with the error of a bad entry or of a queue no corral
owns. DISABLE makes a queue DISABLING, or DISABLED where nothing is left. ARM takes a queue pair with a legal entry from RESET to
RTS, and RESET returns it. A flushed region and an invalidation leave nothing cached of what they cover. Each control operation
counts in HST_CTL_STATUS. -/
def Obligations.QueueControl : Prop :=
  ∀ s : State, s.down = false →
    let issued (t : State) := t.fld .HST_CTL_STATUS 0 0 63 32
    let ended (t : State) := t.fld .HST_CTL_STATUS 0 0 31 0
    let controlled (t : State) := issued t = (issued s + 1) % 2 ^ 32 ∧ ended t = (ended s + 1) % 2 ^ 32
    (∀ (port : Fin 4) (q : Fin 65536) (v : Word),
      let x := s.queue q
      let refused (c : Instr) := ∃ t, exec c s = .next t ∧ t = { s with regs := t.regs, svc := t.svc } ∧
        t.fld .HST_CNT port 12 47 0 = (s.fld .HST_CNT port 12 47 0 + 1) % 2 ^ 48 ∧ (t.reg .HST_EVENT port 0).bit 4 = true
      let pi := x.phase = .enabled ∧ sub32 (v.fld 31 0) x.admitIx ≤ 2 ^ entryRingLog x ∧ sub32 x.pi x.admitIx ≤ sub32 (v.fld 31 0) x.admitIx
      let ci := x.phase ≠ .disabled ∧ x.entry ≠ [] ∧ sub32 (v.fld 31 0) x.ci ≤ sub32 x.recs x.ci
      let badOp := v.fld 61 17 ≠ 0 ∨ v.fld 63 62 = 0 ∨ v.fld 63 62 = 3
      let k := v.fld 16 0
      let upd (t : State) (y : QueueSt) := t = { s with queues := t.queues } ∧ t.queue q = y ∧ ∀ z, z ≠ q.val → t.queue z = s.queue z
      (pi → entryRingHost x = false → ∃ t, exec (.dbPiWrite port q v) s = .next t ∧ upd t { x with pi := v.fld 31 0 }) ∧
      (¬ pi → refused (.dbPiWrite port q v)) ∧
      (ci → x.held = [] → x.phase ≠ .disabling → ∃ t, exec (.dbCiWrite port q v) s = .next t ∧ upd t { x with ci := v.fld 31 0 }) ∧
      (¬ ci → refused (.dbCiWrite port q v)) ∧
      (badOp → refused (.streamResume port q v) ∧ refused (.streamAbort port q v)) ∧
      (¬ badOp → (∀ c, s.cmd q (s.ctx k).seq = some c → (s.ctx k).phase = .halted → (s.ctx k).queue ≠ q.val ∨ c.phase ≠ .running) →
        exec (.streamResume port q v) s = .next s ∧ exec (.streamAbort port q v) s = .next s) ∧
      (∀ c, ¬ badOp → (s.ctx k).phase = .halted → (s.ctx k).queue = q.val → s.cmd q (s.ctx k).seq = some c → c.phase = .running →
        (v.fld 63 62 = 1 → ∃ t, exec (.streamResume port q v) s = .next t ∧ t = { s with ctxs := t.ctxs } ∧
          t.ctx k = { s.ctx k with phase := .active, advanced := s.time - (s.ctx k).advanced } ∧ ∀ z, z ≠ k → t.ctx z = s.ctx z) ∧
        (v.fld 63 62 = 2 → ∃ t d, exec (.streamAbort port q v) s = .next t ∧ t = { s with cmds := t.cmds } ∧
          t.cmd q (s.ctx k).seq = some d ∧ d.phase = .failing E_XLATE_FAULT 0 (s.ctx k).stage))) ∧
    (∀ (q : Fin 65536) (start : BitVec 32),
      let x := s.queue q
      let e := s.tableWords (s.fld .HST_QTABLE_BASE 0 0 56 12 * 4096 + 64 * q.val) 8
      let y : QueueSt := { QueueSt.idle with entry := e, pi := start.toNat, admitIx := start.toNat, ci := start.toNat
                                             start := start.toNat, recs := start.toNat, written := start.toNat }
      (∃ t, exec (.queueEnable q start) s = .next t ∧ controlled t ∧ (∀ z, z ≠ q.val → t.queue z = s.queue z) ∧
        (x.phase ≠ .disabled → t.queue q = x) ∧
        (x.phase = .disabled → entryReserved e = true → t.queue q = { y with phase := .stopped, error := E_FIELD_RESERVED }) ∧
        (x.phase = .disabled → entryReserved e = false → s.owner .queue q = none →
          t.queue q = { y with phase := .stopped, error := E_CORRAL_ACCESS }) ∧
        (x.phase = .disabled → entryReserved e = false → s.owner .queue q ≠ none →
          t.queue q = { y with phase := .enabled } ∧ t = { s with queues := t.queues, regs := t.regs })) ∧
      (∃ t, exec (.queueDisable q) s = .next t ∧ controlled t ∧ t = { s with queues := t.queues, regs := t.regs } ∧
        (∀ z, z ≠ q.val → t.queue z = s.queue z) ∧ (x.phase = .disabled → t.queue q = x) ∧
        (x.phase ≠ .disabled → (t.queue q).waiter = none ∧ (t.queue q).fetched = none ∧
          ((∃ c ∈ s.cmds, c.queue = q.val) → (t.queue q).phase = .disabling ∧ (t.queue q).held = x.held) ∧
          ((∀ c ∈ s.cmds, c.queue ≠ q.val) → x.held = [] → (t.queue q).phase = .disabled ∧ (t.queue q).inflight = 0)))) ∧
    (∀ i : Fin 8192,
      let e := s.tableWords (s.fld .HST_QP_TABLE_BASE 0 0 56 12 * 4096 + 64 * i.val) 8
      let legal := 3 ≤ bitsOf (dw e 0) 58 56 ∧ bitsOf (dw e 0) 58 56 ≤ 5 ∧ bitsOf (dw e 1) 20 16 ≠ 0
      (∃ t, exec (.qpArm i) s = .next t ∧ controlled t ∧ (∀ z, z ≠ i.val → t.qp z = s.qp z) ∧
        ((s.qp i).phase ≠ .reset → t.qp i = s.qp i ∧ t = { s with regs := t.regs }) ∧
        ((s.qp i).phase = .reset → ¬ legal → t.qp i = s.qp i ∧ (t.reg .HST_EVENT (i.val / 2048) 0).bit 2 = true) ∧
        ((s.qp i).phase = .reset → legal → t.qp i = { QpSt.idle with
          phase := .rts, entry := e, rqPsn := bitsOf (dw e 1) 47 24, sqPsn := bitsOf (dw e 0) 23 0, rateAt := s.time })) ∧
      (∃ t, exec (.qpReset i) s = .next t ∧ controlled t ∧ t.qp i = QpSt.idle ∧ (∀ z, z ≠ i.val → t.qp z = s.qp z) ∧
        ((s.qp i).outstanding = [] → t.queues = s.queues)) ∧
      (i.val < 4096 → ∃ t, exec (.mrFlush i) s = .next t ∧ controlled t ∧ t = { s with mrs := t.mrs, regs := t.regs } ∧
        ∀ z, smGet (fun _ => none) t.mrs z = if z = i.val then none else smGet (fun _ => none) s.mrs z) ∧
      (4096 ≤ i.val → exec (.mrFlush i) s = .next s)) ∧
    ∀ v : Word,
      (v.fld 63 62 = 3 ∨ 256 < v.fld 61 53 → exec (.xlateInval v) s = .next s) ∧
      (v.fld 63 62 ≠ 3 → v.fld 61 53 ≤ 256 → ∃ t, exec (.xlateInval v) s = .next t ∧ controlled t ∧
        t = { s with xold := t.xold, regs := t.regs } ∧
        let ctx := v.fld 61 53
        (∀ c a, v.fld 63 62 = 0 ∨ (c = ctx ∧ (v.fld 63 62 = 1 ∨ a / 65536 = v.fld 40 0)) →
          (t.xold.view c a).mem = s.mem ∧ (t.xold.view c a).used = []) ∧
        (v.fld 63 62 ≠ 0 → ∀ c a, c ≠ ctx → t.xold.view c a = s.xold.view c a))

/-- For each row of a descriptor class (MATRIX, VECTOR, MOVE_COPY, MOVE_MULTICAST, GATHER, SCATTER, SCATTER_ADD, SCATTER_MIN,
SCATTER_MAX, DRAIN, TANDEM, TETHER WAIT, SIGNAL and ADD, CTX_SAVE, CTX_RESTORE, FENCE, RESYNC, STEP), on a queue that may take a
descriptor and whose STEP releases nothing just now: a descriptor of another row is left alone; one of no row is taken by any. A
queue in walk mode without a released unit holds the descriptor until a STEP. Otherwise a descriptor that fails a check is answered
by one record with the check's code, and ADMIT moves past it with nothing in flight. One that passes waits while its own tether wait
is not met. One that does nothing then ends with OK_NOOP. A TETHER, FENCE, RESYNC or STEP then starts at once, ADMIT and INFLIGHT
one higher; a DRAIN waits for its producer, and every other class for its grant. A read of the descriptor in HBM, and of the
page-table entries of its address, puts units at the controllers and changes nothing else. Units that run no commands, and other
queues but for their waits, stay as they were. -/
def Obligations.ClassRowsAdmit : Prop :=
  ∀ (s : State) (q : Fin 65536) (d : List Word) (r r' : ClassRow), s.down = false →
    let v := s.queue q
    let f := (s.headDesc q).2
    let u := f.setQueue q { v with walkUnits := 0, waiter := none }
    let a := u.admission (s.queueCorral q) q v.admitIx d
    let met := bitAt (dw d 1) 63 = false ∨ bitsOf (dw d 1) 31 0 ≤ (s.tether (bitsOf (dw d 1) 62 48)).toNat
    let next := (v.admitIx + 1) % 2 ^ 32
    let atHead := (v.waiter = none ∧ s.atHead q d) ∨ ∃ w, v.waiter = some w ∧ w.at_ = .walk ∧ w.desc = d
    s.canAdmit q = true → (stepFor q s.cmds = none ∨ v.walkUnits ≠ 0) → s.cmd q v.admitIx = none → atHead →
    rowOf d ∈ [some r, none] → s.onlyUnits f ∧
    (rowOf d = some r → r' ≠ r → exec (rowInstr q r') s = .next s) ∧
    (entryWalk v = true → v.walkUnits = 0 → ∃ t, exec (rowInstr q r) s = .next t ∧ t = { f with queues := t.queues } ∧
      (∀ k, k ≠ q.val → t.queue k = s.queue k) ∧
      ∃ w, t.queue q = { v with waiter := some w, headSince := s.time } ∧ w.desc = d ∧ w.at_ = .walk) ∧
    (entryWalk v = false ∨ v.walkUnits ≠ 0 →
      (∀ e stage, a = .reject e stage → ∃ t, exec (rowInstr q r) s = .next t ∧ s.cmdFrame t q ∧ t.cmds.length = s.cmds.length ∧
        t.acs = s.acs ∧ t.ctxs = s.ctxs ∧ t.rings = s.rings ∧ t.tethers = s.tethers ∧ t.seqs = s.seqs ∧ t.pdks = s.pdks ∧
        (t.queue q).admitIx = next ∧ (t.queue q).waiter = none ∧ (t.queue q).recs = (v.recs + 1) % 2 ^ 32 ∧
        (v.held = [] → (t.queue q).inflight = v.inflight) ∧ smGet (fun _ => 0) (t.queue q).outcome v.admitIx = e.code + 1) ∧
      (¬ met → (a = .noop ∨ a = .go) → ∃ t, exec (rowInstr q r) s = .next t ∧ t = { f with queues := t.queues } ∧
        (∀ k, k ≠ q.val → t.queue k = s.queue k) ∧ (t.queue q).admitIx = v.admitIx ∧ (t.queue q).inflight = v.inflight ∧
        ∃ w, (t.queue q).waiter = some w ∧ w.desc = d ∧ w.at_ = .tether ∧ (w.noop = true ↔ a = .noop) ∧ w.since = s.time) ∧
      (met → a = .noop → ∃ t, exec (rowInstr q r) s = .next t ∧ s.cmdFrame t q ∧ t.ended q v.admitIx OK_NOOP ∧
        t.acs = s.acs ∧ (t.queue q).admitIx = next) ∧
      (met → a = .go → descClass d ∈ [6, 9, 10, 11] → ∃ t c, exec (rowInstr q r) s = .next t ∧ s.cmdFrame t q ∧
        t.cmd q v.admitIx = some c ∧ c.desc = d ∧ c.phase = .running ∧ c.startTime = s.time ∧ c.corral = s.queueCorral q ∧
        t.acs = s.acs ∧ t.tethers = s.tethers ∧ (t.queue q).admitIx = next ∧ (t.queue q).inflight = v.inflight + 1) ∧
      (met → a = .go → descClass d ∉ [6, 9, 10, 11] → ∃ t w, exec (rowInstr q r) s = .next t ∧
        t = { f with queues := t.queues, regs := t.regs } ∧ (∀ k, k ≠ q.val → t.queue k = s.queue k) ∧
        (∀ x, (∀ st, x ≠ regAddr .ACS_CONFLICT_COUNT st 0) → smGet regDefault t.regs x = smGet regDefault f.regs x) ∧
        (t.queue q).admitIx = v.admitIx ∧ (t.queue q).inflight = v.inflight ∧ (t.queue q).waiter = some w ∧ w.desc = d ∧
        w.at_ = (if descClass d = 4 then .producer else .grant) ∧ w.noop = false ∧ w.stamp = s.time))

/-- On an enabled queue of a corral without a discard: a waiter that may be granted starts, ADMIT and INFLIGHT one higher, holding
the segments, windows, slots and contexts of its need, its contexts ACTIVE for it; a VECTOR command takes a bank on each of its
stalls, and on a single stall that bank starts at its program's first instruction with rank, stall count and arguments in its
registers. An ACCUMULATE whose segments fail the resident check ends with E_ACC_RESIDENT; a stale DRAIN fails with E_DRAIN_STALE. A
waiter that may not be granted stays, counted as refused once where a segment it needs is leased. A DRAIN that waits for its
producer requests its grant when the producer succeeded, and is answered E_DRAIN_PRODUCER when it failed. Past the smallest
ACS_LEASE_LIMIT of the stalls it waits on, a refused waiter is answered E_ACC_LEASE_WAIT and the stalls' events are set. -/
def Obligations.GrantsAndLeaseWaits : Prop :=
  ∀ (s : State) (q : Fin 65536) (w : Waiter), s.down = false → (s.queue q).waiter = some w → (s.queue q).phase = .enabled →
    s.discard (s.queueCorral q) = none → s.cmd q (s.queue q).admitIx = none →
    let v := s.queue q
    let cor := s.queueCorral q
    let d := w.desc
    let k := descClass d
    let n := s.descNeed cor d
    let x := vecDescOf d
    let may := w.at_ = .grant ∧ w.noop = false ∧ s.grantable q w.stamp d n = true
    let next := (v.admitIx + 1) % 2 ^ 32
    let runs := (k = 1 ∧ s.residentOk cor d = true) ∨ (k = 2 ∧ x.pload = false) ∨ (k = 3 ∧ n.rings = []) ∨
      (k = 4 ∧ s.drainResident cor (drainDescOf d) = true) ∨ k = 7 ∨ k = 8 ∨
      (k = 5 ∧ s.tandemResident cor 0 (s.stageRecords cor d) = none ∧ ∀ r ∈ s.stageRecords cor d, descClass r ≠ 2)
    (may → runs → ∃ t c, exec (.leaseGrant q) s = .next t ∧ s.cmdFrame t q ∧ t.acs = s.acs ∧ t.tethers = s.tethers ∧
      t.cmd q v.admitIx = some c ∧ c.desc = d ∧ c.phase = .running ∧ c.startTime = s.time ∧ c.corral = cor ∧
      c.segs = n.segs ∧ c.windows = n.wins ∧ c.slots = n.slots ∧ (∀ i ∈ n.ctxs, i ∈ c.ctxs) ∧
      (∀ i ∈ c.ctxs, (t.ctx i).phase = .active ∧ (t.ctx i).queue = q ∧ (t.ctx i).seq = v.admitIx ∧ (t.ctx i).pos = 0) ∧
      (k = 5 → c.stageTabs = s.stageRecords cor d ∧ c.stages.length = c.stageTabs.length) ∧
      (k = 2 → c.banks.map (·.stall) = s.vecStalls cor x) ∧
      (∀ st, k = 2 → s.vecStalls cor x = [st] → ∃ b, c.banks = [b] ∧
        let bank := (t.seqr st).bank (b.bank == 1)
        bank.pc = x.pstart ∧ bank.queue = q ∧ bank.seq = v.admitIx ∧ (bank.phase = .active ∨ bank.phase = .ready) ∧
        bank.sreg 1 = 0 ∧ bank.sreg 2 = BitVec.ofNat 64 x.count ∧ ∀ i, i < 6 → bank.sreg (3 + i) = x.args.getD i 0) ∧
      (t.queue q).admitIx = next ∧ (t.queue q).inflight = v.inflight + 1 ∧ (t.queue q).waiter = none) ∧
    (may → k = 1 → s.residentOk cor d = false → ∃ t, exec (.leaseGrant q) s = .next t ∧ s.cmdFrame t q ∧ t.acs = s.acs ∧
      t.ended q v.admitIx E_ACC_RESIDENT ∧ (t.queue q).admitIx = next) ∧
    (may → k = 4 → s.drainResident cor (drainDescOf d) = false → ∃ t c, exec (.leaseGrant q) s = .next t ∧ s.cmdFrame t q ∧
      t.cmd q v.admitIx = some c ∧ c.phase = .failing E_DRAIN_STALE 0 0) ∧
    (w.at_ = .grant → w.noop = false → s.grantable q w.stamp d n = false →
      (w.refused = true → exec (.leaseGrant q) s = .next s) ∧
      (w.refused = false → ∃ t, exec (.leaseGrant q) s = .next t ∧ t = { s with queues := t.queues, regs := t.regs } ∧
        t.queue q = { v with waiter := some { w with refused := true, since := s.time } } ∧
        ∀ st, st ∉ s.leasedStalls q d n → t.reg .ACS_CONFLICT_COUNT st 0 = s.reg .ACS_CONFLICT_COUNT st 0)) ∧
    (w.at_ = .producer → let p := s.producer (drainDescOf d).prodQueue (drainDescOf d).prodSeq
      (p = none → exec (.leaseGrant q) s = .next s) ∧
      (∀ code, p = some code → isOkCode code = true → ∃ t w', exec (.leaseGrant q) s = .next t ∧
        t = { s with queues := t.queues, regs := t.regs } ∧ (t.queue q).waiter = some w' ∧ (t.queue q).admitIx = v.admitIx ∧
        w'.desc = d ∧ w'.at_ = .grant ∧ w'.prodDone = true ∧ w'.stamp = s.time) ∧
      (∀ code, p = some code → isOkCode code = false → ∃ t, exec (.leaseGrant q) s = .next t ∧ s.cmdFrame t q ∧
        t.ended q v.admitIx E_DRAIN_PRODUCER ∧ t.acs = s.acs ∧ (t.queue q).admitIx = next ∧ (t.queue q).waiter = none)) ∧
    (∀ lim, s.leaseLimit (s.waitStalls q w.stamp d n) = some lim → w.at_ = .grant → w.refused = true → lim < s.time - w.since →
      ∃ t, exec (.leaseWaitTimeout q) s = .next t ∧ s.cmdFrame t q ∧ t.ended q v.admitIx E_ACC_LEASE_WAIT ∧ t.acs = s.acs ∧
        (t.queue q).admitIx = next ∧ (t.queue q).waiter = none ∧
        ∀ st ∈ s.waitStalls q w.stamp d n, (t.reg .ACS_EVENT st 0).bit 2 = true) ∧
    ((∀ lim, s.leaseLimit (s.waitStalls q w.stamp d n) = some lim → ¬ lim < s.time - w.since) →
      exec (.leaseWaitTimeout q) s = .next s)

/-- Of a running command: once the teams of its stalls are QUIET or stream its own rows, DRAIN_RELEASE lets a DRAIN, a CTX_SAVE or a
WRITE matrix go on, or the first stage of a tandem that needs it, and keeps the instant for a CTX_SAVE, nothing else changing. A
TETHER WAIT whose TIMEOUT ms are over and whose value has not come fails with E_TETHER_TIMEOUT, by itself. A MOVE whose stream has
not advanced for its WATCHDOG fails with E_STREAM_STALL, by itself. A multicast a receiver of which lacked room for longer than
MC_LAG fails with E_MCAST_LAG, its DETAIL the receiver, its lag counters kept. A tree node that still waits for a contribution after
REMOTE_US raises the corral fault E_NET_TIMEOUT. Before the limit each row does nothing. -/
def Obligations.CommandTimeoutsAndReleases : Prop :=
  ∀ (s : State) (q : Fin 65536) (seq : BitVec 32) (c : Cmd), s.down = false → s.cmd q seq.toNat = some c → c.phase = .running →
    let d := c.desc
    let k := descClass d
    let m := moveDescOf d
    let opens := k = 4 ∨ k = 7 ∨ (k = 1 ∧ (matDescOf d).ctl.disp = 1)
    let quiet := fun i => ∀ st ∈ s.stallsOne c.corral (stageDesc c i), (s.team st).quiet = true ∨
      ∃ j, (s.team st).job = some j ∧ j.queue = c.queue ∧ j.seq = c.seq
    let released := fun c1 : Cmd => ∃ t, exec (.drainRelease q seq) s = .next t ∧ t = { s with cmds := t.cmds } ∧
      t.cmd q seq.toNat = some c1 ∧ ∀ a b, (a, b) ≠ (q.val, seq.toNat) → t.cmd a b = s.cmd a b
    (opens → c.released = 0 → quiet 0 → released { c with released := 1, tether := if k = 7 then s.time else c.tether }) ∧
    (∀ i l, k = 5 → needRelease c = i :: l → quiet i → released { c with freed := i :: c.freed }) ∧
    (k ≠ 5 → ¬ opens ∨ c.released ≠ 0 ∨ ¬ quiet 0 → exec (.drainRelease q seq) s = .next s) ∧
    (k = 5 → (∀ i l, needRelease c = i :: l → ¬ quiet i) → exec (.drainRelease q seq) s = .next s) ∧
    (let lim := bitsOf (dw d 4) 63 32;
      let due := k = 6 ∧ descSub d = 0 ∧ c.released = 0 ∧ lim ≠ 0 ∧ lim * 1000000 ≤ s.time - c.startTime;
      (due → ∃ t, exec (.tetherWaitTimeout q seq) s = .next t ∧ t = { s with cmds := t.cmds } ∧
        s.failedAlone t c E_TETHER_TIMEOUT 0 0) ∧
      (¬ due → exec (.tetherWaitTimeout q seq) s = .next s)) ∧
    (let spent := fun level since stage => s.nocTimeout (c.ctxs.headD 0 / 32768) true ≤ s.time - since ∧
        s.treeWaits c (matDescOf (if k = 5 then c.stageTabs.getD stage [] else d)) 16 level = true;
      (∀ level since stage, c.fold.tree = some (level, since, stage) → spent level since stage → s.discard c.corral = none →
        ∃ t, exec (.treeContribTimeout q seq) s = .next t ∧
          t = { s with cmds := t.cmds, svc := t.svc } ∧ t.corralFaulted c E_NET_TIMEOUT stage []) ∧
      ((∀ level since stage, c.fold.tree = some (level, since, stage) → ¬ spent level since stage) →
        exec (.treeContribTimeout q seq) s = .next s)) ∧
    ∀ i : Fin 131072, (s.ctx i).queue = q → (s.ctx i).seq = seq.toNat → i.val ∈ c.ctxs →
      (let due := k = 3 ∧ ((s.ctx i).phase = .active ∨ (s.ctx i).phase = .waiting) ∧ m.watchNs ≤ s.time - (s.ctx i).advanced;
        (due → ∃ t, exec (.streamWatchdogExpiry i) s = .next t ∧ t = { s with cmds := t.cmds } ∧ s.failedAlone t c E_STREAM_STALL 0 0) ∧
        (¬ due → exec (.streamWatchdogExpiry i) s = .next s)) ∧
      ∀ (r : Fin 4096) (lag : BitVec 64), (s.ctx i).phase ≠ .halted →
        let names := fun e => descClass e = 3 ∧ (moveDescOf e).kind = 2 ∧ (moveDescOf e).ctx = i ∧ r.val < (moveDescOf e).mcCount ∧
          (moveDescOf e).lagNs < lag.toNat
        let lags := fun e stage => ∃ t x, exec (.mcastLagExpiry i r lag) s = .next t ∧ t = { s with cmds := t.cmds, ctxs := t.ctxs } ∧
          t.cmd q seq.toNat = some x ∧ x.phase = .failing E_MCAST_LAG r stage ∧ (∀ j, j ≠ i.val → t.ctx j = s.ctx j) ∧
          t.ctx i = { s.ctx i with lag := ((s.ctx i).lagNow (moveDescOf e).mcCount s.time).set r lag.toNat, lacks := [] }
        (k ≠ 5 → names d → lags d 0) ∧ (k ≠ 5 → ¬ names d → exec (.mcastLagExpiry i r lag) s = .next s) ∧
        (k = 5 → ∀ j, j < c.stages.length → c.stages.getD j .done = .running → names (c.stageTabs.getD j []) →
          (∀ a, a < j → descClass (c.stageTabs.getD a []) = 3 → (moveDescOf (c.stageTabs.getD a [])).ctx ≠ i) →
          lags (c.stageTabs.getD j []) j)

/-- In a corral without a discard: a failing command ends with its code, its segments not VALID (but for E_CTX_IMAGE), and its
record, kept while the completion ring is full, has the code, DETAIL, stage and counts. A running command whose stream is halted
waits. The work of a MATRIX, MOVE, DRAIN, CTX_SAVE or CTX_RESTORE comes part of the way, fails with its code, or is done: memory and
stores then are as it leaves them and the command ends. An ACCUMULATE of one M-chunk leaves in the stores what its passes compute; a
one-row local copy within a transfer unit leaves the source's bytes at the destination and no other byte changed. SIGNAL sets its
tether, ADD adds to it, and SIG_EN adds one; a WAIT whose value came, and a released RESYNC, end with OK. A FENCE ends when it is
alone in its queue, a VECTOR command when all its banks have halted, a TANDEM when every stage is done or skipped, and a STEP when
its units are released and settled, with the first error of its units, or E_WALK_STATE when its target is DISABLED. Until then each
stays as it is. -/
def Obligations.CommandsEnd : Prop :=
  ∀ (s : State) (q : Fin 65536) (seq : BitVec 32) (c : Cmd), s.down = false → s.cmd q seq.toNat = some c → s.discard c.corral = none →
    let v := s.queue q
    let d := c.desc
    let k := descClass d
    let e : Instr := .commandComplete q seq
    let full := v.error = 0 ∧ 2 ^ entryCrLog v ≤ sub32 v.written v.ci
    let quiet := full ∧ (s.reg .DBG_LATCH_RING 0 c.corral).bit 63 = false
    let endsWith := fun code => ∃ t, exec e s = .next t ∧ s.cmdFrame t q ∧ t.ended q seq.toNat code
    (∀ code detail stage, c.phase = .failing code detail stage → isOkCode code = false →
      ∃ t, exec e s = .next t ∧ s.cmdFrame t q ∧ t.ended q seq.toNat code ∧ t.tethers = s.tethers ∧
        (code ≠ E_CTX_IMAGE → ∀ g ∈ c.segs, (acsSeg t.acs (g / 64) (g % 64)).valid = false) ∧
        (∀ g, g ∉ c.segs → acsSeg t.acs (g / 64) (g % 64) = acsSeg s.acs (g / 64) (g % 64)) ∧
        (full → (t.queue q).held = v.held ++
          [HeldRec.mk (doneRecord k q seq.toNat code detail stage c.counts (s.bytesMoved c) c.units c.tether s.time) true])) ∧
    (c.phase = .running → s.isHalted c = true → exec e s = .next s) ∧
    (c.phase = .running → s.isHalted c = false →
      (let w := if k = 1 then s.matrixWork c d 0 none false else if k = 3 then s.moveWork c d none false
          else if k = 4 then s.drainWork c d false else if k = 7 then s.saveWork c else s.restoreWork c
        let noReport := ∀ r ∈ d :: c.stageTabs, descClass r ≠ 3 ∨ (moveDescOf r).mcReport = 0;
        k = 1 ∨ k = 3 ∨ k = 8 ∨ ((k = 4 ∨ k = 7) ∧ c.released ≠ 0) →
          (∀ u c1, w = .part u c1 → c1.queue = c.queue → c1.seq = c.seq → u.cmd q seq.toNat = some c →
            k ≠ 3 ∨ (u.ctx (moveDescOf d).ctx).rfault = none → ∃ t, exec e s = .next t ∧ t = { u with
              cmds := t.cmds, time := s.time, fuse := s.fuse, pwr := s.pwr, tap := s.tap, pending := s.pending } ∧ t.cmd q seq.toNat = some c1) ∧
          (∀ u x0 code detail bad n, w = .fail u code detail bad n → isCorralFault code = false → u.cmd q seq.toNat = some x0 →
            x0.phase = .running → ∃ t, exec e s = .next t ∧ t.acs = u.acs ∧ t.mem = u.mem ∧ t.queues = u.queues ∧
              ∃ x, t.cmd q seq.toNat = some x ∧ x.phase = .failing code detail 0) ∧
          (∀ u c1 out, w = .done u c1 out → c1.queue = c.queue → c1.seq = c.seq → ∃ t, exec e s = .next t ∧
            t.ended q seq.toNat (okCode c1) ∧ t.acs = u.acs ∧
            (quiet → noReport → c1.corral = c.corral → c1.desc = c.desc → c1.stageTabs = c.stageTabs → u.queue q = s.queue q →
              u.reg .DBG_LATCH_RING 0 c.corral = s.reg .DBG_LATCH_RING 0 c.corral → t.mem = u.mem))) ∧
      (∀ x f n, k = 1 → matWith c d 0 none = some (x, f) → x.ctl.disp ≠ 1 → chunkCount x f = 1 → c.fold = FoldSt.start →
        s.teamsOpen c (s.gangStalls c.corral x.gangBase (gangsUsed x f)) = true →
        let rd := s.matReader c.corral [] []
        let trough := fun st a => match st with | some j => (s.rd (stallAddr j a)).toNat | none => s.vaRd c.corral a
        let r := runChunk x f rd trough (s.lastMember c.corral) (s.gangLen c.corral) c.queue c.seq 0 s.acs
        (s.chunkStreams c x f rd false).2 = .through n → s.firstFail c (troughAccs x f 0) = none →
        (x.haltInvalid = false ∨ r.cnt.invalid = 0) → ∃ t, exec e s = .next t ∧ t.acs = r.acs ∧
          t.ended q seq.toNat (if c.halts ≠ 0 then OK_RESUMED else if c.inactive && (activeRows x f rd 0).isEmpty then OK_INACTIVE
            else OK)) ∧
      (let m := moveDescOf d
        ∀ pa, k = 3 → m.kind = 0 → m.srcSp = 0 → m.dstSp = 0 → m.rows = 1 → 0 < m.len → m.dst / 512 = (m.dst + m.len - 1) / 512 →
        c.ctxs = [m.ctx] → (s.ctx m.ctx).pos = 0 → (s.ctx m.ctx).sent = 0 → (s.ctx m.ctx).made = [] → (s.ctx m.ctx).rfault = none →
        s.outstanding q seq.toNat m.ctx T_WRITE = [] → c.stageTabs = [] →
        s.moveStop c m = none → s.translate c.corral m.dst true = .ok pa → placeOf pa = .hbm → quiet →
        ∃ t, exec e s = .next t ∧ s.cmdFrame t q ∧ t.ended q seq.toNat (okCode c) ∧
          t.rdBytes pa m.len = s.vaBytes c.corral m.src m.len ∧ s.memBut t pa m.len) ∧
      (k = 6 → let dst := bitsOf (dw d 2) 14 0
        let val := if descSub d = 1 then BitVec.ofNat 64 (dw d 3) else if descSub d = 0 then s.tether dst
          else s.tether dst + BitVec.ofNat 64 (dw d 3);
        (descSub d ≠ 0 ∨ c.released ≠ 0 → ∃ t, exec e s = .next t ∧ s.cmdFrame t q ∧ t.ended q seq.toNat (okCode c) ∧
          ∀ x, t.tether x = (if x = dst then val else s.tether x) + (if bitAt (dw d 1) 47 ∧ x = bitsOf (dw d 1) 46 32 then 1 else 0)) ∧
        (descSub d = 0 → c.released = 0 → exec e s = .next s)) ∧
      (k = 9 → if s.cmds.any (fun x => x.queue == c.queue && x.seq != c.seq) then exec e s = .next s else endsWith OK) ∧
      (k = 10 → if c.released = 0 then exec e s = .next s else endsWith OK) ∧
      (k = 2 → if s.allHalted c.banks then endsWith (okCode c) else exec e s = .next s) ∧
      (k = 5 → if c.stages.all stageOver
        then endsWith (okCode { c with inactive := c.stages.all (· == .skipped) || c.inactive }) else exec e s = .next s) ∧
      (k = 11 → let target := bitsOf (dw d 2) 63 48
        if c.released ≠ 0 then (if (s.queue target).phase = .disabled then endsWith E_WALK_STATE else exec e s = .next s)
        else if unitOpen (s.queue target) s.cmds target then exec e s = .next s else endsWith c.tether))

/-- A stage of a running tandem begins when the stages it comes after are over and, with a predicate, the hand-overs it consumes
have closed; before that nothing happens. A predicate word of zero skips it. A DRAIN stage waits for its producer and fails the
command with E_DRAIN_PRODUCER or E_DRAIN_STALE. A running stage whose input has closed and been taken does its work and has
executed, or completes once its outputs have left; work that fails by itself fails the command, with the stage's number; a VECTOR
stage has executed when its banks have halted. A MATRIX stage keeps the predicate mask it reads as it begins. A stream of a command
outside a tandem whose next access has no translation halts: its context keeps position, address, cause, level and direction, the
command counts the halt, and one FAULT record is produced; with no such access nothing happens. -/
def Obligations.TandemStagesAndHalts : Prop :=
  ∀ (s : State) (q : Fin 65536) (seq : BitVec 32) (c : Cmd), s.down = false → s.cmd q seq.toNat = some c → c.phase = .running →
    s.discard c.corral = none →
    (∀ i : Fin 8, descClass c.desc = 5 →
      let r := c.stageTabs.getD i []
      let word := descClass r ≠ 1 ∧ bitAt (dw r 0) 59 = true
      let mask := stageMaskAt r
      let skip := word ∧ s.vaWord c.corral (bitsOf (dw r 0) 56 0) = 0
      let ready := i.val < c.stages.length ∧ stageOf c i = .idle ∧ s.snooped c = false ∧
        (∀ j, j < c.stages.length → bitAt (stageAfter r) j = true → stageOver (stageOf c j) = true) ∧
        (stagePredicated r = true → ∀ h ∈ handsInto c i, h.closed = true)
      let x := drainDescOf r
      let becomes := fun (e : Instr) (l : List StageSt) => ∃ t c', exec e s = .next t ∧ t.cmd q seq.toNat = some c' ∧ c'.phase = .running ∧
        c'.desc = c.desc ∧ stageOf c' i ∈ l
      (¬ ready → exec (.tandemStageBegin q seq i) s = .next s) ∧
      (ready → (word → s.rangeErr c.corral false (bitsOf (dw r 0) 56 0) 8 = none) →
        (∀ a n, mask = some (a, n) → s.rangeErr c.corral false a n = none) →
        (∀ a n, mask = some (a, n) → ∃ t c', exec (.tandemStageBegin q seq i) s = .next t ∧ t.cmd q seq.toNat = some c' ∧
          smGet (fun _ => none) c'.masks i = some (s.vaBytes c.corral a n)) ∧
        (skip → becomes (.tandemStageBegin q seq i) [.skipped]) ∧
        (¬ skip → descClass r ≠ 4 ∨ x.rows = 0 ∨ x.count = 0 → becomes (.tandemStageBegin q seq i) [.running]) ∧
        (¬ skip → descClass r = 4 → x.rows ≠ 0 → x.count ≠ 0 →
          (s.producer x.prodQueue x.prodSeq = none → exec (.tandemStageBegin q seq i) s = .next s) ∧
          (∀ code, s.producer x.prodQueue x.prodSeq = some code →
            (isOkCode code = true → s.drainResident c.corral x = true → becomes (.tandemStageBegin q seq i) [.running]) ∧
            (isOkCode code = true → s.drainResident c.corral x = false → ∃ t, exec (.tandemStageBegin q seq i) s = .next t ∧
              t = { s with cmds := t.cmds } ∧ s.failedAlone t c E_DRAIN_STALE 0 i) ∧
            (isOkCode code = false → ∃ t, exec (.tandemStageBegin q seq i) s = .next t ∧
              t = { s with cmds := t.cmds } ∧ s.failedAlone t c E_DRAIN_PRODUCER 0 i)))) ∧
      (i.val < c.stages.length → stageOf c i = .running → (∀ j ∈ s.stageCtxs c i, (s.ctx j).phase ≠ .halted) →
        let input := (stageInput c i).bind (fun h => c.hands[h]?)
        let w := s.stageWork c i (input.map (·.got))
        let mine := c.banks.filter (fun b => ((s.seqr b.stall).bank (b.bank == 1)).stage == i.val)
        let vector := stageClass c i = 2 ∧ stageIsNoop r = false
        (vector → s.allHalted mine = false → exec (.tandemStageComplete q seq i) s = .next s) ∧
        (vector → s.allHalted mine = true → becomes (.tandemStageComplete q seq i) [.executed, .done]) ∧
        (¬ vector → (∀ h, input = some h → h.closed = true ∧ h.c = h.p) →
          (w = .wait → exec (.tandemStageComplete q seq i) s = .next s) ∧
          (∀ u c1, w = .part u c1 → stageClass c i ≠ 3 → (c1.queue, c1.seq) = (c.queue, c.seq) → u.cmd q seq.toNat = some c →
            ∃ t, exec (.tandemStageComplete q seq i) s = .next t ∧ t.cmd q seq.toNat = some { c1 with
              ctxs := c.ctxs, owner := if stageClass c i = 1 then i else c.owner }) ∧
          (∀ u c1 bs, w = .done u c1 bs → c1.phase = c.phase → c1.stages = c.stages → c1.desc = c.desc →
            u.cmd q seq.toNat = some c → (c1.queue, c1.seq) = (c.queue, c.seq) →
            becomes (.tandemStageComplete q seq i) [.executed, .done]) ∧
          (∀ u code detail n, w = .fail u code detail none n → isCorralFault code = false → u.cmd q seq.toNat = some c →
            ∃ t x, exec (.tandemStageComplete q seq i) s = .next t ∧ t.cmd q seq.toNat = some x ∧
              x.phase = .failing code detail i ∧ t.acs = u.acs ∧ t.mem = u.mem)))) ∧
    ∀ k : Fin 131072, descClass c.desc ≠ 5 → s.cmds.find? (fun x => x.ctxs.contains k.val) = some c → (s.ctx k).phase ≠ .halted →
      (s.ctx k).stage < 8 →
      let m := moveDescOf c.desc
      let j := c.ctxs.findIdx (· == k.val)
      let halts := fun (u : State) (a : AccFail) => ∀ cause level, a.err = .xlate cause level → ∃ t x, exec (.xlateFaultHalt k) s = .next t ∧
        (t.ctx k).phase = .halted ∧ (t.ctx k).pos = a.pos ∧ (t.ctx k).faultVa = a.va ∧ (t.ctx k).cause = cause ∧
        (t.ctx k).level = level ∧ (t.ctx k).wr = a.write ∧ t.cmd q seq.toNat = some x ∧ x.halts = c.halts + 1 ∧ x.phase = .running ∧
        t.acs = u.acs ∧ t.tethers = u.tethers ∧ (t.queue q).recs = ((u.queue q).recs + 1) % 2 ^ 32
      (descClass c.desc ≠ 3 → let f := (s.haltPlan c c.desc 0 none false j).1
        (∀ a, f = some a → halts s a) ∧ (f = none → exec (.xlateFaultHalt k) s = .next s) ∧
        (∀ a code bad, f = some a → a.err = .code code bad → exec (.xlateFaultHalt k) s = .next s)) ∧
      (descClass c.desc = 3 →
        (m.ctx ≠ k → exec (.xlateFaultHalt k) s = .next s) ∧
        ((∀ u c1, s.moveWork c c.desc none false ≠ .part u c1) → exec (.xlateFaultHalt k) s = .next s) ∧
        (∀ u c1 a, m.ctx = k → s.moveWork c c.desc none false = .part u c1 → u.moveStop c1 m = some a → a.pos ≤ (u.ctx k).pos →
          c1.queue = c.queue → c1.seq = c.seq → c1.phase = .running → c1.halts = c.halts → u.cmd q seq.toNat = some c → halts u a))

/-- For a running command alone under its queue and sequence number, in a corral without a discard, that comes first among those at
the stall: a team handshake that did not complete raises E_STL_CHAIN and repairs a row the spec does not name; a stationary parity
error in a row in use raises E_STL_PARITY, and repairs the row when another came within 24 hours; an uncorrectable segment raises
E_ACS_ECC, an uncorrectable vector register E_VEC_ECC: each sets its event, fails the command and discards the corral's other work.
A corrected error is counted, sets its event and changes nothing else. With no such command, a valid segment becomes not VALID, a
program page unverified, and the rest is unchanged. A gait meter sample is kept and counted, and STL_EVENT.GAIT is set after enough
low ones. When the requests of a discard have retired, every command of the corral has ended: the discarded with E_DISCARDED, the
failing with their codes; the corral's log counts them, and the discard is over. -/
def Obligations.StallFaultsAndDiscards : Prop :=
  ∀ (s : State), s.down = false →
    (∀ (st : Fin 3072) (c : Cmd), s.cmd c.queue c.seq = some c → s.discard c.corral = none → c.phase = .running →
      (s.teamUser st = some c →
        (∃ t row, exec (.chainHandshakeTimeout st) s = .next t ∧ row < 8 ∧
          t = { s with draws := t.draws, regs := t.regs, svc := t.svc, cmds := t.cmds } ∧
          t.corralFaulted c E_STL_CHAIN 0 [(st.val, row)] ∧ (t.reg .STL_EVENT st 0).bit 3 = true ∧ s.regsBut t [regAddr .STL_EVENT st 0]) ∧
        ∀ (phys : Fin 9) row, rowInUse (s.repair st) phys = some row →
          let again := (s.repair st).parityAt.any (fun a => decide (s.time < a + parityWindow))
          ∃ t, exec (.stationaryParityError st phys) s = .next t ∧ t = { s with regs := t.regs, svc := t.svc, cmds := t.cmds } ∧
            t.corralFaulted c E_STL_PARITY 0 (if again then [(st.val, row)] else []) ∧ (t.repair st).parityAt.head? = some s.time ∧
            (t.reg .STL_EVENT st 0).bit 1 = true ∧ s.regsBut t [regAddr .STL_EVENT st 0]) ∧
      (∀ g : Fin 64, firstCmd (s.cmds.filter (fun x => x.phase == .running && x.segs.contains (st.val * 64 + g.val))) = some c →
        ∃ t, exec (.acsUncorrectable st (.uncorrectable g)) s = .next t ∧ t = { s with regs := t.regs, svc := t.svc, cmds := t.cmds } ∧
          t.corralFaulted c E_ACS_ECC 0 [] ∧ (t.reg .ACS_EVENT st 0).bit 1 = true ∧ s.regsBut t [regAddr .ACS_EVENT st 0]) ∧
      (∀ b, ((s.seqr st).bank b).phase ≠ .free → ((s.seqr st).bank b).queue = c.queue → ((s.seqr st).bank b).seq = c.seq →
        ∃ t, exec (.vecUncorrectable st b (.uncorrectable none)) s = .next t ∧ t = { s with regs := t.regs, svc := t.svc, cmds := t.cmds } ∧
          t.corralFaulted c E_VEC_ECC ((s.seqr st).bank b).stage [] ∧ (t.reg .VEC_EVENT st 0).bit 1 = true ∧
          s.regsBut t [regAddr .VEC_EVENT st 0])) ∧
    (∀ st : Fin 3072,
      (s.teamUser st = none → exec (.chainHandshakeTimeout st) s = .next s ∧
        ∀ phys, exec (.stationaryParityError st phys) s = .next s) ∧
      (∀ g : Fin 64, firstCmd (s.cmds.filter (fun x => x.phase == .running && x.segs.contains (st.val * 64 + g.val))) = none →
        ((acsSeg s.acs st g).valid = false → exec (.acsUncorrectable st (.uncorrectable g)) s = .next s) ∧
        ((acsSeg s.acs st g).valid = true → ∃ t, exec (.acsUncorrectable st (.uncorrectable g)) s = .next t ∧
          t = { s with acs := t.acs, regs := t.regs, svc := t.svc } ∧ (acsSeg t.acs st g).valid = false ∧
          (t.reg .ACS_EVENT st 0).bit 1 = true)) ∧
      (∀ b, ((s.seqr st).bank b).phase = .free → exec (.vecUncorrectable st b (.uncorrectable none)) s = .next s) ∧
      (∀ (b : Bool) (p : Fin 32), ∃ t, exec (.vecUncorrectable st b (.uncorrectable (some p))) s = .next t ∧
        t = { s with seqs := t.seqs, regs := t.regs, svc := t.svc, cmds := t.cmds } ∧ (t.reg .VEC_EVENT st 0).bit 1 = true ∧
        ∀ n, smGet (fun _ => false) (t.seqr st).verified n
          = (smGet (fun _ => false) (s.seqr st).verified n && n / 64 != p.val)) ∧
      (∃ t, exec (.acsUncorrectable st .corrected) s = .next t ∧ t = { s with regs := t.regs, svc := t.svc } ∧
        t.fld .ACS_ECC_COUNT st 0 47 0 = (s.fld .ACS_ECC_COUNT st 0 47 0 + 1) % 2 ^ 48 ∧ (t.reg .ACS_EVENT st 0).bit 0 = true ∧
        s.regsBut t [regAddr .ACS_ECC_COUNT st 0, regAddr .ACS_EVENT st 0]) ∧
      (∀ b : Bool, ∃ t, exec (.vecUncorrectable st b .corrected) s = .next t ∧ t = { s with regs := t.regs, svc := t.svc } ∧
        t.fld .VEC_ECC_COUNT st 0 47 0 = (s.fld .VEC_ECC_COUNT st 0 47 0 + 1) % 2 ^ 48 ∧ (t.reg .VEC_EVENT st 0).bit 0 = true ∧
        s.regsBut t [regAddr .VEC_ECC_COUNT st 0, regAddr .VEC_EVENT st 0]) ∧
      (∀ rate : BitVec 12, let low := decide (rate.toNat < s.fld .STL_GAIT_LIMIT st 0 11 0)
        let lows := if low then (smGet (fun _ => StlSt.idle) s.stls st).lows + 1 else 0
        ∃ t, exec (.gaitMeterSample st rate) s = .next t ∧ t = { s with regs := t.regs, stls := t.stls, svc := t.svc } ∧
          t.fld .STL_GAIT_METER st 0 11 0 = rate.toNat ∧
          t.fld .STL_GAIT_METER st 0 47 32 = (s.fld .STL_GAIT_METER st 0 47 32 + 1) % 2 ^ 16 ∧
          (smGet (fun _ => StlSt.idle) t.stls st).lows = lows ∧
          (s.fld .STL_GAIT_LIMIT st 0 23 16 ≤ lows → 0 < lows → (t.reg .STL_EVENT st 0).bit 0 = true) ∧
          s.regsBut t [regAddr .STL_GAIT_METER st 0, regAddr .STL_EVENT st 0])) ∧
    (∀ (cor : BitVec 8),
      (s.discard cor.toNat = none ∨ s.corralBusy cor.toNat = true → exec (.discardRequestsRetired cor) s = .next s) ∧
      (∀ d, s.discard cor.toNat = some d → s.corralBusy cor.toNat = false → ∃ t, exec (.discardRequestsRetired cor) s = .next t ∧
        t.discard cor.toNat = none ∧ (∀ x ∈ t.cmds, x.corral ≠ cor.toNat) ∧ t.time = s.time ∧ t.rein = s.rein ∧ t.noc = s.noc ∧
        (smGet (fun _ => CorralLog.idle) t.svc.corrals cor.toNat).discarded
          = (smGet (fun _ => CorralLog.idle) s.svc.corrals cor.toNat).discarded
            + (s.cmds.filter (fun c => c.corral == cor.toNat)).length ∧
        ∀ c ∈ s.cmds, c.corral = cor.toNat → (∀ x ∈ s.cmds, x.queue = c.queue → x.seq = c.seq → x = c) →
          (∀ f q, c.phase = .discarding f q → t.ended c.queue c.seq E_DISCARDED) ∧
          (∀ code detail stage, c.phase = .failing code detail stage → t.ended c.queue c.seq code)))

/-- Each row acts only when the ACTIVE bank's next instruction is its own; past INSTR_LIMIT it fails the command. A scalar
instruction writes its value to S[D] and nothing to S0, and the bank goes on; a branch goes to IMM when its condition holds; leaving
the program fails with E_VEC_PC. SLD and SST move 8 bytes inside a window, and fail with E_VEC_WINDOW outside. HALT ends the bank's
part. HWAIT, after returning S[B] bytes, writes what its channel has when that is enough or the channel has closed, and otherwise
the bank WAITs; HPOST publishes S[A] bytes when the ring has room, and otherwise WAITs; outside a tandem neither waits. DISPATCH
fails outside its windows, without contexts of the corral, or with a block out of range; on a command of one stall it writes its
dispatch and goes on, its context staying with the command. With no ACTIVE bank, or one that has halted, BANK_SWITCH makes a READY
bank ACTIVE and counts it, and a bank whose HWAIT can end gets what its channel has as it takes the sequencer; with nothing to
switch to it does nothing. -/
def Obligations.ScalarAndControlInstructions : Prop :=
  ∀ (s : State) (st : Fin 3072), s.down = false →
    (∀ r ∈ vectorRows, r.1 < 0x60 → s.nextIns st r.1 = none → exec (r.2 st) s = .next s) ∧
    (∀ (op : Nat) (b : Bool) (k : BankSt) (c : Cmd) (i : VIns), s.nextIns st op = some (b, k, c, i) →
      let x := srcA i k
      let y := srcB i k
      let a := (x + i.imm.signExtend 64).toNat
      let d := i.d.toNat
      let imm := i.imm.toNat
      let inside := fun pc => k.pstart ≤ pc ∧ pc < k.pstart + k.plen
      let fails := fun (e : Instr) code => ∃ t, exec e s = .next t ∧ s.vecFailed t st c code k.stage
      let goes := fun (e : Instr) (k' : BankSt) pc => ∃ t, exec e s = .next t ∧ s.stepsBank t st b k k' pc 0 0 ∧ t.mem = s.mem ∧ t.bad = s.bad
      (limitHit k = true → ∀ r ∈ vectorRows, r.1 = op → fails (r.2 st) E_VEC_LIMIT) ∧
      (limitHit k = false → (k.haltInv = false ∨ k.counts.illegal = 0) →
        (∀ r ∈ [(0x01, Instr.vsli st, i.imm.signExtend 64), (0x02, .vslih st, (x <<< 26) ||| i.imm.setWidth 64), (0x03, .vsadd st, x + y),
            (0x04, .vssub st, x - y), (0x05, .vsmul st, x * y), (0x06, .vsand st, x &&& y), (0x07, .vsor st, x ||| y),
            (0x08, .vsxor st, x ^^^ y), (0x09, .vsshl st, x <<< (y.toNat % 64)), (0x0A, .vsshr st, x >>> (y.toNat % 64)),
            (0x0B, .vssra st, x.sshiftRight (y.toNat % 64)), (0x0C, .vsaddi st, x + i.imm.signExtend 64)], r.1 = op → inside (k.pc + 1) →
          goes r.2.1 (k.setS d r.2.2) (k.pc + 1) ∧ (k.setS d r.2.2).sreg 0 = 0 ∧ (d ≠ 0 → (k.setS d r.2.2).sreg d = r.2.2) ∧
          ∀ n, n ≠ d → (k.setS d r.2.2).sreg n = k.sreg n) ∧
        (∀ r ∈ [(0x18, Instr.vbeq st, decide (x = y)), (0x19, .vbne st, decide (x ≠ y)), (0x1A, .vblt st, x.slt y), (0x1B, .vbltu st, x.ult y),
            (0x1C, .vjmp st, true)], r.1 = op → let pc := if r.2.2 then imm else k.pc + 1;
          (inside pc → goes r.2.1 k pc) ∧ (¬ inside pc → fails r.2.1 E_VEC_PC)) ∧
        (op = 0x1F → descClass c.desc ≠ 5 → ∃ t, exec (.vhalt st) s = .next t ∧ t = { s with regs := t.regs, seqs := t.seqs } ∧
          t.seqr st = (s.seqr st).setBank b { k with pc := k.pc + 1, issued := k.issued + 1, wait := .halted }) ∧
        (op = 0x10 → inside (k.pc + 1) → if windowOk k a 8 8 false = true
          then goes (.vsld st) (k.setS d (BitVec.ofNat 64 (leNat (s.rdBytes (stallAddr st a) 8)))) (k.pc + 1)
          else fails (.vsld st) E_VEC_WINDOW) ∧
        (op = 0x11 → inside (k.pc + 1) → if windowOk k a 8 8 true = true
          then ∃ t, exec (.vsst st) s = .next t ∧ s.stepsBank t st b k k (k.pc + 1) 0 0 ∧
            t.rdBytes (stallAddr st a) 8 = leBytes 8 y.toNat ∧ s.memBut t (stallAddr st a) 8
          else fails (.vsst st) E_VEC_WINDOW) ∧
        (op = 0x60 → descClass c.desc ≠ 5 → inside (k.pc + 1) → if y = 0 then goes (.vhwait st) (k.setS d (BitVec.ofNat 64 (2 ^ 63))) (k.pc + 1)
          else fails (.vhwait st) E_VEC_WINDOW) ∧
        (∀ j h, op = 0x60 → chanHand c k.stage false (imm % 4) = some (j, h) → (h.p < h.c + y.toNat → fails (.vhwait st) E_VEC_WINDOW) ∧
          (y = 0 → x.toNat ≤ h.p - h.c ∨ h.closed = true → inside (k.pc + 1) →
            goes (.vhwait st) (k.setS d (BitVec.ofNat 64 (h.p - h.c + b2n h.closed * 2 ^ 63))) (k.pc + 1)) ∧
          (y = 0 → h.p - h.c < x.toNat → h.closed = false → ∃ t, exec (.vhwait st) s = .next t ∧ t = { s with regs := t.regs, seqs := t.seqs } ∧
            (t.seqr st).bank b = { k with pc := k.pc + 1, phase := .waiting, wait := .hwait (imm % 4) x.toNat d, issued := k.issued + 1 })) ∧
        (op = 0x61 → descClass c.desc ≠ 5 → inside (k.pc + 1) → goes (.vhpost st) k (k.pc + 1)) ∧
        (∀ j h, op = 0x61 → chanHand c k.stage true (imm % 4) = some (j, h) →
          (h.bytes < h.p + x.toNat - h.c → ∃ t, exec (.vhpost st) s = .next t ∧ t = { s with regs := t.regs, seqs := t.seqs } ∧
            (t.seqr st).bank b = { k with
              pc := k.pc + 1, phase := .waiting, wait := .hpost (imm % 4) x.toNat (imm / 4 % 2 == 1), issued := k.issued + 1 }) ∧
          (h.p + x.toNat - h.c ≤ h.bytes → inside (k.pc + 1) → ∃ t c' h', exec (.vhpost st) s = .next t ∧
            t.cmd c.queue c.seq = some c' ∧ c'.phase = .running ∧ c'.hands[j]? = some h' ∧ h.p + x.toNat ≤ h'.p ∧
            (t.seqr st).bank b = { k with pc := k.pc + 1, issued := k.issued + 1 })) ∧
        (op = 0x68 → let ok := windowOk k x.toNat 32 32 false
          let ws := bytesWords 4 (s.rdBytes (stallAddr st x.toNat) 32);
          (ok = false → fails (.vdispatch st) E_VEC_WINDOW) ∧
          (ok = true → s.owned .context c.corral = [] → fails (.vdispatch st) E_STREAM_CONTEXTS) ∧
          (∀ j, ok = true → s.owned .context c.corral ≠ [] → s.stageBanks c k.stage = [⟨st, b2n b, 0⟩] →
            (s.dispCtxs c k.stage = [] ∧ s.freeContext c.corral = some j) ∨
              (∃ l, s.dispCtxs c k.stage = j :: l ∧ ∀ i ∈ l, (s.ctx i).phase ≠ .halted) →
            (dispBlockOf ws = none → ∃ t x, exec (.vdispatch st) s = .next t ∧ t.cmd c.queue c.seq = some x ∧
              x.phase = .failing E_FIELD_RANGE 0 k.stage) ∧
            (∀ blk, dispBlockOf ws = some blk → (s.dispatchAccs c.corral blk).1.filterMap (s.accFail c.corral) = [] → inside (k.pc + 1) →
              ((s.seqr st).bank (!b)).phase ≠ .active →
              ∃ t x, exec (.vdispatch st) s = .next t ∧
                t.mem = ((s.dispatchAccs c.corral blk).2.foldl (fun t p => t.vaWrite c.corral p.1 p.2) s).mem ∧
                t.cmd c.queue c.seq = some x ∧ x.phase = .running ∧ ((t.seqr st).bank b).pc = k.pc + 1 ∧
                ((t.seqr st).bank b).phase = .active ∧ ((t.seqr st).bank b).wait = .none ∧ (t.ctx j).phase = .active ∧
                j ∈ x.ctxs))))) ∧
    (let q := s.seqr st
      let o := !(q.active.getD q.last)
      let may := q.active = none ∨ (q.bank (!o)).wait = .halted
      let sound := q.active.getD q.last = q.last
      (may → sound → (q.bank o).phase = .ready → (q.bank o).wait = .none → (s.bankCmd (q.bank o)).isSome = true → ∃ t, exec (.bankSwitch st) s = .next t ∧
        t = { s with regs := t.regs, seqs := t.seqs } ∧ (t.seqr st).active = some o ∧ (t.seqr st).last = o ∧
        (t.seqr st).bank o = { q.bank o with phase := .active } ∧ s.regsBut t [regAddr .STL_SEQ_SWITCHES st 0] ∧
        t.fld .STL_SEQ_SWITCHES st 0 47 0 = (s.fld .STL_SEQ_SWITCHES st 0 47 0 + 1) % 2 ^ 48) ∧
      (∀ c ch need d v, may → sound → (q.bank o).phase = .ready ∨ (q.bank o).phase = .waiting → s.bankCmd (q.bank o) = some c →
        (q.bank o).wait = .hwait ch need d → hwaitValue c (q.bank o).stage ch need = some v →
        (q.bank o).pstart ≤ (q.bank o).pc → (q.bank o).pc < (q.bank o).pstart + (q.bank o).plen → ∃ t, exec (.bankSwitch st) s = .next t ∧
        t = { s with regs := t.regs, seqs := t.seqs } ∧ (t.seqr st).active = some o ∧
        (t.seqr st).bank o = { (q.bank o).setS d v with phase := .active, wait := .none } ∧ s.regsBut t [regAddr .STL_SEQ_SWITCHES st 0] ∧
        t.fld .STL_SEQ_SWITCHES st 0 47 0 = (s.fld .STL_SEQ_SWITCHES st 0 47 0 + 1) % 2 ^ 48) ∧
      (¬ may ∨ ((q.bank o).phase ≠ .ready ∧ (q.bank o).phase ≠ .waiting) → exec (.bankSwitch st) s = .next s))

/-- When a vector instruction is the ACTIVE bank's next one, within its limit, and the bank does not halt on invalid: an
element-wise instruction gives every active lane of V[D] its operation on the lanes of V[A], V[B] and V[D], and leaves the other
lanes; a conversion does so in its part of the wider group. VCMP sets the active bits of MK[D] and clears those above the lanes;
VSEL picks by mask; VCOMPRESS packs the active elements and counts them; a reduction puts the root of the fixed tree, and with IMM
its lane, in V[D]; VCVTMX converts blocks of 32 and writes their scales to S[B]. Loads and stores move exactly the addressed bytes
of stall memory for active lanes, inside the windows, and fail with E_VEC_WINDOW outside. Lanes and conversions are counted, invalid
operations and overflows too; every other register of the bank and all else stay. A bank that halts on invalid and meets an invalid
operation fails its command with E_HALT_INVALID. -/
def Obligations.VectorInstructions : Prop :=
  ∀ (s : State) (st : Fin 3072) (op : Nat) (b : Bool) (k : BankSt) (c : Cmd) (i : VIns), s.down = false →
    s.nextIns st op = some (b, k, c, i) → limitHit k = false → k.pstart ≤ k.pc + 1 → k.pc + 1 < k.pstart + k.plen →
    let f := fmtOfCode i.fd.toNat
    let fs := fmtOfCode i.fs.toNat
    let w := elemWidth f
    let ws := elemWidth fs
    let n := 1024 / w
    let d := i.d.toNat
    let m := k.mreg i.msk.toNat
    let X := fun l => elemAt (k.vreg i.a.toNat) w l
    let Y := fun l => elemAt (k.vreg i.b.toNat) w l
    let Z := fun l => elemAt (k.vreg d) w l
    let xs := srcA i k
    let at_ := (xs + i.imm.signExtend 64).toNat
    let add := fun p q => numAdd 2 p q
    let arith := vecArithOp f i.ss
    let bits := fun (g : Nat → Nat → Nat) l => LaneRes.of (g (X l) (Y l) % 2 ^ w)
    let steps := fun (e : Instr) lanes cvts (P : BankSt → Prop) => ∃ t k', exec e s = .next t ∧
      s.stepsBank t st b k k' (k.pc + 1) lanes cvts ∧ t.mem = s.mem ∧ t.bad = s.bad ∧
      k' = { k with s := k'.s, v := k'.v, masks := k'.masks, counts := k'.counts } ∧ P k'
    let onlyV := fun (k' : BankSt) => k'.s = k.s ∧ k'.masks = k.masks ∧ ∀ r, r ≠ d → k'.vreg r = k.vreg r
    let fails := fun (e : Instr) code => ∃ t, exec e s = .next t ∧ s.vecFailed t st c code k.stage
    let rows : List (Nat × Instr × (Nat → LaneRes)) :=
      [(0x30, .vvadd st, fun l => arith add (· + ·) (X l) (Y l)), (0x31, .vvsub st, fun l => arith (fun p q => add p (numNeg q)) (· - ·) (X l) (Y l)),
       (0x32, .vvmul st, fun l => arith numMul (· * ·) (X l) (Y l)), (0x34, .vvmin st, fun l => vecMinMax f i.ss false (X l) (Y l)),
       (0x35, .vvmax st, fun l => vecMinMax f i.ss true (X l) (Y l)), (0x36, .vvabs st, fun l => vecAbs f i.ss (X l)),
       (0x37, .vvneg st, fun l => vecNeg f i.ss (X l)), (0x38, .vvdiv st, fun l => vecDiv f (X l) (Y l)),
       (0x39, .vvsqrt st, fun l => vecSqrt f (X l)), (0x40, .vvand st, bits Nat.land), (0x41, .vvor st, bits Nat.lor),
       (0x42, .vvxor st, bits Nat.xor), (0x43, .vvshl st, bits (fun x y => x * 2 ^ (y % w))),
       (0x44, .vvshr st, bits (fun x y => x / 2 ^ (y % w))), (0x45, .vvpopc st, fun l => LaneRes.of (popcount w (X l))),
       (0x46, .vviota st, fun l => LaneRes.of ((xs.toNat + l) % 2 ^ w)), (0x47, .vvbcast st, fun _ => LaneRes.of (xs.toNat % 2 ^ w))]
    (k.haltInv = false →
      (∀ r ∈ rows, r.1 = op → steps r.2.1 (lanesOn m n) 0 (fun k' => onlyV k' ∧
        (∀ l, l < n → elemAt (k'.vreg d) w l = if laneOn m l then (r.2.2 l).bits % 2 ^ w else Z l) ∧
        k'.counts.invalid = k.counts.invalid + ((upTo n).filter (fun l => laneOn m l && (r.2.2 l).cause.isSome)).length ∧
        k'.counts.overflow = k.counts.overflow + ((upTo n).filter (fun l => laneOn m l && (r.2.2 l).ovf)).length)) ∧
      (op = 0x33 → steps (.vvmadd st) (lanesOn m n) 0 (fun k' => onlyV k' ∧
        ∀ l, l < n → elemAt (k'.vreg d) w l = if laneOn m l then (vecMadd f i.ss (Z l) (X l) (Y l)).2.bits % 2 ^ w else Z l)) ∧
      (op = 0x3A → steps (.vcmul st) (lanesOn m n) 0 (fun k' => onlyV k' ∧ ∀ l, l < n → elemAt (k'.vreg d) w l =
        if laneOn m l then (let e := 2 * (l / 2)
          if l % 2 = 0 then cmulPart f (X e) (Y e) (X (e + 1)) (Y (e + 1)) true
          else cmulPart f (X e) (Y (e + 1)) (X (e + 1)) (Y e) false).1.bits % 2 ^ w else Z l)) ∧
      (op = 0x3B → ws = w → d % 8 ≠ 0 → steps (.vvcmp st) (lanesOn m n) 0 (fun k' => k'.s = k.s ∧ k'.v = k.v ∧ k'.counts = k.counts ∧
        (∀ r, r ≠ d % 8 → k'.mreg r = k.mreg r) ∧ ∀ l, l < 128 → (k'.mreg (d % 8)).getLsbD l =
          if n ≤ l then false
          else if laneOn m l then predNum (i.imm.toNat % 8) (numOperand fs i.ss (X l)) (numOperand fs i.ss (Y l))
          else (k.mreg (d % 8)).getLsbD l)) ∧
      (op = 0x3C → steps (.vvsel st) n 0 (fun k' => onlyV k' ∧ k'.counts = k.counts ∧
        ∀ l, l < n → elemAt (k'.vreg d) w l = if laneOn m l then X l else Y l)) ∧
      (op = 0x50 → let g := 1024 / max w ws
        let part := g * (i.imm.toNat % 8)
        let from_ := if ws < w then part else 0
        let up := if w < ws then part else 0;
        (up + g ≤ n → steps (.vvcvt st) (lanesOn m g) (lanesOn m g) (fun k' => onlyV k' ∧ ∀ e, e < n → elemAt (k'.vreg d) w e =
          if up ≤ e ∧ e < up + g ∧ laneOn m (e - up) = true then
            (cvtElem f fs i.sd i.ss (roundingOf i.rnd.toNat k.seed (logicalIdx k (e - up)))
              (elemAt (k.vreg i.a.toNat) ws (from_ + (e - up)) % 2 ^ fmtBits fs)).bits % 2 ^ w
          else Z e))) ∧
      (op = 0x51 → let nb := if ws = 32 then 1 else 2
        let base := 32 * nb * (i.imm.toNat % (if ws = 32 then 4 else 2))
        let act := fun j => ((upTo 32).map (fun h => 32 * j + h)).filter (fun l => laneOn m l)
        let mx := fun j => mxConvert f ((act j).map (fun l => (roundingOf i.rnd.toNat k.seed (logicalIdx k l),
          numOperand fs false (elemAt (k.vreg i.a.toNat) ws l))));
        ∃ t k' lanes, exec (.vvcvtmx st) s = .next t ∧ s.stepsBank t st b k k' (k.pc + 1) lanes lanes ∧ t.mem = s.mem ∧
          k'.masks = k.masks ∧ (∀ r, r ≠ d → k'.vreg r = k.vreg r) ∧ (∀ r, r ≠ i.b.toNat → k'.sreg r = k.sreg r) ∧
          (∀ e, e < 128 → (∀ j, j < nb → e < base ∨ e - base ∉ act j) → elemAt (k'.vreg d) 8 e = elemAt (k.vreg d) 8 e) ∧
          (i.b.toNat ≠ 0 → ∀ j, j < nb → act j ≠ [] → (mx j).scale < 256 → (nb = 2 → act (1 - j) = [] ∨ (mx (1 - j)).scale < 256) →
            (k'.sreg i.b.toNat).toNat / 2 ^ (8 * j) % 256 = (mx j).scale)) ∧
      (∀ r ∈ [(0x58, Instr.vvredadd st, 0), (0x59, .vvredmin st, 1), (0x5A, .vvredmax st, 2)], r.1 = op →
        let leaf := fun l => if laneOn m l then RedNode.mk (if !fmtIsInt f && numIsNan (numOperand f false (X l)) then nanBits f 3 else X l) l l [] 0
          else RedNode.mk (vecIdentity r.2.2 f i.ss) 0xFFFFFFFF l [] 0
        ∀ root, fixedTree (redNode r.2.2 f i.ss) ((upTo n).map leaf) = some root →
          steps r.2.1 (lanesOn m n) 0 (fun k' => onlyV k' ∧ elemAt (k'.vreg d) w 0 = root.bits % 2 ^ w ∧
            (r.2.2 = 0 ∨ i.imm.toNat % 2 = 0 → (k'.vreg d).toNat = root.bits % 2 ^ w) ∧
            (r.2.2 ≠ 0 → i.imm.toNat % 2 = 1 → elemAt (k'.vreg d) 32 (if w = 64 then 2 else 1) = root.lane % 2 ^ 32))) ∧
      (op = 0x5C → let es := ((upTo n).filter (fun l => laneOn m l)).map X;
        steps (.vvcompress st) es.length 0 (fun k' => k'.masks = k.masks ∧ k'.counts = k.counts ∧ (∀ r, r ≠ d → k'.vreg r = k.vreg r) ∧
          (∀ l, l < n → elemAt (k'.vreg d) w l = es.getD l 0) ∧ (∀ r, r ≠ i.b.toNat → k'.sreg r = k.sreg r) ∧
          (i.b.toNat ≠ 0 → k'.sreg i.b.toNat = BitVec.ofNat 64 es.length))) ∧
      (op = 0x20 → let pb := packBits i.fs.toNat
        let raw := leNat (s.rdBytes (stallAddr st at_) (16 * pb))
        if windowOk k at_ (16 * pb) 64 false = true then steps (.vvld st) 0 0 (fun k' => onlyV k' ∧ k'.counts = k.counts ∧ ∀ l, l < 128 →
          elemAt (k'.vreg d) 8 l = if laneOn m l then raw / 2 ^ (pb * l) % 2 ^ pb else elemAt (k.vreg d) 8 l)
        else fails (.vvld st) E_VEC_WINDOW) ∧
      (op = 0x21 → let pb := packBits i.fd.toNat
        let p := stallAddr st at_
        let raw := leNat (s.rdBytes p (16 * pb))
        if windowOk k at_ (16 * pb) 64 true = true then ∃ t, exec (.vvst st) s = .next t ∧ s.stepsBank t st b k k (k.pc + 1) 0 0 ∧
          s.memBut t p (16 * pb) ∧ ∀ l, l < 128 → leNat (t.rdBytes p (16 * pb)) / 2 ^ (pb * l) % 2 ^ pb =
            if laneOn m l then elemAt (k.vreg d) 8 l % 2 ^ pb else raw / 2 ^ (pb * l) % 2 ^ pb
        else fails (.vvst st) E_VEC_WINDOW) ∧
      (op = 0x22 → let part := idxPart i w
        if idxOk i k w false = true then steps (.vvldx st) 0 0 (fun k' => onlyV k' ∧ k'.counts = k.counts ∧ ∀ e, e < n → elemAt (k'.vreg d) w e =
          if part ≤ e ∧ e < part + idxGroup w ∧ laneOn m (e - part) = true then
            leNat (s.rdBytes (stallAddr st (idxAddr i k w (e - part))) (w / 8)) % 2 ^ w else Z e)
        else fails (.vvldx st) E_VEC_WINDOW) ∧
      (op = 0x23 → let on := (upTo (idxGroup w)).filter (fun l => laneOn m l)
        let put := fun l => leBytes (w / 8) (Z (idxPart i w + l))
        if idxOk i k w true = true then ∃ t, exec (.vvstx st) s = .next t ∧ s.stepsBank t st b k k (k.pc + 1) 0 0 ∧
          (∀ l ∈ on, (∀ j ∈ on, l < j → idxAddr i k w j ≠ idxAddr i k w l) → t.rdBytes (stallAddr st (idxAddr i k w l)) (w / 8) = put l) ∧
          (∀ a, (∀ l ∈ on, a < stallAddr st (idxAddr i k w l) ∨ stallAddr st (idxAddr i k w l) + w / 8 ≤ a) → t.rd a = s.rd a)
        else fails (.vvstx st) E_VEC_WINDOW)) ∧
    (k.haltInv = true → ∀ r ∈ rows, r.1 = op → (∃ l, l < n ∧ laneOn m l = true ∧ (r.2.2 l).cause.isSome = true) → fails r.2.1 E_HALT_INVALID)

/-- The fields read from the word of an instruction are the instruction, whatever its fields; the word of the fields read from a
word is that word. So every instruction of the ACTIVE bank has one opcode, and of the rows of chapter 07 that issue within a stall
no other row than its own does anything; a word that the program check accepts has an opcode of one of the rows. -/
def Obligations.VectorEncoding : Prop :=
  (∀ i : VIns, vinsOf (vinsWord i) = i) ∧ (∀ w : Word, vinsWord (vinsOf w) = w) ∧
  (∀ w : Word, vinsLegal (vinsOf w) = true → (w.extractLsb' 56 8).toNat ∈ vectorRows.map (·.1)) ∧
  ∀ (s : State) (st : Fin 3072) (op : Nat) (b : Bool) (k : BankSt) (c : Cmd) (i : VIns), s.down = false →
    s.nextIns st op = some (b, k, c, i) → ∀ r ∈ vectorRows, r.1 ≠ op → r.1 < 0x68 → exec (r.2 st) s = .next s

/-- For every address of the register windows at which no register is defined: a read returns zero, a write changes no register but
DBG_BAD_REG_ACCESS, which counts it, and DBG_EVENT, whose bit says so, and both accesses have exactly the effect of the same access
at any misaligned address of the windows. -/
def Obligations.UndefinedOffsets : Prop :=
  ∀ (s : State) (a : BitVec 57) (v : Word), s.down = false → regBase ≤ a.toNat → a.toNat < regTop → regAt a.toNat = none →
    (s.regRead a.toNat).1 = 0 ∧
    (∃ t, exec (.registerWrite a v) s = .next t ∧ t = { s with regs := t.regs, svc := t.svc } ∧
      t.fld .DBG_BAD_REG_ACCESS 0 0 47 0 = (s.fld .DBG_BAD_REG_ACCESS 0 0 47 0 + 1) % 2 ^ 48 ∧
      s.fieldOnly t .DBG_BAD_REG_ACCESS 0 0 47 0 ∧ (t.reg .DBG_EVENT 0 0).bit 0 = true ∧ s.fieldOnly t .DBG_EVENT 0 0 0 0 ∧
      s.regsBut t [regAddr .DBG_BAD_REG_ACCESS 0 0, regAddr .DBG_EVENT 0 0]) ∧
    ∀ b : BitVec 57, regBase ≤ b.toNat → b.toNat < regTop → b.toNat % 8 ≠ 0 →
      s.regRead b.toNat = s.regRead a.toNat ∧ exec (.registerWrite b v) s = exec (.registerWrite a v) s

/-- The IDCODE is 0x1307_296B: revision 0x1 in bits [31:28], part 0x3072 in [27:12], manufacturer code 0x4B5 in [11:1] and 1 in [0].
A read of CFG_IDCODE, which holds what reset gives it, returns it in its low half, and the test port's IDCODE instruction shifts it
out; nothing else of the device changes. -/
def Obligations.DeviceIdcode : Prop :=
  let idcode : Nat := 0x1307296B
  bitsOf idcode 31 28 = 0x1 ∧ bitsOf idcode 27 12 = 0x3072 ∧ bitsOf idcode 11 1 = 0x4B5 ∧ bitsOf idcode 0 0 = 1 ∧
  regAt (regAddr .CFG_IDCODE 0 0) = some ⟨.CFG_IDCODE, 0, 0⟩ ∧ State.reset.fld .CFG_IDCODE 0 0 31 0 = idcode ∧
  ∀ s : State,
    (s.reg .CFG_IDCODE 0 0 = State.reset.reg .CFG_IDCODE 0 0 → (s.regRead (regAddr .CFG_IDCODE 0 0)).1.fld 31 0 = idcode ∧
      (s.regRead (regAddr .CFG_IDCODE 0 0)).2 = s) ∧
    ∃ t, exec .tapIdcode s = .next t ∧ t = { s with tap := t.tap } ∧ t.tap.ins = .idcode ∧ t.tap.shift = idcode

/-- A write of a register that starts nothing and whose fields are independent (the registers with actions or rules of their own are
listed) changes that register alone: RW fields take what is written, but for a reserved encoding, which leaves the field; RO and
write-only fields keep what they hold; W1C fields lose and W1S fields gain the bits written as 1; bits outside every field keep what
they hold, whatever is written to them. -/
def Obligations.RegisterFieldWrites : Prop :=
  ∀ (s : State) (a : BitVec 57) (v : Word) (p : RegPlace), s.down = false → regBase ≤ a.toNat → a.toNat < regTop → a.toNat % 8 = 0 →
    regAt a.toNat = some p → isEnable p.reg (regInfo p.reg).blk = false →
    p.reg ∉ ([.CFG_LOAD, .CFG_RELEASE, .CFG_CONSIST_CTL, .HST_QCTL, .HST_QP_CMD, .HST_XLATE_INVAL, .HST_QTABLE_BASE, .HST_QP_TABLE_BASE,
      .HST_PORT_CFG, .GRM_DRV_FEATURES, .GRM_REQ, .GRM_MBOX, .HBM_MAINT, .PDK_PROBE_CTL, .PDK_REPLAY_CTL, .RNL_PORT_CFG, .RNL_EYE_CTL,
      .RNL_IDENT, .DBG_TRACE_CFG, .DBG_TRACE_BASE, .DBG_TRACE_LEN, .DBG_TRACE_STALL, .DBG_LATCH_SEL, .HST_PFC, .VEC_VIEW_SEL] : List Reg) →
    ∃ t, exec (.registerWrite a v) s = .next t ∧ t = { s with regs := t.regs } ∧ s.regsBut t [regAddr p.reg p.inst p.idx] ∧
      (∀ f ∈ (regInfo p.reg).fields,
        let old := s.fld p.reg p.inst p.idx f.hi f.lo
        let new := t.fld p.reg p.inst p.idx f.hi f.lo
        let w := v.fld f.hi f.lo
        (f.acc = .rw → new = if fieldReserved p.reg f.hi w then old else w) ∧
        (f.acc = .ro ∨ f.acc = .wo ∨ f.acc = .wonce → new = old) ∧
        (f.acc = .w1c → ∀ n, f.lo ≤ n → n ≤ f.hi → (t.reg p.reg p.inst p.idx).bit n = ((s.reg p.reg p.inst p.idx).bit n && !v.bit n)) ∧
        (f.acc = .w1s → ∀ n, f.lo ≤ n → n ≤ f.hi → (t.reg p.reg p.inst p.idx).bit n = ((s.reg p.reg p.inst p.idx).bit n || v.bit n))) ∧
      ∀ n, n < 64 → (∀ f ∈ (regInfo p.reg).fields, n < f.lo ∨ f.hi < n) →
        (t.reg p.reg p.inst p.idx).bit n = (s.reg p.reg p.inst p.idx).bit n

/-- HST_PFC (offset 0x030 of its port's window) takes TX_EN and RX_EN, and takes XON_KIB and XOFF_KIB together unless the write
would leave XOFF_KIB at or below XON_KIB, or above 1,008, when both keep what they hold. NOC_TIMEOUT (0x008) keeps a timeout that is
written as 0 or above 1,000,000. HBM_SCRUB_CFG (0x8078) keeps INTERVAL_US or MAX_DEFER_S written as 0, and takes EN. PDK_PROBE_LEN
(0x110) and PDK_REPLAY_LEN (0x190) keep a BLOCKS of 0 or 0xFFFF_FFFF. Fields, reset values and offsets are the rules' own; reserved
bits keep what they hold and are 0 at reset; nothing else changes. -/
def Obligations.ThresholdRegisterWrites : Prop :=
  let at_ := fun (r : Reg) (i : Nat) => BitVec.ofNat 57 (regAddr r i 0)
  let r0 := State.reset
  (∀ p : Fin 4, regAddr .HST_PFC p 0 = regAddr .HST_PORT_STATUS p 0 + 0x030 ∧ r0.fld .HST_PFC p 0 63 48 = 0x0200 ∧
    r0.fld .HST_PFC p 0 47 32 = 0x0280 ∧ r0.fld .HST_PFC p 0 31 16 = 0 ∧ r0.fld .HST_PFC p 0 15 8 = 0x08 ∧ r0.fld .HST_PFC p 0 7 0 = 0x08) ∧
  (∀ d : Fin 4, regAddr .NOC_TIMEOUT d 0 = regAddr .NOC_STATUS d 0 + 0x008 ∧ r0.fld .NOC_TIMEOUT d 0 63 52 = 0 ∧
    r0.fld .NOC_TIMEOUT d 0 51 32 = 0x0C350 ∧ r0.fld .NOC_TIMEOUT d 0 31 20 = 0 ∧ r0.fld .NOC_TIMEOUT d 0 19 0 = 0x00032) ∧
  (regAddr .HBM_SCRUB_CFG 0 0 = regAddr .HBM_STATUS 0 0 + 0x8078 ∧ r0.fld .HBM_SCRUB_CFG 0 0 63 32 = 0x00015180 ∧
    r0.fld .HBM_SCRUB_CFG 0 0 31 31 = 1 ∧ r0.fld .HBM_SCRUB_CFG 0 0 30 20 = 0 ∧ r0.fld .HBM_SCRUB_CFG 0 0 19 0 = 0x0000A) ∧
  (∀ x : Fin 9216, regAddr .PDK_PROBE_LEN x 0 = regAddr .PDK_STATUS x 0 + 0x110 ∧ regAddr .PDK_REPLAY_LEN x 0 = regAddr .PDK_STATUS x 0 + 0x190 ∧
    r0.reg .PDK_PROBE_LEN x 0 = 1 ∧ r0.reg .PDK_REPLAY_LEN x 0 = 1) ∧
  ∀ (s : State) (v : Word), s.down = false →
    (∀ p : Fin 4, ∃ t, exec (.registerWrite (at_ .HST_PFC p) v) s = .next t ∧ t = { s with regs := t.regs } ∧
      s.regsBut t [regAddr .HST_PFC p 0] ∧ t.fld .HST_PFC p 0 15 8 = v.fld 15 8 ∧ t.fld .HST_PFC p 0 7 0 = v.fld 7 0 ∧
      (let bad := v.fld 47 32 ≤ v.fld 63 48 ∨ 1008 < v.fld 47 32;
        t.fld .HST_PFC p 0 63 48 = (if bad then s.fld .HST_PFC p 0 63 48 else v.fld 63 48) ∧
        t.fld .HST_PFC p 0 47 32 = (if bad then s.fld .HST_PFC p 0 47 32 else v.fld 47 32)) ∧
      t.fld .HST_PFC p 0 31 16 = s.fld .HST_PFC p 0 31 16) ∧
    (∀ d : Fin 4, ∃ t, exec (.registerWrite (at_ .NOC_TIMEOUT d) v) s = .next t ∧ t = { s with regs := t.regs } ∧
      s.regsBut t [regAddr .NOC_TIMEOUT d 0] ∧
      (∀ f ∈ [(51, 32), (19, 0)], let w := v.fld f.1 f.2;
        t.fld .NOC_TIMEOUT d 0 f.1 f.2 = if w = 0 ∨ 1000000 < w then s.fld .NOC_TIMEOUT d 0 f.1 f.2 else w) ∧
      t.fld .NOC_TIMEOUT d 0 63 52 = s.fld .NOC_TIMEOUT d 0 63 52 ∧ t.fld .NOC_TIMEOUT d 0 31 20 = s.fld .NOC_TIMEOUT d 0 31 20) ∧
    (∃ t, exec (.registerWrite (at_ .HBM_SCRUB_CFG 0) v) s = .next t ∧ t = { s with regs := t.regs } ∧
      s.regsBut t [regAddr .HBM_SCRUB_CFG 0 0] ∧ (t.reg .HBM_SCRUB_CFG 0 0).bit 31 = v.bit 31 ∧
      (∀ f ∈ [(63, 32), (19, 0)], let w := v.fld f.1 f.2;
        t.fld .HBM_SCRUB_CFG 0 0 f.1 f.2 = if w = 0 then s.fld .HBM_SCRUB_CFG 0 0 f.1 f.2 else w) ∧
      t.fld .HBM_SCRUB_CFG 0 0 30 20 = s.fld .HBM_SCRUB_CFG 0 0 30 20) ∧
    (∀ (x : Fin 9216), ∀ r ∈ [Reg.PDK_PROBE_LEN, Reg.PDK_REPLAY_LEN], ∃ t, exec (.registerWrite (at_ r x) v) s = .next t ∧
      t = { s with regs := t.regs } ∧ s.regsBut t [regAddr r x 0] ∧ t.fld r x 0 63 32 = s.fld r x 0 63 32 ∧
      t.fld r x 0 31 0 = if v.fld 31 0 = 0 ∨ v.fld 31 0 = 0xFFFFFFFF then s.fld r x 0 31 0 else v.fld 31 0)
end

