-- ==== Sys2Proof/Laws/SMap.lean ====
section
/-!
SUPPORT. Sparse maps: what a write reads back as, and that every write keeps the canonical form.
-/

namespace Sys2Proof.Machine

variable {α : Type}

@[simp] theorem smGet_nil (d : Nat → α) (k : Nat) : smGet d [] k = d k := rfl

/-- The written key reads as the value written. -/
theorem smGet_smPut_same (d : Nat → α) (m : SMap α) (k : Nat) (v : α) : smGet d (smPut m k v) k = v := by
  induction m with
  | nil => simp [smPut, smGet]
  | cons e t ih =>
    obtain ⟨j, u⟩ := e
    by_cases h1 : k < j
    · simp [smPut, smGet, h1]
    · by_cases h2 : k = j
      · simp [smPut, smGet, h2]
      · simp [smPut, smGet, h1, h2, ih]

/-- Every other key reads as before. -/
theorem smGet_smPut_other (d : Nat → α) (m : SMap α) {k a : Nat} (v : α) (h : a ≠ k) :
    smGet d (smPut m k v) a = smGet d m a := by
  induction m with
  | nil => simp [smPut, smGet, h]
  | cons e t ih =>
    obtain ⟨j, u⟩ := e
    by_cases h1 : k < j
    · simp [smPut, smGet, h1, h]
    · by_cases h2 : k = j
      · subst h2; simp [smPut, smGet, h]
      · by_cases h3 : a = j <;> simp [smPut, smGet, h1, h2, h3, ih]

/-- A dropped key reads as the unlisted value. -/
theorem smGet_smDel_same (d : Nat → α) (m : SMap α) (k : Nat) : smGet d (smDel m k) k = d k := by
  induction m with
  | nil => rfl
  | cons e t ih =>
    obtain ⟨j, u⟩ := e
    by_cases h : k = j <;> simp [smDel, smGet, h]
    · subst h; exact ih
    · exact ih

/-- Every other key reads as before. -/
theorem smGet_smDel_other (d : Nat → α) (m : SMap α) {k a : Nat} (h : a ≠ k) : smGet d (smDel m k) a = smGet d m a := by
  induction m with
  | nil => rfl
  | cons e t ih =>
    obtain ⟨j, u⟩ := e
    by_cases h1 : k = j
    · subst h1; simp [smDel, smGet, h, ih]
    · by_cases h2 : a = j <;> simp [smDel, smGet, h1, h2, ih]

/-- A write reads back. -/
@[simp] theorem smGet_smSet_same [DecidableEq α] (d : Nat → α) (m : SMap α) (k : Nat) (v : α) :
    smGet d (smSet d m k v) k = v := by
  by_cases h : v = d k
  · simp [smSet, h, smGet_smDel_same]
  · simp [smSet, h, smGet_smPut_same]

/-- A write leaves every other key alone. -/
theorem smGet_smSet_other [DecidableEq α] (d : Nat → α) (m : SMap α) {k a : Nat} (v : α) (h : a ≠ k) :
    smGet d (smSet d m k v) a = smGet d m a := by
  by_cases h1 : v = d k
  · simp [smSet, h1, smGet_smDel_other, h]
  · simp [smSet, h1, smGet_smPut_other, h]

/-- The canonical form entry by entry. -/
theorem smWfAbove_cons [DecidableEq α] (d : Nat → α) (lo : Option Nat) (j : Nat) (v : α) (t : SMap α) :
    smWfAbove d lo ((j, v) :: t) = true ↔ (∀ a, lo = some a → a < j) ∧ v ≠ d j ∧ smWfAbove d (some j) t = true := by
  cases lo <;> simp [smWfAbove, and_assoc]

/-- A lower bound may be replaced by a smaller one. -/
theorem smWfAbove_weaken [DecidableEq α] (d : Nat → α) (m : SMap α) {lo hi : Option Nat}
    (h : ∀ a, lo = some a → ∃ b, hi = some b ∧ a ≤ b) (w : smWfAbove d hi m = true) : smWfAbove d lo m = true := by
  cases m with
  | nil => rfl
  | cons e t =>
    obtain ⟨j, v⟩ := e
    rw [smWfAbove_cons] at w ⊢
    refine ⟨fun a ha => ?_, w.2⟩
    obtain ⟨b, hb, hab⟩ := h a ha
    exact Nat.lt_of_le_of_lt hab (w.1 b hb)

/-- The rest of a canonical map is canonical above the same bound. -/
theorem smWfAbove_tail [DecidableEq α] (d : Nat → α) {lo : Option Nat} {j : Nat} {v : α} {t : SMap α}
    (w : smWfAbove d lo ((j, v) :: t) = true) : smWfAbove d lo t = true := by
  rw [smWfAbove_cons] at w
  exact smWfAbove_weaken d t (fun a ha => ⟨j, rfl, Nat.le_of_lt (w.1 a ha)⟩) w.2.2

/-- Dropping a key keeps the canonical form. -/
theorem smWfAbove_smDel [DecidableEq α] (d : Nat → α) (m : SMap α) (k : Nat) (lo : Option Nat) (w : smWfAbove d lo m = true) :
    smWfAbove d lo (smDel m k) = true := by
  induction m generalizing lo with
  | nil => rfl
  | cons e t ih =>
    obtain ⟨j, v⟩ := e
    by_cases h : k = j
    · simp only [smDel, h, if_true]
      exact h ▸ ih lo (smWfAbove_tail d w)
    · simp only [smDel, h, if_false]
      rw [smWfAbove_cons] at w ⊢
      exact ⟨w.1, w.2.1, ih _ w.2.2⟩

/-- Writing a value that an unlisted key does not read as keeps the canonical form. -/
theorem smWfAbove_smPut [DecidableEq α] (d : Nat → α) (m : SMap α) (k : Nat) (v : α) (lo : Option Nat) (hv : v ≠ d k)
    (hlo : ∀ a, lo = some a → a < k) (w : smWfAbove d lo m = true) : smWfAbove d lo (smPut m k v) = true := by
  induction m generalizing lo with
  | nil => exact (smWfAbove_cons ..).2 ⟨hlo, hv, rfl⟩
  | cons e t ih =>
    obtain ⟨j, u⟩ := e
    have w' := (smWfAbove_cons ..).1 w
    by_cases h1 : k < j
    · simp only [smPut, h1, if_true]
      exact (smWfAbove_cons ..).2 ⟨hlo, hv, (smWfAbove_cons ..).2 ⟨by rintro a ⟨⟩; exact h1, w'.2⟩⟩
    · by_cases h2 : k = j
      · subst h2
        simp only [smPut, Nat.lt_irrefl, if_true, if_false]
        exact (smWfAbove_cons ..).2 ⟨hlo, hv, w'.2.2⟩
      · simp only [smPut, h1, h2, if_false]
        exact (smWfAbove_cons ..).2 ⟨w'.1, w'.2.1, ih (some j) (by rintro a ⟨⟩; omega) w'.2.2⟩

/-- Every write keeps the canonical form. -/
theorem smWf_smSet [DecidableEq α] (d : Nat → α) (m : SMap α) (k : Nat) (v : α) (w : smWf d m = true) :
    smWf d (smSet d m k v) = true := by
  by_cases h : v = d k
  · simpa [smSet, h, smWf] using smWfAbove_smDel d m k none w
  · simpa [smSet, h, smWf] using smWfAbove_smPut d m k v none h (by simp) w

/-- A map with some keys left out stays canonical, also for another unlisted value that agrees on the keys kept. -/
theorem smWfAbove_filter [DecidableEq α] (d e : Nat → α) (p : Nat × α → Bool) (m : SMap α) (lo : Option Nat)
    (agree : ∀ c, p c = true → d c.1 = e c.1) (w : smWfAbove d lo m = true) : smWfAbove e lo (m.filter p) = true := by
  induction m generalizing lo with
  | nil => rfl
  | cons c t ih =>
    obtain ⟨j, v⟩ := c
    by_cases hp : p (j, v) = true
    · simp only [List.filter, hp]
      rw [smWfAbove_cons] at w ⊢
      exact ⟨w.1, agree _ hp ▸ w.2.1, ih _ w.2.2⟩
    · simp only [List.filter, Bool.not_eq_true] at hp ⊢
      simp only [hp]
      exact ih lo (smWfAbove_tail d w)

end Sys2Proof.Machine
end

