-- ==== Sys2Proof/Laws/Memory.lean ====
section
/-!
SUPPORT. Memory: what a write reads back as, and that every operation on memory keeps its canonical form.
-/

namespace Sys2Proof.Machine

/-- Memory at reset is canonical. -/
theorem State.reset_memory_wf : Memory.wf State.reset.hbm.undef State.reset.mem = true := rfl

/-- Writing bytes keeps the canonical form. -/
theorem memWrite_wf (d : Nat → Byte) (bs : List Byte) (m : List Host.Cell) (pa : Nat) (w : smWf d m = true) :
    smWf d (memWrite d m pa bs) = true := by
  induction bs generalizing m pa with
  | nil => exact w
  | cons b t ih => exact ih _ _ (smWf_smSet d m pa b w)

/-- A write of memory keeps the canonical form. -/
theorem State.wr_wf (s : State) (pa : Nat) (bs : List Byte) (w : Memory.wf s.hbm.undef s.mem = true) :
    Memory.wf (s.wr pa bs).hbm.undef (s.wr pa bs).mem = true := memWrite_wf _ bs _ pa w

/-- Below and above the bytes written, memory reads as before. -/
theorem smGet_memWrite_outside (d : Nat → Byte) (bs : List Byte) (m : List Host.Cell) (pa a : Nat)
    (h : a < pa ∨ pa + bs.length ≤ a) : smGet d (memWrite d m pa bs) a = smGet d m a := by
  induction bs generalizing m pa with
  | nil => rfl
  | cons b t ih =>
    simp only [List.length_cons] at h
    rw [memWrite, ih _ _ (by omega), smGet_smSet_other _ _ _ (by omega)]

/-- The bytes written read back. -/
theorem smGet_memWrite_inside (d : Nat → Byte) (bs : List Byte) (m : List Host.Cell) (pa i : Nat) (h : i < bs.length) :
    smGet d (memWrite d m pa bs) (pa + i) = bs[i] := by
  induction bs generalizing m pa i with
  | nil => simp at h
  | cons b t ih =>
    cases i with
    | zero =>
      rw [memWrite, smGet_memWrite_outside _ _ _ _ _ (by omega)]
      simp
    | succ j =>
      simp only [List.length_cons] at h
      have := ih (smSet d m pa b) (pa + 1) j (by omega)
      simpa [memWrite, Nat.add_assoc, Nat.add_comm 1 j] using this

/-- Outside the bytes written, memory reads as before. -/
theorem State.rd_wr_outside (s : State) (pa a : Nat) (bs : List Byte) (h : a < pa ∨ pa + bs.length ≤ a) :
    (s.wr pa bs).rd a = s.rd a := smGet_memWrite_outside _ bs _ pa a h

/-- The bytes written read back. -/
theorem State.rd_wr_inside (s : State) (pa i : Nat) (bs : List Byte) (h : i < bs.length) :
    (s.wr pa bs).rd (pa + i) = bs[i] := smGet_memWrite_inside _ bs _ pa i h

/-- A stack that fails keeps the canonical form: its bytes are unlisted afterwards, the others read as before. -/
theorem failStack_wf (u : UndefMem) (l : List UndefMem) (m : List Host.Cell) (w : Memory.wf l m = true) :
    Memory.wf (u :: l) (m.filter (fun c => !u.covers c.1)) = true :=
  smWfAbove_filter _ _ _ m none (fun c h => by simp at h; simp [memDefault, h]) w

/-- Dropping bytes keeps the canonical form. -/
theorem Memory.wf_filter (l : List UndefMem) (p : Host.Cell → Bool) (m : List Host.Cell) (w : Memory.wf l m = true) :
    Memory.wf l (m.filter p) = true := smWfAbove_filter _ _ p m none (fun _ _ => rfl) w

/-- A memory built up by writes is canonical. -/
theorem Memory.wf_foldl (l : List UndefMem) (f : Nat → Nat) (cs acc : List Host.Cell) (w : Memory.wf l acc = true) :
    Memory.wf l (cs.foldl (fun m c => smSet (memDefault l) m (f c.1) c.2) acc) = true := by
  induction cs generalizing acc with
  | nil => exact w
  | cons c t ih => exact ih _ (smWf_smSet _ _ _ _ w)

end Sys2Proof.Machine
end

