-- ==== Sys2Proof/Laws/State.lean ====
section
/-!
SUPPORT. What each update of the state leaves alone, field by field, and what it writes reads back as.
-/

namespace Sys2Proof.Machine

variable (s : State)

/-! ### Replacing a register -/

section
variable (r : Reg) (inst idx : Nat) (v : Word)
@[simp] theorem State.setReg_pending : (s.setReg r inst idx v).pending = s.pending := rfl
@[simp] theorem State.setReg_time : (s.setReg r inst idx v).time = s.time := rfl
@[simp] theorem State.setReg_draws : (s.setReg r inst idx v).draws = s.draws := rfl
@[simp] theorem State.setReg_mem : (s.setReg r inst idx v).mem = s.mem := rfl
@[simp] theorem State.setReg_bad : (s.setReg r inst idx v).bad = s.bad := rfl
@[simp] theorem State.setReg_queues : (s.setReg r inst idx v).queues = s.queues := rfl
@[simp] theorem State.setReg_cmds : (s.setReg r inst idx v).cmds = s.cmds := rfl
@[simp] theorem State.setReg_ctxs : (s.setReg r inst idx v).ctxs = s.ctxs := rfl
@[simp] theorem State.setReg_rings : (s.setReg r inst idx v).rings = s.rings := rfl
@[simp] theorem State.setReg_tethers : (s.setReg r inst idx v).tethers = s.tethers := rfl
@[simp] theorem State.setReg_qps : (s.setReg r inst idx v).qps = s.qps := rfl
@[simp] theorem State.setReg_mrs : (s.setReg r inst idx v).mrs = s.mrs := rfl
@[simp] theorem State.setReg_xold : (s.setReg r inst idx v).xold = s.xold := rfl
@[simp] theorem State.setReg_hostPorts : (s.setReg r inst idx v).hostPorts = s.hostPorts := rfl
@[simp] theorem State.setReg_acs : (s.setReg r inst idx v).acs = s.acs := rfl
@[simp] theorem State.setReg_stls : (s.setReg r inst idx v).stls = s.stls := rfl
@[simp] theorem State.setReg_seqs : (s.setReg r inst idx v).seqs = s.seqs := rfl
@[simp] theorem State.setReg_cfg : (s.setReg r inst idx v).cfg = s.cfg := rfl
@[simp] theorem State.setReg_pdks : (s.setReg r inst idx v).pdks = s.pdks := rfl
@[simp] theorem State.setReg_noc : (s.setReg r inst idx v).noc = s.noc := rfl
@[simp] theorem State.setReg_hbm : (s.setReg r inst idx v).hbm = s.hbm := rfl
@[simp] theorem State.setReg_rein : (s.setReg r inst idx v).rein = s.rein := rfl
@[simp] theorem State.setReg_groom : (s.setReg r inst idx v).groom = s.groom := rfl
@[simp] theorem State.setReg_fuse : (s.setReg r inst idx v).fuse = s.fuse := rfl
@[simp] theorem State.setReg_pwr : (s.setReg r inst idx v).pwr = s.pwr := rfl
@[simp] theorem State.setReg_tap : (s.setReg r inst idx v).tap = s.tap := rfl
@[simp] theorem State.setReg_obs : (s.setReg r inst idx v).obs = s.obs := rfl
@[simp] theorem State.setReg_svc : (s.setReg r inst idx v).svc = s.svc := rfl
@[simp] theorem State.setReg_sent : (s.setReg r inst idx v).sent = s.sent := rfl
end

/-! ### Replacing a field of a register -/

section
variable (r : Reg) (inst idx hi lo v : Nat)
@[simp] theorem State.setFld_pending : (s.setFld r inst idx hi lo v).pending = s.pending := rfl
@[simp] theorem State.setFld_time : (s.setFld r inst idx hi lo v).time = s.time := rfl
@[simp] theorem State.setFld_draws : (s.setFld r inst idx hi lo v).draws = s.draws := rfl
@[simp] theorem State.setFld_mem : (s.setFld r inst idx hi lo v).mem = s.mem := rfl
@[simp] theorem State.setFld_bad : (s.setFld r inst idx hi lo v).bad = s.bad := rfl
@[simp] theorem State.setFld_queues : (s.setFld r inst idx hi lo v).queues = s.queues := rfl
@[simp] theorem State.setFld_cmds : (s.setFld r inst idx hi lo v).cmds = s.cmds := rfl
@[simp] theorem State.setFld_ctxs : (s.setFld r inst idx hi lo v).ctxs = s.ctxs := rfl
@[simp] theorem State.setFld_rings : (s.setFld r inst idx hi lo v).rings = s.rings := rfl
@[simp] theorem State.setFld_tethers : (s.setFld r inst idx hi lo v).tethers = s.tethers := rfl
@[simp] theorem State.setFld_qps : (s.setFld r inst idx hi lo v).qps = s.qps := rfl
@[simp] theorem State.setFld_mrs : (s.setFld r inst idx hi lo v).mrs = s.mrs := rfl
@[simp] theorem State.setFld_xold : (s.setFld r inst idx hi lo v).xold = s.xold := rfl
@[simp] theorem State.setFld_hostPorts : (s.setFld r inst idx hi lo v).hostPorts = s.hostPorts := rfl
@[simp] theorem State.setFld_acs : (s.setFld r inst idx hi lo v).acs = s.acs := rfl
@[simp] theorem State.setFld_stls : (s.setFld r inst idx hi lo v).stls = s.stls := rfl
@[simp] theorem State.setFld_seqs : (s.setFld r inst idx hi lo v).seqs = s.seqs := rfl
@[simp] theorem State.setFld_cfg : (s.setFld r inst idx hi lo v).cfg = s.cfg := rfl
@[simp] theorem State.setFld_pdks : (s.setFld r inst idx hi lo v).pdks = s.pdks := rfl
@[simp] theorem State.setFld_noc : (s.setFld r inst idx hi lo v).noc = s.noc := rfl
@[simp] theorem State.setFld_hbm : (s.setFld r inst idx hi lo v).hbm = s.hbm := rfl
@[simp] theorem State.setFld_rein : (s.setFld r inst idx hi lo v).rein = s.rein := rfl
@[simp] theorem State.setFld_groom : (s.setFld r inst idx hi lo v).groom = s.groom := rfl
@[simp] theorem State.setFld_fuse : (s.setFld r inst idx hi lo v).fuse = s.fuse := rfl
@[simp] theorem State.setFld_pwr : (s.setFld r inst idx hi lo v).pwr = s.pwr := rfl
@[simp] theorem State.setFld_tap : (s.setFld r inst idx hi lo v).tap = s.tap := rfl
@[simp] theorem State.setFld_obs : (s.setFld r inst idx hi lo v).obs = s.obs := rfl
@[simp] theorem State.setFld_svc : (s.setFld r inst idx hi lo v).svc = s.svc := rfl
@[simp] theorem State.setFld_sent : (s.setFld r inst idx hi lo v).sent = s.sent := rfl
end

/-! ### Replacing a counter -/

section
variable (r : Reg) (inst idx n : Nat)
@[simp] theorem State.bump_pending : (s.bump r inst idx n).pending = s.pending := rfl
@[simp] theorem State.bump_time : (s.bump r inst idx n).time = s.time := rfl
@[simp] theorem State.bump_draws : (s.bump r inst idx n).draws = s.draws := rfl
@[simp] theorem State.bump_mem : (s.bump r inst idx n).mem = s.mem := rfl
@[simp] theorem State.bump_bad : (s.bump r inst idx n).bad = s.bad := rfl
@[simp] theorem State.bump_queues : (s.bump r inst idx n).queues = s.queues := rfl
@[simp] theorem State.bump_cmds : (s.bump r inst idx n).cmds = s.cmds := rfl
@[simp] theorem State.bump_ctxs : (s.bump r inst idx n).ctxs = s.ctxs := rfl
@[simp] theorem State.bump_rings : (s.bump r inst idx n).rings = s.rings := rfl
@[simp] theorem State.bump_tethers : (s.bump r inst idx n).tethers = s.tethers := rfl
@[simp] theorem State.bump_qps : (s.bump r inst idx n).qps = s.qps := rfl
@[simp] theorem State.bump_mrs : (s.bump r inst idx n).mrs = s.mrs := rfl
@[simp] theorem State.bump_xold : (s.bump r inst idx n).xold = s.xold := rfl
@[simp] theorem State.bump_hostPorts : (s.bump r inst idx n).hostPorts = s.hostPorts := rfl
@[simp] theorem State.bump_acs : (s.bump r inst idx n).acs = s.acs := rfl
@[simp] theorem State.bump_stls : (s.bump r inst idx n).stls = s.stls := rfl
@[simp] theorem State.bump_seqs : (s.bump r inst idx n).seqs = s.seqs := rfl
@[simp] theorem State.bump_cfg : (s.bump r inst idx n).cfg = s.cfg := rfl
@[simp] theorem State.bump_pdks : (s.bump r inst idx n).pdks = s.pdks := rfl
@[simp] theorem State.bump_noc : (s.bump r inst idx n).noc = s.noc := rfl
@[simp] theorem State.bump_hbm : (s.bump r inst idx n).hbm = s.hbm := rfl
@[simp] theorem State.bump_rein : (s.bump r inst idx n).rein = s.rein := rfl
@[simp] theorem State.bump_groom : (s.bump r inst idx n).groom = s.groom := rfl
@[simp] theorem State.bump_fuse : (s.bump r inst idx n).fuse = s.fuse := rfl
@[simp] theorem State.bump_pwr : (s.bump r inst idx n).pwr = s.pwr := rfl
@[simp] theorem State.bump_tap : (s.bump r inst idx n).tap = s.tap := rfl
@[simp] theorem State.bump_obs : (s.bump r inst idx n).obs = s.obs := rfl
@[simp] theorem State.bump_svc : (s.bump r inst idx n).svc = s.svc := rfl
@[simp] theorem State.bump_sent : (s.bump r inst idx n).sent = s.sent := rfl
end

/-! ### Replacing memory -/

section
variable (pa : Nat) (bs : List Byte)
@[simp] theorem State.wr_pending : (s.wr pa bs).pending = s.pending := rfl
@[simp] theorem State.wr_time : (s.wr pa bs).time = s.time := rfl
@[simp] theorem State.wr_draws : (s.wr pa bs).draws = s.draws := rfl
@[simp] theorem State.wr_regs : (s.wr pa bs).regs = s.regs := rfl
@[simp] theorem State.wr_queues : (s.wr pa bs).queues = s.queues := rfl
@[simp] theorem State.wr_cmds : (s.wr pa bs).cmds = s.cmds := rfl
@[simp] theorem State.wr_ctxs : (s.wr pa bs).ctxs = s.ctxs := rfl
@[simp] theorem State.wr_rings : (s.wr pa bs).rings = s.rings := rfl
@[simp] theorem State.wr_tethers : (s.wr pa bs).tethers = s.tethers := rfl
@[simp] theorem State.wr_qps : (s.wr pa bs).qps = s.qps := rfl
@[simp] theorem State.wr_mrs : (s.wr pa bs).mrs = s.mrs := rfl
@[simp] theorem State.wr_xold : (s.wr pa bs).xold = s.xold := rfl
@[simp] theorem State.wr_hostPorts : (s.wr pa bs).hostPorts = s.hostPorts := rfl
@[simp] theorem State.wr_acs : (s.wr pa bs).acs = s.acs := rfl
@[simp] theorem State.wr_stls : (s.wr pa bs).stls = s.stls := rfl
@[simp] theorem State.wr_seqs : (s.wr pa bs).seqs = s.seqs := rfl
@[simp] theorem State.wr_cfg : (s.wr pa bs).cfg = s.cfg := rfl
@[simp] theorem State.wr_pdks : (s.wr pa bs).pdks = s.pdks := rfl
@[simp] theorem State.wr_noc : (s.wr pa bs).noc = s.noc := rfl
@[simp] theorem State.wr_hbm : (s.wr pa bs).hbm = s.hbm := rfl
@[simp] theorem State.wr_rein : (s.wr pa bs).rein = s.rein := rfl
@[simp] theorem State.wr_groom : (s.wr pa bs).groom = s.groom := rfl
@[simp] theorem State.wr_fuse : (s.wr pa bs).fuse = s.fuse := rfl
@[simp] theorem State.wr_pwr : (s.wr pa bs).pwr = s.pwr := rfl
@[simp] theorem State.wr_tap : (s.wr pa bs).tap = s.tap := rfl
@[simp] theorem State.wr_obs : (s.wr pa bs).obs = s.obs := rfl
@[simp] theorem State.wr_svc : (s.wr pa bs).svc = s.svc := rfl
@[simp] theorem State.wr_sent : (s.wr pa bs).sent = s.sent := rfl
end

/-! ### Replacing the event queue -/

section
variable (blk inst bit code queue : Nat) (corral : Option Nat) (detail : Nat)
@[simp] theorem State.pushEvent_pending : (s.pushEvent blk inst bit code queue corral detail).pending = s.pending := rfl
@[simp] theorem State.pushEvent_time : (s.pushEvent blk inst bit code queue corral detail).time = s.time := rfl
@[simp] theorem State.pushEvent_draws : (s.pushEvent blk inst bit code queue corral detail).draws = s.draws := rfl
@[simp] theorem State.pushEvent_regs : (s.pushEvent blk inst bit code queue corral detail).regs = s.regs := rfl
@[simp] theorem State.pushEvent_mem : (s.pushEvent blk inst bit code queue corral detail).mem = s.mem := rfl
@[simp] theorem State.pushEvent_bad : (s.pushEvent blk inst bit code queue corral detail).bad = s.bad := rfl
@[simp] theorem State.pushEvent_queues : (s.pushEvent blk inst bit code queue corral detail).queues = s.queues := rfl
@[simp] theorem State.pushEvent_cmds : (s.pushEvent blk inst bit code queue corral detail).cmds = s.cmds := rfl
@[simp] theorem State.pushEvent_ctxs : (s.pushEvent blk inst bit code queue corral detail).ctxs = s.ctxs := rfl
@[simp] theorem State.pushEvent_rings : (s.pushEvent blk inst bit code queue corral detail).rings = s.rings := rfl
@[simp] theorem State.pushEvent_tethers : (s.pushEvent blk inst bit code queue corral detail).tethers = s.tethers := rfl
@[simp] theorem State.pushEvent_qps : (s.pushEvent blk inst bit code queue corral detail).qps = s.qps := rfl
@[simp] theorem State.pushEvent_mrs : (s.pushEvent blk inst bit code queue corral detail).mrs = s.mrs := rfl
@[simp] theorem State.pushEvent_xold : (s.pushEvent blk inst bit code queue corral detail).xold = s.xold := rfl
@[simp] theorem State.pushEvent_hostPorts : (s.pushEvent blk inst bit code queue corral detail).hostPorts = s.hostPorts := rfl
@[simp] theorem State.pushEvent_acs : (s.pushEvent blk inst bit code queue corral detail).acs = s.acs := rfl
@[simp] theorem State.pushEvent_stls : (s.pushEvent blk inst bit code queue corral detail).stls = s.stls := rfl
@[simp] theorem State.pushEvent_seqs : (s.pushEvent blk inst bit code queue corral detail).seqs = s.seqs := rfl
@[simp] theorem State.pushEvent_cfg : (s.pushEvent blk inst bit code queue corral detail).cfg = s.cfg := rfl
@[simp] theorem State.pushEvent_pdks : (s.pushEvent blk inst bit code queue corral detail).pdks = s.pdks := rfl
@[simp] theorem State.pushEvent_noc : (s.pushEvent blk inst bit code queue corral detail).noc = s.noc := rfl
@[simp] theorem State.pushEvent_hbm : (s.pushEvent blk inst bit code queue corral detail).hbm = s.hbm := rfl
@[simp] theorem State.pushEvent_rein : (s.pushEvent blk inst bit code queue corral detail).rein = s.rein := rfl
@[simp] theorem State.pushEvent_groom : (s.pushEvent blk inst bit code queue corral detail).groom = s.groom := rfl
@[simp] theorem State.pushEvent_fuse : (s.pushEvent blk inst bit code queue corral detail).fuse = s.fuse := rfl
@[simp] theorem State.pushEvent_pwr : (s.pushEvent blk inst bit code queue corral detail).pwr = s.pwr := rfl
@[simp] theorem State.pushEvent_tap : (s.pushEvent blk inst bit code queue corral detail).tap = s.tap := rfl
@[simp] theorem State.pushEvent_obs : (s.pushEvent blk inst bit code queue corral detail).obs = s.obs := rfl
@[simp] theorem State.pushEvent_sent : (s.pushEvent blk inst bit code queue corral detail).sent = s.sent := rfl
end

/-! ### Replacing a queue -/

section
variable (q : Nat) (v : QueueSt)
@[simp] theorem State.setQueue_pending : (s.setQueue q v).pending = s.pending := rfl
@[simp] theorem State.setQueue_time : (s.setQueue q v).time = s.time := rfl
@[simp] theorem State.setQueue_draws : (s.setQueue q v).draws = s.draws := rfl
@[simp] theorem State.setQueue_regs : (s.setQueue q v).regs = s.regs := rfl
@[simp] theorem State.setQueue_mem : (s.setQueue q v).mem = s.mem := rfl
@[simp] theorem State.setQueue_bad : (s.setQueue q v).bad = s.bad := rfl
@[simp] theorem State.setQueue_cmds : (s.setQueue q v).cmds = s.cmds := rfl
@[simp] theorem State.setQueue_ctxs : (s.setQueue q v).ctxs = s.ctxs := rfl
@[simp] theorem State.setQueue_rings : (s.setQueue q v).rings = s.rings := rfl
@[simp] theorem State.setQueue_tethers : (s.setQueue q v).tethers = s.tethers := rfl
@[simp] theorem State.setQueue_qps : (s.setQueue q v).qps = s.qps := rfl
@[simp] theorem State.setQueue_mrs : (s.setQueue q v).mrs = s.mrs := rfl
@[simp] theorem State.setQueue_xold : (s.setQueue q v).xold = s.xold := rfl
@[simp] theorem State.setQueue_hostPorts : (s.setQueue q v).hostPorts = s.hostPorts := rfl
@[simp] theorem State.setQueue_acs : (s.setQueue q v).acs = s.acs := rfl
@[simp] theorem State.setQueue_stls : (s.setQueue q v).stls = s.stls := rfl
@[simp] theorem State.setQueue_seqs : (s.setQueue q v).seqs = s.seqs := rfl
@[simp] theorem State.setQueue_cfg : (s.setQueue q v).cfg = s.cfg := rfl
@[simp] theorem State.setQueue_pdks : (s.setQueue q v).pdks = s.pdks := rfl
@[simp] theorem State.setQueue_noc : (s.setQueue q v).noc = s.noc := rfl
@[simp] theorem State.setQueue_hbm : (s.setQueue q v).hbm = s.hbm := rfl
@[simp] theorem State.setQueue_rein : (s.setQueue q v).rein = s.rein := rfl
@[simp] theorem State.setQueue_groom : (s.setQueue q v).groom = s.groom := rfl
@[simp] theorem State.setQueue_fuse : (s.setQueue q v).fuse = s.fuse := rfl
@[simp] theorem State.setQueue_pwr : (s.setQueue q v).pwr = s.pwr := rfl
@[simp] theorem State.setQueue_tap : (s.setQueue q v).tap = s.tap := rfl
@[simp] theorem State.setQueue_obs : (s.setQueue q v).obs = s.obs := rfl
@[simp] theorem State.setQueue_svc : (s.setQueue q v).svc = s.svc := rfl
@[simp] theorem State.setQueue_sent : (s.setQueue q v).sent = s.sent := rfl
end

/-! ### Replacing a command -/

section
variable (c : Cmd)
@[simp] theorem State.setCmd_pending : (s.setCmd c).pending = s.pending := rfl
@[simp] theorem State.setCmd_time : (s.setCmd c).time = s.time := rfl
@[simp] theorem State.setCmd_draws : (s.setCmd c).draws = s.draws := rfl
@[simp] theorem State.setCmd_regs : (s.setCmd c).regs = s.regs := rfl
@[simp] theorem State.setCmd_mem : (s.setCmd c).mem = s.mem := rfl
@[simp] theorem State.setCmd_bad : (s.setCmd c).bad = s.bad := rfl
@[simp] theorem State.setCmd_queues : (s.setCmd c).queues = s.queues := rfl
@[simp] theorem State.setCmd_ctxs : (s.setCmd c).ctxs = s.ctxs := rfl
@[simp] theorem State.setCmd_rings : (s.setCmd c).rings = s.rings := rfl
@[simp] theorem State.setCmd_tethers : (s.setCmd c).tethers = s.tethers := rfl
@[simp] theorem State.setCmd_qps : (s.setCmd c).qps = s.qps := rfl
@[simp] theorem State.setCmd_mrs : (s.setCmd c).mrs = s.mrs := rfl
@[simp] theorem State.setCmd_xold : (s.setCmd c).xold = s.xold := rfl
@[simp] theorem State.setCmd_hostPorts : (s.setCmd c).hostPorts = s.hostPorts := rfl
@[simp] theorem State.setCmd_acs : (s.setCmd c).acs = s.acs := rfl
@[simp] theorem State.setCmd_stls : (s.setCmd c).stls = s.stls := rfl
@[simp] theorem State.setCmd_seqs : (s.setCmd c).seqs = s.seqs := rfl
@[simp] theorem State.setCmd_cfg : (s.setCmd c).cfg = s.cfg := rfl
@[simp] theorem State.setCmd_pdks : (s.setCmd c).pdks = s.pdks := rfl
@[simp] theorem State.setCmd_noc : (s.setCmd c).noc = s.noc := rfl
@[simp] theorem State.setCmd_hbm : (s.setCmd c).hbm = s.hbm := rfl
@[simp] theorem State.setCmd_rein : (s.setCmd c).rein = s.rein := rfl
@[simp] theorem State.setCmd_groom : (s.setCmd c).groom = s.groom := rfl
@[simp] theorem State.setCmd_fuse : (s.setCmd c).fuse = s.fuse := rfl
@[simp] theorem State.setCmd_pwr : (s.setCmd c).pwr = s.pwr := rfl
@[simp] theorem State.setCmd_tap : (s.setCmd c).tap = s.tap := rfl
@[simp] theorem State.setCmd_obs : (s.setCmd c).obs = s.obs := rfl
@[simp] theorem State.setCmd_svc : (s.setCmd c).svc = s.svc := rfl
@[simp] theorem State.setCmd_sent : (s.setCmd c).sent = s.sent := rfl
end

/-! ### Replacing a stream context -/

section
variable (i : Nat) (v : StreamCtx)
@[simp] theorem State.setCtx_pending : (s.setCtx i v).pending = s.pending := rfl
@[simp] theorem State.setCtx_time : (s.setCtx i v).time = s.time := rfl
@[simp] theorem State.setCtx_draws : (s.setCtx i v).draws = s.draws := rfl
@[simp] theorem State.setCtx_regs : (s.setCtx i v).regs = s.regs := rfl
@[simp] theorem State.setCtx_mem : (s.setCtx i v).mem = s.mem := rfl
@[simp] theorem State.setCtx_bad : (s.setCtx i v).bad = s.bad := rfl
@[simp] theorem State.setCtx_queues : (s.setCtx i v).queues = s.queues := rfl
@[simp] theorem State.setCtx_cmds : (s.setCtx i v).cmds = s.cmds := rfl
@[simp] theorem State.setCtx_rings : (s.setCtx i v).rings = s.rings := rfl
@[simp] theorem State.setCtx_tethers : (s.setCtx i v).tethers = s.tethers := rfl
@[simp] theorem State.setCtx_qps : (s.setCtx i v).qps = s.qps := rfl
@[simp] theorem State.setCtx_mrs : (s.setCtx i v).mrs = s.mrs := rfl
@[simp] theorem State.setCtx_xold : (s.setCtx i v).xold = s.xold := rfl
@[simp] theorem State.setCtx_hostPorts : (s.setCtx i v).hostPorts = s.hostPorts := rfl
@[simp] theorem State.setCtx_acs : (s.setCtx i v).acs = s.acs := rfl
@[simp] theorem State.setCtx_stls : (s.setCtx i v).stls = s.stls := rfl
@[simp] theorem State.setCtx_seqs : (s.setCtx i v).seqs = s.seqs := rfl
@[simp] theorem State.setCtx_cfg : (s.setCtx i v).cfg = s.cfg := rfl
@[simp] theorem State.setCtx_pdks : (s.setCtx i v).pdks = s.pdks := rfl
@[simp] theorem State.setCtx_noc : (s.setCtx i v).noc = s.noc := rfl
@[simp] theorem State.setCtx_hbm : (s.setCtx i v).hbm = s.hbm := rfl
@[simp] theorem State.setCtx_rein : (s.setCtx i v).rein = s.rein := rfl
@[simp] theorem State.setCtx_groom : (s.setCtx i v).groom = s.groom := rfl
@[simp] theorem State.setCtx_fuse : (s.setCtx i v).fuse = s.fuse := rfl
@[simp] theorem State.setCtx_pwr : (s.setCtx i v).pwr = s.pwr := rfl
@[simp] theorem State.setCtx_tap : (s.setCtx i v).tap = s.tap := rfl
@[simp] theorem State.setCtx_obs : (s.setCtx i v).obs = s.obs := rfl
@[simp] theorem State.setCtx_svc : (s.setCtx i v).svc = s.svc := rfl
@[simp] theorem State.setCtx_sent : (s.setCtx i v).sent = s.sent := rfl
end

/-! ### Replacing a sequencer -/

section
variable (i : Nat) (v : SeqSt)
@[simp] theorem State.setSeqr_pending : (s.setSeqr i v).pending = s.pending := rfl
@[simp] theorem State.setSeqr_time : (s.setSeqr i v).time = s.time := rfl
@[simp] theorem State.setSeqr_draws : (s.setSeqr i v).draws = s.draws := rfl
@[simp] theorem State.setSeqr_regs : (s.setSeqr i v).regs = s.regs := rfl
@[simp] theorem State.setSeqr_mem : (s.setSeqr i v).mem = s.mem := rfl
@[simp] theorem State.setSeqr_bad : (s.setSeqr i v).bad = s.bad := rfl
@[simp] theorem State.setSeqr_queues : (s.setSeqr i v).queues = s.queues := rfl
@[simp] theorem State.setSeqr_cmds : (s.setSeqr i v).cmds = s.cmds := rfl
@[simp] theorem State.setSeqr_ctxs : (s.setSeqr i v).ctxs = s.ctxs := rfl
@[simp] theorem State.setSeqr_rings : (s.setSeqr i v).rings = s.rings := rfl
@[simp] theorem State.setSeqr_tethers : (s.setSeqr i v).tethers = s.tethers := rfl
@[simp] theorem State.setSeqr_qps : (s.setSeqr i v).qps = s.qps := rfl
@[simp] theorem State.setSeqr_mrs : (s.setSeqr i v).mrs = s.mrs := rfl
@[simp] theorem State.setSeqr_xold : (s.setSeqr i v).xold = s.xold := rfl
@[simp] theorem State.setSeqr_hostPorts : (s.setSeqr i v).hostPorts = s.hostPorts := rfl
@[simp] theorem State.setSeqr_acs : (s.setSeqr i v).acs = s.acs := rfl
@[simp] theorem State.setSeqr_stls : (s.setSeqr i v).stls = s.stls := rfl
@[simp] theorem State.setSeqr_cfg : (s.setSeqr i v).cfg = s.cfg := rfl
@[simp] theorem State.setSeqr_pdks : (s.setSeqr i v).pdks = s.pdks := rfl
@[simp] theorem State.setSeqr_noc : (s.setSeqr i v).noc = s.noc := rfl
@[simp] theorem State.setSeqr_hbm : (s.setSeqr i v).hbm = s.hbm := rfl
@[simp] theorem State.setSeqr_rein : (s.setSeqr i v).rein = s.rein := rfl
@[simp] theorem State.setSeqr_groom : (s.setSeqr i v).groom = s.groom := rfl
@[simp] theorem State.setSeqr_fuse : (s.setSeqr i v).fuse = s.fuse := rfl
@[simp] theorem State.setSeqr_pwr : (s.setSeqr i v).pwr = s.pwr := rfl
@[simp] theorem State.setSeqr_tap : (s.setSeqr i v).tap = s.tap := rfl
@[simp] theorem State.setSeqr_obs : (s.setSeqr i v).obs = s.obs := rfl
@[simp] theorem State.setSeqr_svc : (s.setSeqr i v).svc = s.svc := rfl
@[simp] theorem State.setSeqr_sent : (s.setSeqr i v).sent = s.sent := rfl
end

/-! ### Replacing a queue pair -/

section
variable (i : Nat) (v : QpSt)
@[simp] theorem State.setQp_pending : (s.setQp i v).pending = s.pending := rfl
@[simp] theorem State.setQp_time : (s.setQp i v).time = s.time := rfl
@[simp] theorem State.setQp_draws : (s.setQp i v).draws = s.draws := rfl
@[simp] theorem State.setQp_regs : (s.setQp i v).regs = s.regs := rfl
@[simp] theorem State.setQp_mem : (s.setQp i v).mem = s.mem := rfl
@[simp] theorem State.setQp_bad : (s.setQp i v).bad = s.bad := rfl
@[simp] theorem State.setQp_queues : (s.setQp i v).queues = s.queues := rfl
@[simp] theorem State.setQp_cmds : (s.setQp i v).cmds = s.cmds := rfl
@[simp] theorem State.setQp_ctxs : (s.setQp i v).ctxs = s.ctxs := rfl
@[simp] theorem State.setQp_rings : (s.setQp i v).rings = s.rings := rfl
@[simp] theorem State.setQp_tethers : (s.setQp i v).tethers = s.tethers := rfl
@[simp] theorem State.setQp_mrs : (s.setQp i v).mrs = s.mrs := rfl
@[simp] theorem State.setQp_xold : (s.setQp i v).xold = s.xold := rfl
@[simp] theorem State.setQp_hostPorts : (s.setQp i v).hostPorts = s.hostPorts := rfl
@[simp] theorem State.setQp_acs : (s.setQp i v).acs = s.acs := rfl
@[simp] theorem State.setQp_stls : (s.setQp i v).stls = s.stls := rfl
@[simp] theorem State.setQp_seqs : (s.setQp i v).seqs = s.seqs := rfl
@[simp] theorem State.setQp_cfg : (s.setQp i v).cfg = s.cfg := rfl
@[simp] theorem State.setQp_pdks : (s.setQp i v).pdks = s.pdks := rfl
@[simp] theorem State.setQp_noc : (s.setQp i v).noc = s.noc := rfl
@[simp] theorem State.setQp_hbm : (s.setQp i v).hbm = s.hbm := rfl
@[simp] theorem State.setQp_rein : (s.setQp i v).rein = s.rein := rfl
@[simp] theorem State.setQp_groom : (s.setQp i v).groom = s.groom := rfl
@[simp] theorem State.setQp_fuse : (s.setQp i v).fuse = s.fuse := rfl
@[simp] theorem State.setQp_pwr : (s.setQp i v).pwr = s.pwr := rfl
@[simp] theorem State.setQp_tap : (s.setQp i v).tap = s.tap := rfl
@[simp] theorem State.setQp_obs : (s.setQp i v).obs = s.obs := rfl
@[simp] theorem State.setQp_svc : (s.setQp i v).svc = s.svc := rfl
@[simp] theorem State.setQp_sent : (s.setQp i v).sent = s.sent := rfl
end

/-! ### Replacing a host port -/

section
variable (i : Nat) (v : HostPort)
@[simp] theorem State.setHostPort_pending : (s.setHostPort i v).pending = s.pending := rfl
@[simp] theorem State.setHostPort_time : (s.setHostPort i v).time = s.time := rfl
@[simp] theorem State.setHostPort_draws : (s.setHostPort i v).draws = s.draws := rfl
@[simp] theorem State.setHostPort_regs : (s.setHostPort i v).regs = s.regs := rfl
@[simp] theorem State.setHostPort_mem : (s.setHostPort i v).mem = s.mem := rfl
@[simp] theorem State.setHostPort_bad : (s.setHostPort i v).bad = s.bad := rfl
@[simp] theorem State.setHostPort_queues : (s.setHostPort i v).queues = s.queues := rfl
@[simp] theorem State.setHostPort_cmds : (s.setHostPort i v).cmds = s.cmds := rfl
@[simp] theorem State.setHostPort_ctxs : (s.setHostPort i v).ctxs = s.ctxs := rfl
@[simp] theorem State.setHostPort_rings : (s.setHostPort i v).rings = s.rings := rfl
@[simp] theorem State.setHostPort_tethers : (s.setHostPort i v).tethers = s.tethers := rfl
@[simp] theorem State.setHostPort_qps : (s.setHostPort i v).qps = s.qps := rfl
@[simp] theorem State.setHostPort_mrs : (s.setHostPort i v).mrs = s.mrs := rfl
@[simp] theorem State.setHostPort_xold : (s.setHostPort i v).xold = s.xold := rfl
@[simp] theorem State.setHostPort_acs : (s.setHostPort i v).acs = s.acs := rfl
@[simp] theorem State.setHostPort_stls : (s.setHostPort i v).stls = s.stls := rfl
@[simp] theorem State.setHostPort_seqs : (s.setHostPort i v).seqs = s.seqs := rfl
@[simp] theorem State.setHostPort_cfg : (s.setHostPort i v).cfg = s.cfg := rfl
@[simp] theorem State.setHostPort_pdks : (s.setHostPort i v).pdks = s.pdks := rfl
@[simp] theorem State.setHostPort_noc : (s.setHostPort i v).noc = s.noc := rfl
@[simp] theorem State.setHostPort_hbm : (s.setHostPort i v).hbm = s.hbm := rfl
@[simp] theorem State.setHostPort_rein : (s.setHostPort i v).rein = s.rein := rfl
@[simp] theorem State.setHostPort_groom : (s.setHostPort i v).groom = s.groom := rfl
@[simp] theorem State.setHostPort_fuse : (s.setHostPort i v).fuse = s.fuse := rfl
@[simp] theorem State.setHostPort_pwr : (s.setHostPort i v).pwr = s.pwr := rfl
@[simp] theorem State.setHostPort_tap : (s.setHostPort i v).tap = s.tap := rfl
@[simp] theorem State.setHostPort_obs : (s.setHostPort i v).obs = s.obs := rfl
@[simp] theorem State.setHostPort_svc : (s.setHostPort i v).svc = s.svc := rfl
@[simp] theorem State.setHostPort_sent : (s.setHostPort i v).sent = s.sent := rfl
end

/-! ### Replacing a paddock -/

section
variable (i : Nat) (v : PdkSt)
@[simp] theorem State.setPdk_pending : (s.setPdk i v).pending = s.pending := rfl
@[simp] theorem State.setPdk_time : (s.setPdk i v).time = s.time := rfl
@[simp] theorem State.setPdk_draws : (s.setPdk i v).draws = s.draws := rfl
@[simp] theorem State.setPdk_regs : (s.setPdk i v).regs = s.regs := rfl
@[simp] theorem State.setPdk_mem : (s.setPdk i v).mem = s.mem := rfl
@[simp] theorem State.setPdk_bad : (s.setPdk i v).bad = s.bad := rfl
@[simp] theorem State.setPdk_queues : (s.setPdk i v).queues = s.queues := rfl
@[simp] theorem State.setPdk_cmds : (s.setPdk i v).cmds = s.cmds := rfl
@[simp] theorem State.setPdk_ctxs : (s.setPdk i v).ctxs = s.ctxs := rfl
@[simp] theorem State.setPdk_rings : (s.setPdk i v).rings = s.rings := rfl
@[simp] theorem State.setPdk_tethers : (s.setPdk i v).tethers = s.tethers := rfl
@[simp] theorem State.setPdk_qps : (s.setPdk i v).qps = s.qps := rfl
@[simp] theorem State.setPdk_mrs : (s.setPdk i v).mrs = s.mrs := rfl
@[simp] theorem State.setPdk_xold : (s.setPdk i v).xold = s.xold := rfl
@[simp] theorem State.setPdk_hostPorts : (s.setPdk i v).hostPorts = s.hostPorts := rfl
@[simp] theorem State.setPdk_acs : (s.setPdk i v).acs = s.acs := rfl
@[simp] theorem State.setPdk_stls : (s.setPdk i v).stls = s.stls := rfl
@[simp] theorem State.setPdk_seqs : (s.setPdk i v).seqs = s.seqs := rfl
@[simp] theorem State.setPdk_cfg : (s.setPdk i v).cfg = s.cfg := rfl
@[simp] theorem State.setPdk_noc : (s.setPdk i v).noc = s.noc := rfl
@[simp] theorem State.setPdk_hbm : (s.setPdk i v).hbm = s.hbm := rfl
@[simp] theorem State.setPdk_rein : (s.setPdk i v).rein = s.rein := rfl
@[simp] theorem State.setPdk_groom : (s.setPdk i v).groom = s.groom := rfl
@[simp] theorem State.setPdk_fuse : (s.setPdk i v).fuse = s.fuse := rfl
@[simp] theorem State.setPdk_pwr : (s.setPdk i v).pwr = s.pwr := rfl
@[simp] theorem State.setPdk_tap : (s.setPdk i v).tap = s.tap := rfl
@[simp] theorem State.setPdk_obs : (s.setPdk i v).obs = s.obs := rfl
@[simp] theorem State.setPdk_svc : (s.setPdk i v).svc = s.svc := rfl
@[simp] theorem State.setPdk_sent : (s.setPdk i v).sent = s.sent := rfl
end

/-! ### Replacing a rein port -/

section
variable (i : Nat) (v : PortSt)
@[simp] theorem State.setPort_pending : (s.setPort i v).pending = s.pending := rfl
@[simp] theorem State.setPort_time : (s.setPort i v).time = s.time := rfl
@[simp] theorem State.setPort_draws : (s.setPort i v).draws = s.draws := rfl
@[simp] theorem State.setPort_regs : (s.setPort i v).regs = s.regs := rfl
@[simp] theorem State.setPort_mem : (s.setPort i v).mem = s.mem := rfl
@[simp] theorem State.setPort_bad : (s.setPort i v).bad = s.bad := rfl
@[simp] theorem State.setPort_queues : (s.setPort i v).queues = s.queues := rfl
@[simp] theorem State.setPort_cmds : (s.setPort i v).cmds = s.cmds := rfl
@[simp] theorem State.setPort_ctxs : (s.setPort i v).ctxs = s.ctxs := rfl
@[simp] theorem State.setPort_rings : (s.setPort i v).rings = s.rings := rfl
@[simp] theorem State.setPort_tethers : (s.setPort i v).tethers = s.tethers := rfl
@[simp] theorem State.setPort_qps : (s.setPort i v).qps = s.qps := rfl
@[simp] theorem State.setPort_mrs : (s.setPort i v).mrs = s.mrs := rfl
@[simp] theorem State.setPort_xold : (s.setPort i v).xold = s.xold := rfl
@[simp] theorem State.setPort_hostPorts : (s.setPort i v).hostPorts = s.hostPorts := rfl
@[simp] theorem State.setPort_acs : (s.setPort i v).acs = s.acs := rfl
@[simp] theorem State.setPort_stls : (s.setPort i v).stls = s.stls := rfl
@[simp] theorem State.setPort_seqs : (s.setPort i v).seqs = s.seqs := rfl
@[simp] theorem State.setPort_cfg : (s.setPort i v).cfg = s.cfg := rfl
@[simp] theorem State.setPort_pdks : (s.setPort i v).pdks = s.pdks := rfl
@[simp] theorem State.setPort_noc : (s.setPort i v).noc = s.noc := rfl
@[simp] theorem State.setPort_hbm : (s.setPort i v).hbm = s.hbm := rfl
@[simp] theorem State.setPort_groom : (s.setPort i v).groom = s.groom := rfl
@[simp] theorem State.setPort_fuse : (s.setPort i v).fuse = s.fuse := rfl
@[simp] theorem State.setPort_pwr : (s.setPort i v).pwr = s.pwr := rfl
@[simp] theorem State.setPort_tap : (s.setPort i v).tap = s.tap := rfl
@[simp] theorem State.setPort_obs : (s.setPort i v).obs = s.obs := rfl
@[simp] theorem State.setPort_svc : (s.setPort i v).svc = s.svc := rfl
@[simp] theorem State.setPort_sent : (s.setPort i v).sent = s.sent := rfl
end

/-! ### Replacing an HBM controller -/

section
variable (st c : Nat) (v : CtrlSt)
@[simp] theorem State.setCtrl_pending : (s.setCtrl st c v).pending = s.pending := rfl
@[simp] theorem State.setCtrl_time : (s.setCtrl st c v).time = s.time := rfl
@[simp] theorem State.setCtrl_draws : (s.setCtrl st c v).draws = s.draws := rfl
@[simp] theorem State.setCtrl_regs : (s.setCtrl st c v).regs = s.regs := rfl
@[simp] theorem State.setCtrl_mem : (s.setCtrl st c v).mem = s.mem := rfl
@[simp] theorem State.setCtrl_bad : (s.setCtrl st c v).bad = s.bad := rfl
@[simp] theorem State.setCtrl_queues : (s.setCtrl st c v).queues = s.queues := rfl
@[simp] theorem State.setCtrl_cmds : (s.setCtrl st c v).cmds = s.cmds := rfl
@[simp] theorem State.setCtrl_ctxs : (s.setCtrl st c v).ctxs = s.ctxs := rfl
@[simp] theorem State.setCtrl_rings : (s.setCtrl st c v).rings = s.rings := rfl
@[simp] theorem State.setCtrl_tethers : (s.setCtrl st c v).tethers = s.tethers := rfl
@[simp] theorem State.setCtrl_qps : (s.setCtrl st c v).qps = s.qps := rfl
@[simp] theorem State.setCtrl_mrs : (s.setCtrl st c v).mrs = s.mrs := rfl
@[simp] theorem State.setCtrl_xold : (s.setCtrl st c v).xold = s.xold := rfl
@[simp] theorem State.setCtrl_hostPorts : (s.setCtrl st c v).hostPorts = s.hostPorts := rfl
@[simp] theorem State.setCtrl_acs : (s.setCtrl st c v).acs = s.acs := rfl
@[simp] theorem State.setCtrl_stls : (s.setCtrl st c v).stls = s.stls := rfl
@[simp] theorem State.setCtrl_seqs : (s.setCtrl st c v).seqs = s.seqs := rfl
@[simp] theorem State.setCtrl_cfg : (s.setCtrl st c v).cfg = s.cfg := rfl
@[simp] theorem State.setCtrl_pdks : (s.setCtrl st c v).pdks = s.pdks := rfl
@[simp] theorem State.setCtrl_noc : (s.setCtrl st c v).noc = s.noc := rfl
@[simp] theorem State.setCtrl_rein : (s.setCtrl st c v).rein = s.rein := rfl
@[simp] theorem State.setCtrl_groom : (s.setCtrl st c v).groom = s.groom := rfl
@[simp] theorem State.setCtrl_fuse : (s.setCtrl st c v).fuse = s.fuse := rfl
@[simp] theorem State.setCtrl_pwr : (s.setCtrl st c v).pwr = s.pwr := rfl
@[simp] theorem State.setCtrl_tap : (s.setCtrl st c v).tap = s.tap := rfl
@[simp] theorem State.setCtrl_obs : (s.setCtrl st c v).obs = s.obs := rfl
@[simp] theorem State.setCtrl_svc : (s.setCtrl st c v).svc = s.svc := rfl
@[simp] theorem State.setCtrl_sent : (s.setCtrl st c v).sent = s.sent := rfl
end

/-! ### Replacing a pseudo-channel -/

section
variable (g : Nat) (v : PcSt)
@[simp] theorem State.setPch_pending : (s.setPch g v).pending = s.pending := rfl
@[simp] theorem State.setPch_time : (s.setPch g v).time = s.time := rfl
@[simp] theorem State.setPch_draws : (s.setPch g v).draws = s.draws := rfl
@[simp] theorem State.setPch_regs : (s.setPch g v).regs = s.regs := rfl
@[simp] theorem State.setPch_mem : (s.setPch g v).mem = s.mem := rfl
@[simp] theorem State.setPch_bad : (s.setPch g v).bad = s.bad := rfl
@[simp] theorem State.setPch_queues : (s.setPch g v).queues = s.queues := rfl
@[simp] theorem State.setPch_cmds : (s.setPch g v).cmds = s.cmds := rfl
@[simp] theorem State.setPch_ctxs : (s.setPch g v).ctxs = s.ctxs := rfl
@[simp] theorem State.setPch_rings : (s.setPch g v).rings = s.rings := rfl
@[simp] theorem State.setPch_tethers : (s.setPch g v).tethers = s.tethers := rfl
@[simp] theorem State.setPch_qps : (s.setPch g v).qps = s.qps := rfl
@[simp] theorem State.setPch_mrs : (s.setPch g v).mrs = s.mrs := rfl
@[simp] theorem State.setPch_xold : (s.setPch g v).xold = s.xold := rfl
@[simp] theorem State.setPch_hostPorts : (s.setPch g v).hostPorts = s.hostPorts := rfl
@[simp] theorem State.setPch_acs : (s.setPch g v).acs = s.acs := rfl
@[simp] theorem State.setPch_stls : (s.setPch g v).stls = s.stls := rfl
@[simp] theorem State.setPch_seqs : (s.setPch g v).seqs = s.seqs := rfl
@[simp] theorem State.setPch_cfg : (s.setPch g v).cfg = s.cfg := rfl
@[simp] theorem State.setPch_pdks : (s.setPch g v).pdks = s.pdks := rfl
@[simp] theorem State.setPch_noc : (s.setPch g v).noc = s.noc := rfl
@[simp] theorem State.setPch_rein : (s.setPch g v).rein = s.rein := rfl
@[simp] theorem State.setPch_groom : (s.setPch g v).groom = s.groom := rfl
@[simp] theorem State.setPch_fuse : (s.setPch g v).fuse = s.fuse := rfl
@[simp] theorem State.setPch_pwr : (s.setPch g v).pwr = s.pwr := rfl
@[simp] theorem State.setPch_tap : (s.setPch g v).tap = s.tap := rfl
@[simp] theorem State.setPch_obs : (s.setPch g v).obs = s.obs := rfl
@[simp] theorem State.setPch_svc : (s.setPch g v).svc = s.svc := rfl
@[simp] theorem State.setPch_sent : (s.setPch g v).sent = s.sent := rfl
end

/-! ### Replacing the repair state of a stall -/

section
variable (st : Nat) (v : RepairSt)
@[simp] theorem State.setRepair_pending : (s.setRepair st v).pending = s.pending := rfl
@[simp] theorem State.setRepair_time : (s.setRepair st v).time = s.time := rfl
@[simp] theorem State.setRepair_draws : (s.setRepair st v).draws = s.draws := rfl
@[simp] theorem State.setRepair_regs : (s.setRepair st v).regs = s.regs := rfl
@[simp] theorem State.setRepair_mem : (s.setRepair st v).mem = s.mem := rfl
@[simp] theorem State.setRepair_bad : (s.setRepair st v).bad = s.bad := rfl
@[simp] theorem State.setRepair_queues : (s.setRepair st v).queues = s.queues := rfl
@[simp] theorem State.setRepair_cmds : (s.setRepair st v).cmds = s.cmds := rfl
@[simp] theorem State.setRepair_ctxs : (s.setRepair st v).ctxs = s.ctxs := rfl
@[simp] theorem State.setRepair_rings : (s.setRepair st v).rings = s.rings := rfl
@[simp] theorem State.setRepair_tethers : (s.setRepair st v).tethers = s.tethers := rfl
@[simp] theorem State.setRepair_qps : (s.setRepair st v).qps = s.qps := rfl
@[simp] theorem State.setRepair_mrs : (s.setRepair st v).mrs = s.mrs := rfl
@[simp] theorem State.setRepair_xold : (s.setRepair st v).xold = s.xold := rfl
@[simp] theorem State.setRepair_hostPorts : (s.setRepair st v).hostPorts = s.hostPorts := rfl
@[simp] theorem State.setRepair_acs : (s.setRepair st v).acs = s.acs := rfl
@[simp] theorem State.setRepair_stls : (s.setRepair st v).stls = s.stls := rfl
@[simp] theorem State.setRepair_seqs : (s.setRepair st v).seqs = s.seqs := rfl
@[simp] theorem State.setRepair_cfg : (s.setRepair st v).cfg = s.cfg := rfl
@[simp] theorem State.setRepair_pdks : (s.setRepair st v).pdks = s.pdks := rfl
@[simp] theorem State.setRepair_noc : (s.setRepair st v).noc = s.noc := rfl
@[simp] theorem State.setRepair_hbm : (s.setRepair st v).hbm = s.hbm := rfl
@[simp] theorem State.setRepair_rein : (s.setRepair st v).rein = s.rein := rfl
@[simp] theorem State.setRepair_groom : (s.setRepair st v).groom = s.groom := rfl
@[simp] theorem State.setRepair_fuse : (s.setRepair st v).fuse = s.fuse := rfl
@[simp] theorem State.setRepair_pwr : (s.setRepair st v).pwr = s.pwr := rfl
@[simp] theorem State.setRepair_tap : (s.setRepair st v).tap = s.tap := rfl
@[simp] theorem State.setRepair_obs : (s.setRepair st v).obs = s.obs := rfl
@[simp] theorem State.setRepair_sent : (s.setRepair st v).sent = s.sent := rfl
end

/-! ### Replacing the team of a stall -/

section
variable (st : Nat) (t : TeamSt)
@[simp] theorem State.setTeam_pending : (s.setTeam st t).pending = s.pending := rfl
@[simp] theorem State.setTeam_time : (s.setTeam st t).time = s.time := rfl
@[simp] theorem State.setTeam_draws : (s.setTeam st t).draws = s.draws := rfl
@[simp] theorem State.setTeam_regs : (s.setTeam st t).regs = s.regs := rfl
@[simp] theorem State.setTeam_mem : (s.setTeam st t).mem = s.mem := rfl
@[simp] theorem State.setTeam_bad : (s.setTeam st t).bad = s.bad := rfl
@[simp] theorem State.setTeam_queues : (s.setTeam st t).queues = s.queues := rfl
@[simp] theorem State.setTeam_cmds : (s.setTeam st t).cmds = s.cmds := rfl
@[simp] theorem State.setTeam_ctxs : (s.setTeam st t).ctxs = s.ctxs := rfl
@[simp] theorem State.setTeam_rings : (s.setTeam st t).rings = s.rings := rfl
@[simp] theorem State.setTeam_tethers : (s.setTeam st t).tethers = s.tethers := rfl
@[simp] theorem State.setTeam_qps : (s.setTeam st t).qps = s.qps := rfl
@[simp] theorem State.setTeam_mrs : (s.setTeam st t).mrs = s.mrs := rfl
@[simp] theorem State.setTeam_xold : (s.setTeam st t).xold = s.xold := rfl
@[simp] theorem State.setTeam_hostPorts : (s.setTeam st t).hostPorts = s.hostPorts := rfl
@[simp] theorem State.setTeam_acs : (s.setTeam st t).acs = s.acs := rfl
@[simp] theorem State.setTeam_seqs : (s.setTeam st t).seqs = s.seqs := rfl
@[simp] theorem State.setTeam_cfg : (s.setTeam st t).cfg = s.cfg := rfl
@[simp] theorem State.setTeam_pdks : (s.setTeam st t).pdks = s.pdks := rfl
@[simp] theorem State.setTeam_noc : (s.setTeam st t).noc = s.noc := rfl
@[simp] theorem State.setTeam_hbm : (s.setTeam st t).hbm = s.hbm := rfl
@[simp] theorem State.setTeam_rein : (s.setTeam st t).rein = s.rein := rfl
@[simp] theorem State.setTeam_groom : (s.setTeam st t).groom = s.groom := rfl
@[simp] theorem State.setTeam_fuse : (s.setTeam st t).fuse = s.fuse := rfl
@[simp] theorem State.setTeam_pwr : (s.setTeam st t).pwr = s.pwr := rfl
@[simp] theorem State.setTeam_tap : (s.setTeam st t).tap = s.tap := rfl
@[simp] theorem State.setTeam_obs : (s.setTeam st t).obs = s.obs := rfl
@[simp] theorem State.setTeam_svc : (s.setTeam st t).svc = s.svc := rfl
@[simp] theorem State.setTeam_sent : (s.setTeam st t).sent = s.sent := rfl
@[simp] theorem State.setTeam_repair (i : Nat) : (s.setTeam st t).repair i = s.repair i := rfl
end

/-! ### Replacing a region -/

section
variable (i : Nat) (v : RegionSt)
@[simp] theorem State.setRegion_pending : (s.setRegion i v).pending = s.pending := rfl
@[simp] theorem State.setRegion_time : (s.setRegion i v).time = s.time := rfl
@[simp] theorem State.setRegion_draws : (s.setRegion i v).draws = s.draws := rfl
@[simp] theorem State.setRegion_regs : (s.setRegion i v).regs = s.regs := rfl
@[simp] theorem State.setRegion_mem : (s.setRegion i v).mem = s.mem := rfl
@[simp] theorem State.setRegion_bad : (s.setRegion i v).bad = s.bad := rfl
@[simp] theorem State.setRegion_queues : (s.setRegion i v).queues = s.queues := rfl
@[simp] theorem State.setRegion_cmds : (s.setRegion i v).cmds = s.cmds := rfl
@[simp] theorem State.setRegion_ctxs : (s.setRegion i v).ctxs = s.ctxs := rfl
@[simp] theorem State.setRegion_rings : (s.setRegion i v).rings = s.rings := rfl
@[simp] theorem State.setRegion_tethers : (s.setRegion i v).tethers = s.tethers := rfl
@[simp] theorem State.setRegion_qps : (s.setRegion i v).qps = s.qps := rfl
@[simp] theorem State.setRegion_mrs : (s.setRegion i v).mrs = s.mrs := rfl
@[simp] theorem State.setRegion_xold : (s.setRegion i v).xold = s.xold := rfl
@[simp] theorem State.setRegion_hostPorts : (s.setRegion i v).hostPorts = s.hostPorts := rfl
@[simp] theorem State.setRegion_acs : (s.setRegion i v).acs = s.acs := rfl
@[simp] theorem State.setRegion_stls : (s.setRegion i v).stls = s.stls := rfl
@[simp] theorem State.setRegion_seqs : (s.setRegion i v).seqs = s.seqs := rfl
@[simp] theorem State.setRegion_pdks : (s.setRegion i v).pdks = s.pdks := rfl
@[simp] theorem State.setRegion_noc : (s.setRegion i v).noc = s.noc := rfl
@[simp] theorem State.setRegion_hbm : (s.setRegion i v).hbm = s.hbm := rfl
@[simp] theorem State.setRegion_rein : (s.setRegion i v).rein = s.rein := rfl
@[simp] theorem State.setRegion_groom : (s.setRegion i v).groom = s.groom := rfl
@[simp] theorem State.setRegion_fuse : (s.setRegion i v).fuse = s.fuse := rfl
@[simp] theorem State.setRegion_pwr : (s.setRegion i v).pwr = s.pwr := rfl
@[simp] theorem State.setRegion_tap : (s.setRegion i v).tap = s.tap := rfl
@[simp] theorem State.setRegion_obs : (s.setRegion i v).obs = s.obs := rfl
@[simp] theorem State.setRegion_svc : (s.setRegion i v).svc = s.svc := rfl
@[simp] theorem State.setRegion_sent : (s.setRegion i v).sent = s.sent := rfl
end

/-! ### Read after write -/

/-- A register reads back what was written. -/
@[simp] theorem State.reg_setReg (r : Reg) (inst idx : Nat) (v : Word) : (s.setReg r inst idx v).reg r inst idx = v := by
  simp [State.reg, State.setReg]

/-- Another register reads as before. -/
theorem State.reg_setReg_other {r q : Reg} {inst idx i j : Nat} (v : Word) (h : regAddr q i j ≠ regAddr r inst idx) :
    (s.setReg r inst idx v).reg q i j = s.reg q i j := smGet_smSet_other _ _ _ h

/-- A register after a field of it was replaced. -/
@[simp] theorem State.reg_setFld (r : Reg) (inst idx hi lo v : Nat) :
    (s.setFld r inst idx hi lo v).reg r inst idx = (s.reg r inst idx).put hi lo v := by simp [State.setFld]

/-- Another register after a field was replaced. -/
theorem State.reg_setFld_other {r q : Reg} {inst idx i j : Nat} (hi lo v : Nat) (h : regAddr q i j ≠ regAddr r inst idx) :
    (s.setFld r inst idx hi lo v).reg q i j = s.reg q i j := s.reg_setReg_other _ h

@[simp] theorem State.seqr_setSeqr (i : Nat) (v : SeqSt) : (s.setSeqr i v).seqr i = v := by simp [State.seqr, State.setSeqr]
@[simp] theorem State.ctx_setCtx (i : Nat) (v : StreamCtx) : (s.setCtx i v).ctx i = v := by simp [State.ctx, State.setCtx]
@[simp] theorem State.qp_setQp (i : Nat) (v : QpSt) : (s.setQp i v).qp i = v := by simp [State.qp, State.setQp]
@[simp] theorem State.pdk_setPdk (i : Nat) (v : PdkSt) : (s.setPdk i v).pdk i = v := by simp [State.pdk, State.setPdk]
@[simp] theorem State.port_setPort (i : Nat) (v : PortSt) : (s.setPort i v).port i = v := by simp [State.port, State.setPort]
@[simp] theorem State.ctrl_setCtrl (st c : Nat) (v : CtrlSt) : (s.setCtrl st c v).ctrl st c = v := by simp [State.ctrl, State.setCtrl]
@[simp] theorem State.pch_setPch (g : Nat) (v : PcSt) : (s.setPch g v).pch g = v := by simp [State.pch, State.setPch]
@[simp] theorem State.repair_setRepair (i : Nat) (v : RepairSt) : (s.setRepair i v).repair i = v := by
  simp [State.repair, State.setRepair]

@[simp] theorem State.team_setTeam (st : Nat) (t : TeamSt) : (s.setTeam st t).team st = t := by
  simp [State.team, State.setTeam]

/-- Another stall's team stays. -/
theorem State.team_setTeam_other {i st : Nat} (t : TeamSt) (h : i ≠ st) : (s.setTeam st t).team i = s.team i := by
  simp [State.team, State.setTeam, smGet_smSet_other _ _ _ h]

/-! ### Events -/

/-- Setting an event bit changes registers and, where the record is due, the events held; nothing else. -/
theorem State.raise_eq (b : Blk) (inst bit code queue : Nat) (corral : Option Nat) :
    s.raise b inst bit code queue corral =
      { s with regs := (s.raise b inst bit code queue corral).regs, svc := (s.raise b inst bit code queue corral).svc } := by
  unfold State.raise
  split
  · rfl
  · dsimp only
    split <;> rfl

/-- An event without a command changes registers and the events held; nothing else. -/
theorem State.raise0_eq (b : Blk) (inst bit : Nat) :
    s.raise0 b inst bit = { s with regs := (s.raise0 b inst bit).regs, svc := (s.raise0 b inst bit).svc } := s.raise_eq ..

/-- A fault of a corral changes the record of faults and discards, and the commands in flight; nothing else (R593, R594). -/
theorem State.fault_eq (corral code queue : Nat) (raiser : Option (Nat × Nat × Nat)) (repair : List (Nat × Nat)) :
    s.fault corral code queue raiser repair =
      { s with svc := (s.fault corral code queue raiser repair).svc, cmds := (s.fault corral code queue raiser repair).cmds } := by
  unfold State.fault
  dsimp only
  split <;> rfl

/-! ### Answers -/

/-- Every answer of a meaning is a next state. -/
@[simp] theorem State.liveAll_up (t : State) (h : s.down = false) : s.liveAll t = .next { t with pending := s.pending } := by
  simp [State.liveAll, h]

/-- A device that is held in reset or has tripped answers with its own state. -/
@[simp] theorem State.liveAll_down (t : State) (h : s.down = true) : s.liveAll t = .next s := by simp [State.liveAll, h]

/-- The answer of nearly every meaning, of a device that runs. -/
@[simp] theorem State.live_up (t : State) (h : s.down = false) :
    s.live t = .next { t with time := s.time, fuse := s.fuse, pwr := s.pwr, tap := s.tap, pending := s.pending } := by
  simp [State.live, h]

/-- A device that is held in reset or has tripped answers with its own state. -/
@[simp] theorem State.live_down (t : State) (h : s.down = true) : s.live t = .next s := by simp [State.live, h]

end Sys2Proof.Machine
end

