-- ==== Sys2Proof/Laws/Units.lean ====
section
/-!
SUPPORT. What an access to HBM can change beside its data: units at the controllers and HBM_ registers (`State.onlyUnits`), from one
unit up to a port's whole access.
-/

namespace Sys2Proof.Machine

theorem State.onlyUnits_refl (s : State) : s.onlyUnits s := ⟨rfl, fun _ _ _ => rfl⟩

theorem State.onlyUnits_trans {s t u : State} (h : s.onlyUnits t) (k : t.onlyUnits u) : s.onlyUnits u := by
  refine ⟨?_, fun a b c => (k.2 a b c).trans (h.2 a b c)⟩
  obtain ⟨h, -⟩ := h
  obtain ⟨k, -⟩ := k
  rw [k]
  rw [h]

/-- Writing an HBM_ register. -/
theorem State.onlyUnits_setReg (s : State) {r : Reg} (inst idx : Nat) (v : Word) (h : (regInfo r).blk = .hbm) :
    s.onlyUnits (s.setReg r inst idx v) :=
  ⟨rfl, fun _ _ n => smGet_smSet_other _ _ _ (n r inst idx h)⟩

theorem State.onlyUnits_setFld (s : State) {r : Reg} (inst idx hi lo v : Nat) (h : (regInfo r).blk = .hbm) :
    s.onlyUnits (s.setFld r inst idx hi lo v) := s.onlyUnits_setReg _ _ _ h

theorem State.onlyUnits_bump (s : State) {r : Reg} (inst idx n : Nat) (h : (regInfo r).blk = .hbm) :
    s.onlyUnits (s.bump r inst idx n) := s.onlyUnits_setFld _ _ _ _ _ h

/-- An event of a stack. -/
theorem State.onlyUnits_raise0 (s : State) (inst bit : Nat) : s.onlyUnits (s.raise0 .hbm inst bit) := by
  have e (t : State) (l : List EventRec) (n : Nat) : t.onlyUnits { t with svc := { t.svc with eventSeq := n, events := l } } :=
    ⟨rfl, fun _ _ _ => rfl⟩
  unfold State.raise0 State.raise
  dsimp only [evRegs]
  have r : (regInfo .HBM_EVENT).blk = .hbm := rfl
  split
  · exact State.onlyUnits_trans (s.onlyUnits_setReg _ _ _ r) (e _ _ _)
  · exact s.onlyUnits_setReg _ _ _ r

theorem State.onlyUnits_setPch (s : State) (g : Nat) (v : PcSt) : s.onlyUnits (s.setPch g v) := ⟨rfl, fun _ _ _ => rfl⟩

theorem State.onlyUnits_setCtrl (s : State) (st c : Nat) (v : CtrlSt) : s.onlyUnits (s.setCtrl st c v) := ⟨rfl, fun _ _ _ => rfl⟩

/-- A pseudo-channel that wakes (R458). -/
theorem State.onlyUnits_srExit (s : State) (g : Nat) (w : Bool) : s.onlyUnits (s.srExit g w) := by
  unfold State.srExit
  dsimp only
  split
  · exact s.onlyUnits_refl
  · exact State.onlyUnits_trans (State.onlyUnits_trans (State.onlyUnits_trans (s.onlyUnits_setPch _ _)
      (State.onlyUnits_setFld _ (r := .HBM_SR_STATE) _ _ _ _ _ rfl)) (State.onlyUnits_setFld _ (r := .HBM_SCRUB_STATUS) _ _ _ _ _ rfl))
      (State.onlyUnits_bump _ (r := .HBM_CNT) _ _ _ rfl)

/-- A unit that arrives at its controller. -/
theorem State.onlyUnits_arriveUnit (s : State) (st c : Nat) (u : HbmUnit) : s.onlyUnits (s.arriveUnit st c u) := by
  unfold State.arriveUnit
  dsimp only
  split
  · exact s.onlyUnits_refl
  · split
    · exact s.onlyUnits_bump (r := .HBM_CNT) _ _ _ rfl
    · exact State.onlyUnits_trans (State.onlyUnits_trans (s.onlyUnits_srExit _ _) (State.onlyUnits_setPch _ _ _))
        (State.onlyUnits_setCtrl _ _ _ _)

/-- An access that meets a word with a single-bit error (R459). -/
theorem State.onlyUnits_touchSoft (s : State) (write : Bool) (pa n w : Nat) : s.onlyUnits (s.touchSoft write pa n w) := by
  have h : s.onlyUnits (if write then { s with hbm := { s.hbm with soft := s.hbm.soft.erase w } } else s) := by
    split
    · exact ⟨rfl, fun _ _ _ => rfl⟩
    · exact s.onlyUnits_refl
  unfold State.touchSoft
  dsimp only
  split
  · exact s.onlyUnits_refl
  · split
    · exact h
    · exact State.onlyUnits_trans (State.onlyUnits_trans h (State.onlyUnits_bump _ (r := .HBM_CNT) _ _ _ rfl)) (State.onlyUnits_raise0 _ _ _)

/-- A run of updates of which each only makes units. -/
theorem State.onlyUnits_foldl {α : Type} (f : State → α → State) (h : ∀ (s : State) x, s.onlyUnits (f s x)) (l : List α) :
    ∀ s : State, s.onlyUnits (l.foldl f s) := by
  induction l with
  | nil => exact State.onlyUnits_refl
  | cons x t ih => exact fun s => State.onlyUnits_trans (h s x) (ih _)

/-- A unit sent to its controller (R260). -/
theorem State.onlyUnits_postUnit (s : State) (u : HbmUnit) (write : Bool) (n : Nat) : s.onlyUnits (s.postUnit u write n) :=
  State.onlyUnits_trans (State.onlyUnits_foldl _ (fun t w => t.onlyUnits_touchSoft write _ n w) _ s) (State.onlyUnits_arriveUnit _ _ _ _)

/-- The unit of an access to a part of HBM. -/
theorem State.onlyUnits_unitAt (s : State) (src : UnitSource) (corral : Option Nat) (write : Bool) (a n : Nat) :
    s.onlyUnits (s.unitAt src corral write a n) := s.onlyUnits_postUnit _ _ _

/-- One piece of an access (R259, R268, R340). -/
theorem State.onlyUnits_usePiece (s : State) (src : UnitSource) (corral : Nat) (write : Bool) (va n : Nat) :
    s.onlyUnits (s.usePiece src corral write va n).1 := by
  have c : s.onlyUnits (s.cacheWalk corral va) := ⟨rfl, fun _ _ _ => rfl⟩
  unfold State.usePiece
  split
  · exact s.onlyUnits_refl
  · have w := State.onlyUnits_trans c (State.onlyUnits_foldl (fun t (k : CachedEntry) =>
      t.unitAt .walk (if corral < 256 then some corral else none) false k.addr 8) (fun t k => t.onlyUnits_unitAt _ _ _ _ _)
      (s.newEntries corral va) _)
    dsimp only
    split
    · exact State.onlyUnits_trans w (State.onlyUnits_unitAt _ _ _ _ _ _)
    · dsimp only
      split
      · exact w
      · refine State.onlyUnits_trans w ⟨rfl, fun a h _ => smGet_smSet_other _ _ _ h⟩
    · exact w

/-- A port's access to memory: its units, and nothing else (R262). -/
theorem State.onlyUnits_portAccess (s : State) (src : UnitSource) (corral : Nat) (write : Bool) (va n : Nat) :
    s.onlyUnits (s.portAccess src corral write va n) := by
  have h (l : List (Nat × Nat)) : ∀ (t : State) (k : Nat), t.onlyUnits (t.usePieces src corral write l k).1 := by
    induction l with
    | nil => exact fun t _ => t.onlyUnits_refl
    | cons p l ih => exact fun t k => State.onlyUnits_trans (t.onlyUnits_usePiece _ _ _ _ _) (ih _ _)
  exact h _ s 0

/-- What a load reads of a source makes units where the source is in HBM, and changes nothing else (R588). -/
theorem State.onlyUnits_readSource (s : State) (l : LoadSt) (off n : Nat) : s.onlyUnits (s.readSource l off n) := by
  unfold State.readSource
  split
  · exact State.onlyUnits_foldl _ (fun t p => t.onlyUnits_unitAt _ _ _ _ _) _ s
  · exact s.onlyUnits_refl

end Sys2Proof.Machine
end

