-- ==== Sys2Proof/Laws/Word.lean ====
section
/-!
SUPPORT. Fields of a word: what a replaced field reads as, and that every other field stays.
-/

namespace Sys2Proof

/-- A bit of a replaced field. -/
theorem Word.bit_put (w : Word) (hi lo v i : Nat) (h : i < 64) :
    (w.put hi lo v).bit i = if lo ≤ i ∧ i < hi + 1 then v.testBit (i - lo) else w.bit i := by
  simp only [Word.put, Word.bit, BitVec.getLsbD_or, BitVec.getLsbD_and, BitVec.getLsbD_not, BitVec.getLsbD_ofNat,
    Nat.testBit_mul_two_pow, Nat.testBit_mod_two_pow, h, decide_true, Bool.true_and]
  by_cases h1 : lo ≤ i
  · by_cases h2 : i < hi + 1
    · have h3 : i - lo < hi + 1 - lo := by omega
      simp [h1, h2, h3]
    · have h3 : ¬ i - lo < hi + 1 - lo := by omega
      simp [h1, h2, h3]
  · simp [h1]

/-- A bit of a field. -/
theorem testBit_fld (w : Word) (hi lo i : Nat) :
    (w.fld hi lo).testBit i = (decide (i < hi + 1 - lo) && w.bit (lo + i)) := by
  rw [Word.fld, bitsOf, Nat.testBit_mod_two_pow, Nat.testBit_div_two_pow, Word.bit, BitVec.getLsbD]
  simp [Nat.add_comm]

/-- A replaced field reads back, modulo its width. -/
theorem Word.fld_put_same (w : Word) (hi lo v : Nat) (h : hi < 64) :
    (w.put hi lo v).fld hi lo = v % 2 ^ (hi + 1 - lo) := by
  apply Nat.eq_of_testBit_eq
  intro i
  rw [testBit_fld, Nat.testBit_mod_two_pow]
  by_cases hi' : i < hi + 1 - lo
  · rw [Word.bit_put _ _ _ _ _ (by omega)]
    simp [hi', show lo + i < hi + 1 by omega]
  · simp [hi']

/-- Another field of the word stays. -/
theorem Word.fld_put_other (w : Word) (hi lo v h l : Nat) (d : h < lo ∨ hi < l) (hh : h < 64) :
    (w.put hi lo v).fld h l = w.fld h l := by
  apply Nat.eq_of_testBit_eq
  intro i
  rw [testBit_fld, testBit_fld]
  by_cases hi' : i < h + 1 - l
  · rw [Word.bit_put _ _ _ _ _ (by omega), if_neg (by omega)]
  · simp [hi']

/-- A one-bit field is its bit. -/
theorem Word.fld_one (w : Word) (n : Nat) : w.fld n n = if w.bit n then 1 else 0 := by
  apply Nat.eq_of_testBit_eq
  intro i
  rw [testBit_fld]
  cases i with
  | zero => by_cases h : w.bit n <;> simp [h]
  | succ j => by_cases h : w.bit n <;> simp [h, Nat.testBit_succ]

/-- A field is below the power of two of its width. -/
theorem Word.fld_lt (w : Word) (hi lo : Nat) : w.fld hi lo < 2 ^ (hi + 1 - lo) := Nat.mod_lt _ (Nat.two_pow_pos _)

end Sys2Proof
end

