-- ==== Sys2Proof/Machine/PdkIo.lean ====
section
/-!
DEFINITION. The pins of the user I/O cells (R361 to R364, R386): what each cell presents on its ball, in service and in its SAFE state.
-/

namespace Sys2Proof.Machine

/-- What an I/O cell does in its SAFE state (R362, SAFE). -/
inductive SafeState where
  | highZ | pullUp | pullDown | keeper
  deriving DecidableEq, Repr

/-- What the SAFE field of an option word says. -/
def safeOf (opt : Nat) : SafeState :=
  match bitsOf opt 15 14 with | 0 => .highZ | 1 => .pullUp | 2 => .pullDown | _ => .keeper

/-- What a pin presents. -/
inductive Pin where
  /-- in service with its driver off: no pull and no keeper -/
  | open_
  /-- in service, driven to a value with a DRIVE current in mA and a fast or slow edge -/
  | driven (value : Bool) (mA : Nat) (fast : Bool)
  /-- in its SAFE state; driven by boundary scan to a value with a fast or slow edge, or not -/
  | safe (st : SafeState) (scan : Option (Bool × Bool))
  deriving DecidableEq, Repr

/-- The option word of an I/O cell word. -/
def ioOptions (w : Nat) : Nat := bitsOf w 15 0

/-- The I/O frame of a bank: two banks a die, columns 0 and 1 (R382). -/
def ioFrame (bank : Nat) : Nat := frameAddr (bank / 2) 2 (bank % 2) 0

/-- The word of cell `c` of bank `b` (R386). -/
def State.ioWord (s : State) (b c : Nat) : Nat := fmWord s.cfg.frames (ioFrame b) c

/-- The boundary-scan cell of an I/O cell. DESIGN CHOICE (log 104): the spec numbers no boundary-scan cells; the user I/O cells come first, bank
by bank. -/
def scanCell (b c : Nat) : Nat := 48 * b + c

/-- No test instruction but BYPASS or IDCODE is selected (R363). -/
def TapSt.inService (t : TapSt) : Bool := match t.ins with | .idle => true | .bypass => true | .idcode => true | _ => false

/-- An I/O cell is in service (R363): its region is in stage 1 or later and not quarantined, no test instruction is selected, and the cell
is not unused. A device without power or in reset has no cell in service. -/
def State.ioInService (s : State) (b c : Nat) : Bool :=
  let r := s.region (regionIn (ioFrame b) s.cfg.live.regions)
  !s.down && decide (1 ≤ r.stage) && !r.quarantined && s.tap.inService && bitsOf (s.ioWord b c) 9 8 != 3

/-- A paddock whose outputs are on: no hold keeps them off (R33, R364, R402). -/
def State.pdkDrives (s : State) (p : Nat) : Bool := decide (1 ≤ (s.pdk p).stage) && !s.pdkHeld p && !s.pdkShut p

/-- The values of a cell's output and output enable: the cell outputs of the bound paddock that OUT_SEL and OE_SEL name (R361, R386). -/
def State.ioOut (s : State) (b c : Nat) : Bool × Bool :=
  let w := s.ioWord b c
  let v := (s.pdkNet (ioPaddock (ioFrame b) w) s.draws).1
  (bitAt v.out (bitsOf w 40 34), bitAt v.out (bitsOf w 47 41))

/-- What a user I/O pin presents (R362, R363). -/
def State.ioPin (s : State) (b c : Nat) : Pin :=
  let w := s.ioWord b c
  let opt := ioOptions w
  if s.ioInService b c then
    let v := s.ioOut b c
    let on := s.pdkDrives (ioPaddock (ioFrame b) w) && (bitsOf opt 9 8 == 1 || (bitsOf opt 9 8 == 2 && v.2))
    if on then .driven v.1 (4 * (1 + bitsOf opt 12 11)) (bitAt opt 10) else .open_
  else
    .safe (safeOf opt) (match s.tap.drives (scanCell b c) with | some (some v) => some (v, bitAt opt 13) | _ => none)

end Sys2Proof.Machine
end

