-- ==== Sys2Proof/WellFormed.lean ====
section
/-!
DEFINITION. Which commands are well formed: what the types of their operands do not say of the words, packets and frames that can
exist. A command that is not well formed names nothing the hardware can meet.
-/

namespace Sys2Proof

/-- Bytes of the payload that a packet's LEN gives it (R490): a READ carries none, a RELAY counts 8-byte units. -/
def payloadBytes (typ len : Nat) : Nat := if typ = 1 then 0 else if typ = 11 then 8 * len else len

/-- A packet that a link can carry (R490): its payload is as long as LEN says, and LEN counts whole words. -/
def pktWf (typ : Nat) (p : ReinPkt) : Bool :=
  p.payload.length == payloadBytes typ p.len.toNat && (typ == 11 || p.len.toNat % 8 == 0)

/-- A frame whose length with its 4-byte FCS is that of its bytes (R293); a PFC frame has a pause time for each priority (R294). -/
def frameWf (f : EthFrame) : Bool :=
  f.raw.length + 4 == f.len.toNat && (match f.body with | .pfc _ q => q.length == 8 | _ => true)

/-- A flit has 256 bytes (R486); a codeword pair has 1,360 slots and at most one stuff slot for each 15 of them (R481, R484). -/
def rxWf : RxUnit → Bool
  | .flit bytes => bytes.length == 256
  | .pair slots => decide (1360 ≤ slots.length) && decide (slots.length ≤ 1360 + 1360 / 15 + 1)

/-- Numbers in rising order, each named once: every one is below the next. -/
def climbs (l : List Nat) : Bool := (l.zip (l.drop 1)).all (fun p => decide (p.1 < p.2))

/-- Pads in rising order, each named once (R633). -/
def padsWf (l : List (BitVec 10 × Bool)) : Bool := climbs (l.map (fun p => p.1.toNat))

/-- Stalls in rising order, each named once (R555). -/
def risingWf (l : List (Fin 3072)) : Bool := climbs (l.map (fun p => p.val))

/-- A packet at a router that exists, on one of the four networks (R421, R424). -/
def nocWf (p : Machine.NocPacket) : Bool := decide (p.router < 768) && decide (p.net < 4) && decide (1 ≤ p.flits)

/-- Is a command well formed? -/
def Instr.wf : Instr → Bool
  | .tapSample pins drive => padsWf pins && padsWf drive
  | .tapExtest drive => padsWf drive
  | .handoverCheckpointDone header _ => header.length == 8
  | .ethFrameReceive _ frame => frameWf frame
  | .pfcFrameReceive _ _ quanta => quanta.length == 8
  | .roceSend _ _ data => decide (data.length ≤ 2 ^ 31)
  | .rdmaWrite _ _ _ _ data => decide (data.length ≤ 2 ^ 31)
  | .rdmaRead _ _ _ _ len => decide (len.toNat ≤ 2 ^ 31)
  | .registerWrite addr _ => addr.toNat % 8 == 0
  | .nocPacketHop packet => nocWf packet
  | .nocFlitStuck packet => nocWf packet
  | .reinLinkDown _ cause => cause == 1#3 || cause == 2#3 || cause == 5#3
  | .reinFlitReceive _ rx => rxWf rx
  | .alignMarkerReceive _ fields _ _ _ => fields.length == 4
  | .reinRead _ packet => pktWf 1 packet
  | .reinReadData _ packet => pktWf 2 packet
  | .reinWrite _ packet => pktWf 3 packet
  | .reinWriteAck _ packet => pktWf 4 packet
  | .remoteTetherSignal _ packet => pktWf 5 packet && packet.payload.length == 8
  | .remoteTetherAdd _ packet => pktWf 5 packet && packet.payload.length == 8
  | .remoteTetherFetchAdd _ packet => pktWf 5 packet && packet.payload.length == 8
  | .remoteTetherCompareSwap _ packet => pktWf 5 packet && packet.payload.length == 16
  | .tetherRsp _ packet => pktWf 6 packet
  | .reinError _ packet => pktWf 7 packet
  | .reinTree _ packet => pktWf 8 packet
  | .reinTime _ packet _ _ => pktWf 9 packet && packet.payload.length == 32
  | .reinEnum _ packet => pktWf 10 packet
  | .reinRelay _ packet frame => pktWf 11 packet && frameWf frame
  | .traceSample _ lost => risingWf lost
  | .powerOnReset .. | .porstAssert .. | .supplyUndervoltage | .refclkLoss | .thermalTrip .. | .voltageLoopPass ..
  | .pmbusRetryTimer .. | .voltageRecal .. | .i2cReadWord .. | .tapBypass | .tapIdcode | .tapClamp | .tapHighz
  | .hp0BootTimeout | .bootGo .. | .bootCheckDone | .hbmTrainingDone .. | .grmDrvFeaturesWrite .. | .attest ..
  | .certChain .. | .keyOffer .. | .keyInstall .. | .handover .. | .fuse .. | .grmRequestDone | .handoverImageChecked
  | .handoverFirmwareStart | .handoverReady .. | .handoverDeadlineMiss | .coreWatchdogExpiry .. | .heartbeatTimeout
  | .groomSramUncorr | .firmwareDeclareFailed | .eventRecordWrite | .pfcXonSend .. | .pfcPauseExpiry .. | .cnpReceive ..
  | .cnpRateRecovery .. | .hostLinkChange .. | .rdmaCompareSwap .. | .rdmaFetchAdd .. | .roceUnsupportedRequest ..
  | .roceResponseReceive .. | .roceAckTimeout .. | .dbPiWrite .. | .dbCiWrite .. | .streamResume .. | .streamAbort ..
  | .queueEnable .. | .queueDisable .. | .qpArm .. | .qpReset .. | .mrFlush .. | .xlateInval .. | .matrix .. | .vector ..
  | .moveCopy .. | .moveMulticast .. | .gather .. | .scatter .. | .scatterAdd .. | .scatterMin .. | .scatterMax ..
  | .drain .. | .tandem .. | .tetherWait .. | .tetherSignal .. | .tetherAdd .. | .ctxSave .. | .ctxRestore .. | .fence ..
  | .resync .. | .stepCmd .. | .leaseGrant .. | .leaseWaitTimeout .. | .tetherWaitTimeout .. | .drainRelease ..
  | .tandemStageBegin .. | .tandemStageComplete .. | .commandComplete .. | .chainHandshakeTimeout ..
  | .stationaryParityError .. | .acsUncorrectable .. | .vecUncorrectable .. | .gaitMeterSample .. | .xlateFaultHalt ..
  | .streamWatchdogExpiry .. | .mcastLagExpiry .. | .vsli .. | .vslih .. | .vsadd .. | .vssub .. | .vsmul .. | .vsand ..
  | .vsor .. | .vsxor .. | .vsshl .. | .vsshr .. | .vssra .. | .vsaddi .. | .vsld .. | .vsst .. | .vbeq .. | .vbne ..
  | .vblt .. | .vbltu .. | .vjmp .. | .vhalt .. | .vvld .. | .vvst .. | .vvldx .. | .vvstx .. | .vvadd .. | .vvsub ..
  | .vvmul .. | .vvmadd .. | .vvmin .. | .vvmax .. | .vvabs .. | .vvneg .. | .vvdiv .. | .vvsqrt .. | .vcmul .. | .vvcmp ..
  | .vvsel .. | .vvand .. | .vvor .. | .vvxor .. | .vvshl .. | .vvshr .. | .vvpopc .. | .vviota .. | .vvbcast .. | .vvcvt ..
  | .vvcvtmx .. | .vvredadd .. | .vvredmin .. | .vvredmax .. | .vvcompress .. | .vhwait .. | .vhpost .. | .vdispatch ..
  | .bankSwitch .. | .discardRequestsRetired .. | .initiatorTimeout .. | .lateResponse .. | .tagHoldExpiry ..
  | .treeContribTimeout .. | .hbmPositionServe .. | .selfRefreshEntry .. | .bankRefresh .. | .hbmScrubRead ..
  | .scrubDeferWake .. | .hbmTempHot .. | .hbmFence .. | .hbmUnfence .. | .hbmRetrain .. | .hbmFenceComplete ..
  | .hbmRetrainComplete .. | .channelWordDeliver .. | .gaitStop .. | .ringBatchFlush .. | .paddockRamAccess ..
  | .probeArm .. | .probeStop .. | .replayArm .. | .replayStop .. | .probeStartTick .. | .captureBlockWrite ..
  | .stimulusBlockArrival .. | .cfgRelease .. | .cfgHold .. | .releaseWaitAExpiry .. | .releaseWaitBExpiry ..
  | .userResetDeassert .. | .cfgLoad .. | .cfgHeaderAccept | .cfgCommit | .cfgStreamTimeout | .cfgLoadReport ..
  | .consistProbe .. | .consistPeriodExpiry | .consistProbeAnswer .. | .consistAnswerTimeout .. | .reinTrainingComplete ..
  | .reinInitIdent .. | .reinRetryTimeout .. | .reinFailedRetry .. | .rnlPortCfgWrite ..
  | .eyeScanStart .. | .eyeScanDone .. | .enumerationStart .. | .presenceMaskUpdate .. | .mgmtPoll .. | .leadPollLoss
  | .admitProbe .. | .laneRetrain .. | .laneRetrainDrained .. | .dbgTraceCfgWrite .. | .occupancyTick | .stableCardDone ..
  | .gaitEdge .. | .bootPhyAlternate | .heartbeatAdvance | .tapReset | .hbmHotClear .. | .neighbourDownReport ..
  | .cfgReportTimeout .. | .cardAnswerTimeout .. => true

end Sys2Proof
end

