-- ==== Sys2Proof/Tests/Slice0.lean ====
section
/-!
SUPPORT. Tests. First an ill-formed command for each check of WellFormed; then, for every statement with hypotheses, concrete states and
operands that meet them clause by clause (`wit_<statement>_<clause>`), at the boundaries where clauses meet; then worked values taken
from the spec.
-/

namespace Sys2Proof.Tests

open Sys2Proof Sys2Proof.Machine

set_option Elab.async false

/-! ## Well-formedness: one ill-formed command for each check -/

/-- A packet of a length with a payload. -/
def pkt (len : Nat) (payload : List Byte) : ReinPkt :=
  { dst := 0, src := 0, vc := 0, ghops := 0, len := BitVec.ofNat 11 len, corral := 0, tag := 0, gen := 0, srcIndex := 0, srcRouter := 0,
    code := 0, addr := 0, payload := payload }

/-- A frame of a length, with so many bytes before its FCS. -/
def frame (len bytes : Nat) (body : FrameBody) : EthFrame :=
  { len := BitVec.ofNat 16 len, tags := [], badIp := false, dst4 := none, dst6 := none, ce := false, badFcs := false, fecFixed := 0
    fecLost := 0, body := body
    raw := List.replicate bytes 0 }

/-- A packet of the network at a router. -/
def nocPkt (router net flits : Nat) : NocPacket :=
  { router := router, net := net, route := 0, ctl := 0, pos := 0, dir := none, left := 0, flits := flits, missed := false, hops := 0
    bridges := 0, readData := false, crossed := 0, lane := none, flow := none, spread := false }

theorem ill_pads : (Instr.tapExtest [(3, true), (3, false)]).wf = false ∧ (Instr.tapSample [(4, true), (3, true)] []).wf = false := by
  decide
theorem ill_checkpoint_header : (Instr.handoverCheckpointDone [0] []).wf = false := by decide
theorem ill_frame_length : (Instr.ethFrameReceive 0 (frame 65 60 .other)).wf = false ∧ (Instr.ethFrameReceive 0 (frame 64 60 .other)).wf = true := by
  decide
theorem ill_pause_times : (Instr.ethFrameReceive 0 (frame 64 60 (.pfc 0 [1]))).wf = false ∧ (Instr.pfcFrameReceive 0 0 [1]).wf = false := by
  decide
theorem ill_roce_data (d : List Byte) (h : d.length = 2 ^ 31 + 1) :
    (Instr.roceSend 0 0 d).wf = false ∧ (Instr.rdmaWrite 0 0 0 0 d).wf = false := by simp [Instr.wf, h]
theorem ill_roce_read : (Instr.rdmaRead 0 0 0 0 (2 ^ 31 + 1)).wf = false := by decide
theorem ill_register_address : (Instr.registerWrite 4 0).wf = false := by decide
theorem ill_router : (Instr.nocPacketHop (nocPkt 768 0 1)).wf = false ∧ (Instr.nocFlitStuck (nocPkt 0 4 1)).wf = false ∧
    (Instr.nocPacketHop (nocPkt 0 0 0)).wf = false ∧ (Instr.nocPacketHop (nocPkt 767 3 1)).wf = true := by decide
theorem ill_link_cause : (Instr.reinLinkDown 0 3).wf = false := by decide
theorem ill_flit : (Instr.reinFlitReceive 0 (.flit [0])).wf = false ∧ (Instr.reinFlitReceive 0 (.pair (List.replicate 1359 0))).wf = false ∧
    (Instr.reinFlitReceive 0 (.pair (List.replicate 1451 0))).wf = true ∧ (Instr.reinFlitReceive 0 (.pair (List.replicate 1452 0))).wf = false ∧
    (Instr.alignMarkerReceive 0 [0, 0, 0] true true false).wf = false := by decide +kernel
theorem ill_packets : [Instr.reinRead 0 (pkt 8 [0]), .reinReadData 0 (pkt 8 []), .reinWrite 0 (pkt 4 [0, 0, 0, 0]), .reinWriteAck 0 (pkt 8 []),
    .tetherRsp 0 (pkt 8 []), .reinError 0 (pkt 8 []), .reinTree 0 (pkt 8 []), .reinEnum 0 (pkt 8 [])].all (fun c => !c.wf) = true := by decide
theorem ill_tether_payload : [Instr.remoteTetherSignal 0 (pkt 0 []), .remoteTetherAdd 0 (pkt 0 []), .remoteTetherFetchAdd 0 (pkt 0 []),
    .remoteTetherCompareSwap 0 (pkt 8 (List.replicate 8 0))].all (fun c => !c.wf) = true := by decide
theorem ill_time_payload : (Instr.reinTime 0 (pkt 8 (List.replicate 8 0)) 0 0).wf = false := by decide
theorem ill_relay : (Instr.reinRelay 0 (pkt 1 (List.replicate 8 0)) (frame 10 8 .other)).wf = false ∧
    (Instr.reinRelay 0 (pkt 1 (List.replicate 8 0)) (frame 12 8 .other)).wf = true := by decide
theorem ill_lost_stalls : (Instr.traceSample [] [5, 5]).wf = false := by decide

/-! ## Small states -/

/-- What a command leaves, as a test of it. -/
def after (s : State) (c : Instr) (p : State → Bool) : Bool := match exec c s with | .next t => p t | _ => false

/-- The device with its firmware READY. -/
def ready : State := State.reset.setPhase 4

/-- The boot ROM waits, a second after power-on. -/
def booting : State := { State.reset.tick with time := 10 ^ 9 }

/-! ## Witnesses: steps, reset, power -/

theorem wit_StepRunsFrontCommand : ({ ready with pending := [.tapBypass, .tapReset] } : State).pending = .tapBypass :: [.tapReset] := rfl
theorem wit_Idle_down : ({ ready with pwr := { ready.pwr with held := true } } : State).down = true ∧ ready.pending = [] := by decide +kernel
theorem wit_Idle_started : ready.down = false ∧ ready.grmPhase ≠ 0 ∧ ready.pending = [] := by decide +kernel
theorem wit_Idle_rom : State.reset.down = false ∧ State.reset.grmPhase = 0 ∧ State.reset.pending = [] := by decide +kernel
theorem wit_Idle_quiet : ready.cmds = [] ∧ (∀ e ∈ ready.stls, e.2.team.job = none) ∧ (∀ p, (ready.pdk p).stopped = false) ∧
    (∀ i ∈ smKeys ready.rein.ports, ready.portState i < 3 ∨ 5 < ready.portState i) ∧ State.reset.cmds = [] ∧ State.reset.stls = [] ∧
    smKeys State.reset.rein.ports = [] :=
  ⟨rfl, by decide +kernel, fun _ => rfl, by decide +kernel, rfl, rfl, rfl⟩

theorem wit_AnswersKeep : resets (.powerOnReset true) = true ∧ resets .tapBypass = false := by decide
theorem wit_StoppedDevice : ({ ready with pwr := { ready.pwr with tripped := true } } : State).down = true ∧ actsDown .bootCheckDone = false := by
  decide +kernel
theorem wit_Fuses : (match step ready with | .next t => decide (ready.fuse = t.fuse) | _ => false) = true := by decide +kernel
theorem wit_Invariant : ready.goesOn := ⟨_, rfl⟩
theorem wit_Memory : Memory.wf ready.hbm.undef (ready.wrWord 64 5).mem = true ∧ (ready.wrWord 64 5).mem.length = 1 := by decide +kernel
theorem wit_ResetCommands : (∀ e ∈ ready.fuse.rows, e.1 < 3072) ∧ 1000 ≤ 1000 ∧ 99 < 100 ∧ 100 ≤ 999 := by decide +kernel
theorem wit_Voltage_other_phase : booting.down = false ∧ booting.grmPhase ≠ 4 := by decide +kernel
theorem wit_Voltage : ready.down = false ∧ ready.grmPhase = 4 ∧ ready.pwrBit 16 0 = false ∧ ready.fld .PWR_LOOP 0 0 31 16 ≤ 850 := by
  decide +kernel

/-- An image a SEC engine has recorded. -/
def anImage : ImageRec := { digest := 5, version := 7, svn := 9, features := 0x3FF, slot := 1, len := 520, entry := 0 }

/-- Firmware runs on the four cores, with every feature active. -/
def running : State :=
  let s := (ready.setCores 15).setReg .GRM_FEATURES_ACTIVE 0 0 0x3FF
  { s with groom := { s.groom with image := some anImage } }

/-- A die's regulator has faulted. -/
def faulted : State := running.setFld .PWR_STATUS 0 0 16 16 1

theorem wit_Regulator_retry : faulted.down = false ∧ faulted.firmwareRuns = true ∧ faulted.pwrBit 16 0 = true := by decide +kernel
theorem wit_Regulator_recal : running.grmPhase = 4 ∧ running.feature 8 = true ∧ running.pwrBit 16 0 = false := by
  decide +kernel


/-! ## Witnesses: the boot ROM, the mailbox, handover, faults of the groom -/

theorem wit_BootRom : booting.down = false ∧ booting.bootMode = true ∧ booting.linkUp 0 = false ∧ booting.groom.viaLead = false ∧
    booting.groom.phyAt + ms 200 ≤ booting.time ∧ booting.fld .HST_PORT_STATUS 0 0 5 4 = 1 ∧ booting.grmPhase = 1 ∧
    booting.pwr.roleLead = false ∧ booting.groom.bootAt + ms 500 ≤ booting.time := by decide +kernel
theorem wit_BootRom_switched : (booting.setFld .HST_PORT_STATUS 0 0 5 4 2).fld .HST_PORT_STATUS 0 0 5 4 = 2 := by decide +kernel
theorem wit_BootRom_go : (0x0100000000000208 : Word).fld 63 56 = 1 ∧ (0x0200000000000208 : Word).fld 63 56 ≠ 1 ∧ ready.grmPhase ≠ 1 := by
  decide +kernel

/-- An image in CHECKING. -/
def checking : State := booting.setPhase 2

theorem wit_ImageChecks_refused : checking.down = false ∧ checking.grmPhase = 2 ∧
    imageReason checking.fuse checking.codeImage checking.groom.goLen = some 1 := by decide +kernel

/-- The header of an image of eight bytes of code whose digest is d, signed by the key of zeros, and the image. -/
def goodHeader (d : Nat) : List Byte :=
  leBytes 4 0x6F729A1C ++ leBytes 2 1 ++ leBytes 14 0 ++ leBytes 4 0x1307296B ++ leBytes 2 2 ++ leBytes 2 0x71 ++ leBytes 4 8 ++ leBytes 16 0 ++
    leBytes 32 d ++ leBytes 432 0
def goodImage (d : Nat) : List Byte := goodHeader d ++ leBytes 8 0

theorem leBytes_length (n : Nat) : ∀ v, (leBytes n v).length = n := by
  induction n with
  | zero => intro v; rfl
  | succ n ih => intro v; simp [leBytes, ih]
theorem goodHeader_length (d : Nat) : (goodHeader d).length = 512 := by simp [goodHeader, leBytes_length]
theorem goodImage_length (d : Nat) : (goodImage d).length = 520 := by simp [goodImage, goodHeader_length, leBytes_length]

/-- Bytes placed from a key up. -/
def placed (k : Nat) : List Byte → SMap Byte
  | [] => []
  | b :: t => (k, b) :: placed (k + 1) t

theorem placed_get (d : Nat → Byte) : ∀ (l : List Byte) (k i : Nat), smGet d (placed k l) (k + i) = l.getD i (d (k + i))
  | [], _, _ => rfl
  | b :: t, k, 0 => by simp [placed, smGet]
  | b :: t, k, i + 1 => by
    have h := placed_get d t (k + 1) i
    simp only [placed, smGet, show ¬ (k + (i + 1) = k) by omega, if_false]
    rw [show k + (i + 1) = k + 1 + i by omega, h]; simp

theorem placed_read (d : Nat → Byte) (l : List Byte) (n : Nat) (h : n ≤ l.length) :
    (upTo n).map (fun i => smGet d (placed 0 l) (0 + i)) = l.take n := by
  apply List.ext_getElem
  · simp [upTo, h]
  · intro i h1 h2
    simp [upTo] at h1
    simp only [upTo, List.getElem_map, List.getElem_range, List.getElem_take, placed_get]
    rw [List.getD_eq_getElem?_getD, Nat.zero_add, List.getElem?_eq_getElem (show i < l.length by omega)]; rfl

/-- The digest of its code, and the hash of its key. -/
def goodDigest : Nat := (Config.shake256 (leBytes 8 0)).toNat
def zeroKey : Nat := (Config.shake256 (leBytes 57 0)).toNat

theorem leNat_leBytes (n : Nat) : ∀ v, v < 256 ^ n → leNat (leBytes n v) = v := by
  induction n with
  | zero => intro v h; simp [leBytes, leNat] at *; omega
  | succ n ih =>
    intro v h
    have h2 : v / 256 < 256 ^ n := by rw [Nat.pow_succ] at h; omega
    simp only [leBytes, leNat, ih _ h2, BitVec.toNat_ofNat]; omega

/-- Where its signature verifies, that image passes every check of a vendor slot that holds its key. -/
theorem goodImage_passes (f : FuseSt) (n : Nat) (hf : f.vendor0 = { hash := zeroKey, st := .provisioned }) (hm : f.svnMin = 0) (hn : n = 520)
    (hv : ∀ k c m s, Config.ed448Verify k c m s = true) : imageReason f (goodImage goodDigest) n = none := by
  have hd : hdrNat (goodImage goodDigest) 48 32 = goodDigest := leNat_leBytes 32 _ (BitVec.isLt _)
  have hk : ((goodImage goodDigest).drop 80).take 57 = leBytes 57 0 := rfl
  have hb : (goodImage goodDigest).drop 512 = leBytes 8 0 := List.drop_left' (goodHeader_length _)
  unfold imageReason
  rw [if_neg (by decide +kernel), if_neg (by subst hn; decide +kernel), if_neg (by decide +kernel), if_neg (by decide +kernel)]
  rw [hv, hd, hk, hb, FuseSt.vendorSlot, hf, hm]
  simp [zeroKey, goodDigest]

/-- What reads the image whole takes it whole. -/
theorem goodImage_take (read : Nat → List Byte) (h : ∀ n, n ≤ 520 → read n = (goodImage goodDigest).take n) : imgTake read = goodImage goodDigest := by
  have h1 : (goodImage goodDigest).take 512 = goodHeader goodDigest := List.take_left' (goodHeader_length _)
  have h2 : imgBodyOk (goodHeader goodDigest) = true ∧ imgBody (goodHeader goodDigest) = 8 := by decide +kernel
  rw [imgTake, h 512 (by omega), h1]
  simp only [h2, if_true]
  exact (h 520 (by omega)).trans (List.take_of_length_le (by have := goodImage_length goodDigest; omega))

/-- That image in the code area. -/
def checkingGood : State :=
  let s := checking
  { s with fuse := { s.fuse with vendor0 := { hash := zeroKey, st := .provisioned } }
           groom := { s.groom with sram := placed 0 (goodImage goodDigest), goLen := 520 } }

theorem wit_ImageChecks_pass (hv : ∀ k c m s, Config.ed448Verify k c m s = true) :
    checkingGood.down = false ∧ checkingGood.grmPhase = 2 ∧ checkingGood.stackState 7 ≤ 1 ∧
      imageReason checkingGood.fuse checkingGood.codeImage checkingGood.groom.goLen = none := by
  refine ⟨rfl, by decide +kernel, by decide +kernel, ?_⟩
  have h : checkingGood.codeImage = goodImage goodDigest := goodImage_take _ (fun n hn => placed_read _ _ n (by rw [goodImage_length]; exact hn))
  rw [h]; exact goodImage_passes _ _ rfl rfl rfl hv

theorem wit_Mailbox : requestRows.map (fun e => (e.1, e.2.1)) = [(1, 64), (2, 0), (3, 64), (4, 120), (5, 16), (6, 40)] ∧
    running.grmBusy = false ∧ running.feature 0 = true ∧ ready.feature 0 = false ∧
    (running.setFld .GRM_REQ_STATUS 0 0 63 63 1).grmBusy = true ∧ checking.grmPhase ≠ 4 := by decide +kernel

/-- A request in progress: its OP, verdict and the first word of its payload. -/
def asked (op verdict w : Nat) : State :=
  let s := (running.setFld .GRM_REQ_STATUS 0 0 63 63 1).setReg .GRM_FW_SVN 0 0 9
  { s with groom := { s.groom with req := some { op := op, seq := 70000, verdict := verdict, payload := leBytes 8 w ++ leBytes 120 7 } }
           fuse := { s.fuse with owner1 := { hash := 3, st := .provisioned }, owner2 := { hash := 4, st := .revoked }, svnMin := 4 } }

/-- A FUSE request: subop, slot, value. -/
def fusing (op slot v : Nat) : State := asked 6 0 (op * 2 ^ 56 + slot * 2 ^ 48 + v)

/-- What a FUSE request answers. -/
def fused (op slot v : Nat) : Option Nat :=
  match exec .grmRequestDone (fusing op slot v) with | .next t => some (t.fld .GRM_REQ_STATUS 0 0 55 48) | _ => none

theorem wit_RequestCompletes : (asked 1 0 0).down = false ∧ (asked 1 0 0).groom.req.isSome = true ∧ (asked 1 0 0).groom.hand = none := by
  decide +kernel
theorem test_fuse_slots : fused 1 0 0 = some 0 ∧ fused 1 1 0 = some 3 ∧ fused 1 4 0 = some 3 ∧ fused 2 1 0 = some 0 ∧ fused 2 2 0 = some 3 := by
  decide +kernel
theorem test_fuse_values : fused 3 0 4 = some 3 ∧ fused 3 0 5 = some 0 ∧ fused 3 0 9 = some 0 ∧ fused 3 0 10 = some 3 ∧ fused 4 0 0 = some 0 ∧
    fused 4 1 0 = some 3 ∧ fused 5 0 0 = some 0 := by decide +kernel

/-- An offered key pair. -/
def offered : State := { asked 4 0 0 with groom := { (asked 4 0 0).groom with offer := some (1, [2], [3]) } }

theorem wit_RequestCompletes_key (b : List Byte) (h : ∀ k n a c t, Config.gcmOpen k n a c t = some b) :
    (∃ k, offered.keyOpen (leBytes 120 0) = some k) ∧ (asked 4 0 0).keyOpen (leBytes 120 0) = none := by
  refine ⟨⟨leNat b, ?_⟩, rfl⟩
  simp only [State.keyOpen, h, show offered.groom.offer = some (1, [2], [3]) from rfl, Option.map_some]

/-- A handover at a step, of an image of 520 bytes at address 0. -/
def handing (step : HandStep) (digest since : Nat) : State :=
  let s := asked 5 0 0
  { s with groom := { s.groom with hand := some { addr := 0, len := 520, step := step, digest := digest, since := since } } }

/-- The handover of an image that memory holds. -/
def handingGood (step : HandStep) : State :=
  let s := handing step (fwDigest (goodImage goodDigest)) 0
  { s with mem := placed 0 (goodImage goodDigest)
           fuse := { s.fuse with vendor0 := { hash := zeroKey, st := .provisioned }, svnMin := 0 } }

/-- The handover of those states. -/
def aHand (step : HandStep) (digest since : Nat) : Handover := { addr := 0, len := 520, step := step, digest := digest, since := since }

theorem handingGood_image (step : HandStep) (d since : Nat) : (handingGood step).handImage (aHand step d since) = goodImage goodDigest :=
  goodImage_take _ (fun n hn => (placed_read (memDefault []) (goodImage goodDigest) (min n 520) (by have := goodImage_length goodDigest; omega)).trans
    (by rw [Nat.min_eq_left hn]))

theorem wit_Handover_checked (hv : ∀ k c m s, Config.ed448Verify k c m s = true) :
    (handingGood .checking).down = false ∧ (handingGood .checking).badIn 0 520 = none ∧
      imageReason (handingGood .checking).fuse ((handingGood .checking).handImage (aHand .checking 0 0)) 520 = none := by
  refine ⟨rfl, by decide +kernel, ?_⟩
  rw [handingGood_image]; exact goodImage_passes _ _ rfl rfl rfl hv
theorem wit_Handover_refused : (handing .checking 0 0).down = false ∧ (handing .checking 0 0).groom.hand = some (aHand .checking 0 0) ∧
    imageReason (handing .checking 0 0).fuse ((handing .checking 0 0).handImage (aHand .checking 0 0)) 520 = some 1 := by decide +kernel
theorem wit_Handover_checkpoint : (handing .checked 0 0).down = false ∧ (handing .checked 0 0).groom.hand = some (aHand .checked 0 0) ∧
    (handing .checked 0 0).groom.req.isSome = true := by decide +kernel
theorem wit_Handover_start : (handingGood .checkpointed).down = false ∧
    (handingGood .checkpointed).groom.hand = some (aHand .checkpointed (fwDigest (goodImage goodDigest)) 0) ∧
    fwDigest ((handingGood .checkpointed).handImage (aHand .checkpointed 0 0)) = fwDigest (goodImage goodDigest) :=
  ⟨rfl, rfl, by rw [handingGood_image]⟩
theorem wit_Handover_ready : (handing .started 0 0).down = false ∧ ∀ st, st < 8 → (handing .started 0 0).maintQ st = [] := by decide +kernel

/-- Firmware has run for a second without a heartbeat. -/
def late (s : State) : State := { s with time := 10 ^ 9 }

theorem wit_GroomFaults : (late running).down = false ∧ (late running).firmwareRuns = true ∧ ((late running).reg .GRM_STATUS 0 0).bit 15 = true ∧
    (late running).grmPhase = 4 ∧ (late running).groom.beatAt + ms 20 ≤ (late running).time := by decide +kernel
theorem wit_GroomFaults_handover : (late (handing .started 0 0)).down = false ∧
    (late (handing .started 0 0)).groom.hand = some (aHand .started 0 0) ∧ 0 + ms 100 ≤ (late (handing .started 0 0)).time := by decide +kernel

/-- Firmware starts, with every stack training. -/
def training : State := (booting.setPhase 2).firmwareStart anImage

theorem wit_Firmware_training : training.down = false ∧ training.grmPhase = 3 ∧ training.stackState 7 = 1 ∧ training.groom.loadStarted = false := by
  decide +kernel
theorem wit_Firmware_features : after training (.grmDrvFeaturesWrite 0xFFFFFFFFFFFFFFF1) (fun t =>
    t.reg .GRM_DRV_FEATURES 0 0 == 0x3F1 && t.reg .GRM_FEATURES_ACTIVE 0 0 != training.reg .GRM_FEATURES_ACTIVE 0 0) = true ∧
    after training (.grmDrvFeaturesWrite (training.reg .GRM_DRV_FEATURES 0 0)) (fun t => t.regs == training.regs) = true := by decide +kernel
theorem wit_Firmware_beat : running.firmwareRuns = true ∧ running.grmPhase ≠ 6 := by decide +kernel

/-- The event ring is served, and holds a record back. -/
def eventful : State :=
  let s := (upTo 8).foldl (fun s i => s.setStack i 2) running
  { s with svc := { s.svc with qtableSet := true, events := [{ seq := 8191, word0 := 0, time := 5, word3 := 0, detail := 0 }] } }

theorem wit_Firmware_event : eventful.down = false ∧ eventful.eventsOpen = true ∧ 0x400000 + 64 * (8191 % 8192) + 64 ≤ hbmTop ∧
    eventful.hbmServed (0x400000 + 64 * 8191) = true := by decide +kernel

/-! ## Witnesses: HBM -/

/-- Stack 3 in a state, the others ONLINE; the queue table lies below stack 3's rows. -/
def stackAt (n : Nat) : State := { running.setStack 3 n with time := 10 ^ 8 }

theorem wit_Maintenance : (∀ n, n < 7 → (stackAt n).down = false ∧ (stackAt n).grmPhase ≠ 5 ∧ (stackAt n).stackState 3 = n ∧ (stackAt n).maintQ 3 = [] ∧
    (stackAt n).feature 5 = true) ∧ ready.feature 5 = false := by decide +kernel
theorem wit_Maintenance_fence : ((stackAt 3).setMaintQ 3 [1]).maintQ 3 = [1] ∧ (∀ c, c < 16 → ((stackAt 3).ctrl 3 c).waiting = []) ∧
    ((stackAt 5).setMaintQ 3 [3]).maintQ 3 = [3] := by decide +kernel

/-- A controller of stack 3 with credits and units that wait. -/
def credits (n : Nat) (r w m : Int) (us : List HbmUnit) : State :=
  (stackAt n).setCtrl 3 5 { CtrlSt.idle with read := r, write := w, remote := m, waiting := us }

/-- A unit of stack 3. -/
def aUnit (c : UnitSource) : HbmUnit := { src := c, corral := some 2, addr := 0x1200, partialWord := false }

theorem wit_Positions : (credits 2 0 0 0 []).down = false ∧ ((credits 2 0 0 0 []).ctrl 3 5).waiting = [] ∧
    ((credits 3 0 0 0 [aUnit .streamWrite]).ctrl 3 5).waiting = [aUnit .streamWrite] ∧
    (stackAt 2).bankBusy ((stackAt 2).pcOf 0x1200) ((stackAt 2).bankOf 0x1200) = false := by decide +kernel
theorem wit_Positions_strict : ((stackAt 2).reg .HBM_SPLIT 0 0).bit 32 = false ∧
    (((stackAt 2).setReg .HBM_SPLIT 0 0 0x100000000).reg .HBM_SPLIT 0 0).bit 32 = true := by decide +kernel
theorem wit_Positions_refused : (stackAt 4).stackOf ((stackAt 4).unitAddr 106 0) = 3 ∧ (stackAt 4).ctrlOf ((stackAt 4).unitAddr 106 0) = 5 ∧
    (stackAt 4).stackState 3 ≠ 2 ∧ (stackAt 4).stackState 3 ≠ 3 := by decide +kernel

/-- A READ unit is served where READ's credit is not below the others', and a WRITE unit then counts as given away (R262). -/
theorem test_position_read : after (credits 2 0 0 0 [aUnit .streamRead]) (.hbmPositionServe 3 5 (.serve []))
    (fun t => (t.ctrl 3 5).waiting == [] && t.fld .HBM_CNT 3 0 47 0 == 1 && t.fld .HBM_CNT 3 4 47 0 == 0) = true := by decide +kernel
theorem test_position_given_away : after (credits 2 0 0 0 [aUnit .streamWrite]) (.hbmPositionServe 3 5 (.serve []))
    (fun t => (t.ctrl 3 5).waiting == [] && t.fld .HBM_CNT 3 1 47 0 == 1 && t.fld .HBM_CNT 3 4 47 0 == 1) = true := by decide +kernel

/-- The same controller, with a scrub read that waits since an instant. -/
def scrubWaits (since : Nat) (us : List HbmUnit) : State :=
  (credits 2 0 0 0 us).setCtrl 3 5 { (credits 2 0 0 0 us).ctrl 3 5 with scrubDue := some since }
theorem wit_Positions_scrub : ((scrubWaits 7 []).ctrl 3 5).scrubDue = some 7 ∧ ((scrubWaits 7 []).ctrl 3 5).waiting = [] ∧
    ((scrubWaits 0 [aUnit .walk]).ctrl 3 5).waiting = [aUnit .walk] ∧
    0 + (scrubWaits 0 []).fld .HBM_SCRUB_CFG 0 0 19 0 * 100000 ≤ (scrubWaits 0 []).time ∧
    ¬ (10 ^ 8 + (scrubWaits 0 []).fld .HBM_SCRUB_CFG 0 0 19 0 * 100000 ≤ (scrubWaits 0 []).time) ∧ (stackAt 2).feature 5 = true := by decide +kernel
theorem test_position_scrub : after (scrubWaits 7 []) (.hbmPositionServe 3 5 (.serve []))
    (fun t => (t.ctrl 3 5).scrubDue == none && t.fld .HBM_CNT 3 8 47 0 == 1) = true := by decide +kernel
theorem wit_Positions_spoiled : (∃ u ∈ ((credits 2 0 0 0 [aUnit .reinPort]).ctrl 3 5).waiting, u.corral = some 2) ∧
    (credits 2 0 0 0 [aUnit .reinPort]).discard 2 = none ∧ (aUnit .reinPort).cls = .remote ∧
    (∀ u ∈ ((credits 2 0 0 0 [{ aUnit .hostPort with corral := none }]).ctrl 3 5).waiting, u.corral = none) := by decide +kernel

theorem wit_Refresh_temp : (85 : BitVec 8).toNat ≤ 85 ∧ 85 < (86 : BitVec 8).toNat ∧ ((stackAt 2).reg .HBM_STATUS 3 0).bit 8 = false ∧
    (((stackAt 2).setFld .HBM_STATUS 3 0 8 8 1).reg .HBM_STATUS 3 0).bit 8 = true := by decide +kernel
theorem wit_Refresh_bank : 2 ≤ (stackAt 5).stackState 3 ∧ (stackAt 5).stackState 3 ≤ 5 ∧ ((stackAt 5).pch 101).inSr = false ∧
    smGet (fun _ => 0) (stackAt 5).hbm.refreshed (101 * 64) + 3900 ≤ (stackAt 5).time ∧ ready.time < 3900 := by decide +kernel
theorem wit_Refresh_enter : (stackAt 4).fld .HBM_SR_IDLE 3 5 19 0 ≠ 0 ∧ ((stackAt 4).pch 101).waking = false ∧
    ((stackAt 4).ctrl 3 2).waiting = [] ∧ ((stackAt 4).pch 101).usedAt + (stackAt 4).fld .HBM_SR_IDLE 3 5 19 0 * 1000 ≤ (stackAt 4).time ∧
    2 ≤ (stackAt 4).stackState 3 ∧ ((stackAt 4).setReg .HBM_SR_IDLE 3 5 0).fld .HBM_SR_IDLE 3 5 19 0 = 0 := by decide +kernel

/-- A pseudo-channel has slept for longer than the walk may be put off, with scrub on. -/
def asleep : State := { (stackAt 2).setPch 101 { (stackAt 2).pch 101 with inSr := true } with time := 10 ^ 15 }

theorem wit_Refresh_wake : asleep.down = false ∧ (asleep.pch 101).inSr = true ∧ (asleep.reg .HBM_SCRUB_CFG 0 0).bit 31 = true ∧
    (asleep.pch 101).walkedAt + asleep.fld .HBM_SCRUB_CFG 0 0 63 32 * 10 ^ 9 ≤ asleep.time := by decide +kernel
theorem wit_Refresh_scrub : ((stackAt 2).reg .HBM_SCRUB_CFG 0 0).bit 31 = true ∧
    ((stackAt 2).ctrl 3 5).scrubAt + (stackAt 2).fld .HBM_SCRUB_CFG 0 0 19 0 * 1000 ≤ (stackAt 2).time ∧
    ((stackAt 2).pch 106).inSr = false ∧ (stackAt 2).bad = [] ∧ ((stackAt 2).pch 106).walk + 1 < 4194304 ∧ (stackAt 2).hbm.soft = [] := by
  decide +kernel

theorem wit_Positions_upset : (stackAt 2).stackOf 0 = 0 ∧ (stackAt 2).ctrlOf 0 = 0 := by decide +kernel
theorem test_upset : after { running with regs := [(regAddr .HBM_STATUS 0 0, 2)] } (.hbmPositionServe 0 0 (.upset 3 false)) (fun t =>
    t.hbm.soft == [96] && (t.touchSoft false 64 64 96).fld .HBM_CNT 0 5 47 0 == 1 && (t.touchSoft true 96 32 96).hbm.soft == []) = true := by
  decide +kernel
theorem wit_Refresh_scrub_waits : ((credits 2 0 0 0 [aUnit .streamRead]).ctrl 3 5).waiting ≠ [] ∧
    ((credits 2 0 0 0 [aUnit .streamRead]).ctrl 3 5).scrubAt = 0 ∧ ((stackAt 2).ctrl 3 5).waiting = [] := by decide +kernel

/-! ## Witnesses: the on-chip network -/

/-- A packet at router 33 on its way to router 65, with its turn codes. -/
def going (route : Nat) : NocPacket := { nocPkt 33 0 2 with route := BitVec.ofNat 64 route, ctl := BitVec.ofNat 64 (65 * 2 ^ 54) }

/-- The network holds it. -/
def carrying (p : NocPacket) : State := { running with noc := { running.noc with packets := [p] } }

theorem wit_Hops : (carrying (going 0)).down = false ∧ (going 0).router < 768 ∧ ((going 0).guar && (going 0).net == 3) = false ∧
    going 0 ∈ (carrying (going 0)).noc.packets ∧
    (∀ q ∈ (carrying (going 0)).noc.packets.takeWhile (· != going 0), q.path ≠ (going 0).path) ∧
    (∃ q ∈ ({ running with noc := { running.noc with packets := [{ going 0 with flits := 3 }, going 0] } } : State).noc.packets.takeWhile
      (· != going 0), q.path = (going 0).path) := by decide +kernel
theorem wit_Hops_south : codeDir (turnCode (going 0x13).route 0) = some .south ∧ turnCode (going 0x13).route 1 = 1 ∧
    stepRouter 33 .south = some 65 ∧ (carrying (going 0x13)).linkOff 33 65 .south = false ∧ routerDie 65 = routerDie 33 := by decide +kernel
theorem wit_Hops_bridge : stepRouter 15 .east = some 16 ∧ routerDie 16 ≠ routerDie 15 ∧ running.linkOff 15 16 .east = false := by decide +kernel
theorem wit_Hops_off_mesh : stepRouter 0 .north = none ∧ stepRouter 31 .east = none ∧ stepRouter 767 .south = none ∧ stepRouter 736 .west = none := by
  decide +kernel
theorem wit_Hops_codes : turnCode (going 0x16).route 0 = 6 ∧ codeDir 6 = none ∧ turnCode (going 0).route 0 = 0 ∧ (going 0).router ≠ (going 0).dst ∧
    ({ going 0 with router := 65 } : NocPacket).router = (going 0).dst ∧ (going 0).dstKind ≠ 6 := by decide +kernel

/-- Frames that switch the link off from router 33 to the south (R429). -/
def switchedOff : State :=
  { carrying (going 0x13) with
    cfg := { running.cfg with
      frames := [(frameAddr 0 3 0 19 * 128 + routerLocal 33 % 128, BitVec.ofNat 64 (2 ^ dirCode .south))] } }

theorem wit_Hops_link_off : switchedOff.linkOff 33 65 .south = true ∧ switchedOff.down = false := by decide +kernel

/-- A new request from router 33. -/
def fresh : NocPacket := { going 0 with ctl := BitVec.ofNat 64 (65 * 2 ^ 54 + 33 * 2 ^ 35 + 9 * 2 ^ 10) }

theorem wit_Hops_fresh : fresh ∉ running.noc.packets ∧ freshPkt fresh = true ∧ fresh.net = 0 ∧ running.tagFree (routerDie fresh.src) fresh.tag = true ∧
    fresh.gen = running.tagGen (routerDie fresh.src) fresh.tag := by
  decide +kernel

/-- A packet at router 15 whose first turn code leads east over the bridge, one flit of it across. -/
def bridging (crossed flits : Nat) : NocPacket :=
  { nocPkt 15 0 flits with route := 0x12, ctl := BitVec.ofNat 64 (16 * 2 ^ 54), crossed := crossed }
theorem wit_Hops_lane : (bridging 0 2).dir = none ∧ codeDir (turnCode (bridging 0 2).route 0) = some .east ∧
    turnCode (bridging 0 2).route 1 < 14 ∧ bridging 0 2 ∈ (carrying (bridging 0 2)).noc.packets ∧ (bridging 0 2).lane ≠ some (4 * 15 + dirCode .east) ∧
    ((bridging 0 2).guar && (bridging 0 2).net == 3) = false ∧ (bridging 1 2).crossed + 1 = (bridging 1 2).flits ∧ (bridging 4 6).crossed < 5 ∧
    (∀ q ∈ (carrying (bridging 0 2)).noc.packets.erase (bridging 0 2), q.leavesBy (4 * 15 + dirCode .east) = false) := by decide +kernel
theorem wit_Hops_turn : let p : NocPacket := { going 0x13 with dir := some .south, left := 2 }
    p.dir = some .south ∧ 1 < p.left ∧ p ∈ (carrying p).noc.packets := by decide +kernel
theorem test_lane : after (carrying (bridging 0 2)) (.nocPacketHop (bridging 0 2)) (fun t => t.noc.packets == [bridging 1 2] &&
    t.fld .NOC_CNT 0 5 47 0 == 1) = true ∧
  after (carrying (bridging 1 2)) (.nocPacketHop (bridging 1 2)) (fun t => t.noc.packets.map (fun q => (q.router, q.bridges, q.lane)) ==
    [(16, 1, some 61)]) = true := by decide +kernel

/-- A broadcast at a router (R422), and a guaranteed packet two hops into flow 5 of die 0, which holds wheel slot 10. -/
def cast (router : Nat) (spread : Bool) : NocPacket :=
  { nocPkt router 2 2 with ctl := BitVec.ofNat 64 (6 * 2 ^ 51), spread := spread }
def guaranteed : NocPacket :=
  { nocPkt 33 3 2 with ctl := BitVec.ofNat 64 (65 * 2 ^ 54 + 2), dir := some .south, left := 1, hops := 2, flow := some 5 }
def atSlot (time : Nat) : State := { carrying guaranteed with regs := [(regAddr .NOC_FLOW_SLOTS 0 5, 8)], time := time }

theorem wit_Hops_spreads : (cast 0 false).net = 2 ∧ (cast 0 false).dstKind = 6 ∧ (cast 0 false).dir = none ∧
    turnCode (cast 0 false).route 0 = 0 ∧ (cast 735 true).router < 736 ∧ (cast 767 true).spread = true := by decide +kernel
theorem test_broadcast : after (carrying (cast 5 true)) (.nocPacketHop (cast 5 true)) (fun t =>
    t.noc.packets.map (fun q => (q.router, q.dir)) == [(5, some .east), (5, some .south)] && t.noc.delivered.length == 1) = true := by decide +kernel
theorem wit_Hops_guar : guaranteed.guar = true ∧ guaranteed.net = 3 ∧ guaranteed ∈ (atSlot 21).noc.packets ∧ stepRouter 33 .south = some 65 ∧
    (atSlot 21).linkOff 33 65 .south = false ∧ (atSlot 21).fld .NOC_FLOW_SLOTS 0 5 5 0 = 8 := by decide +kernel
theorem test_slot : after (atSlot 21) (.nocPacketHop guaranteed) (fun t => t.fld .NOC_CNT 0 3 47 0 == 1) = true ∧
    after (atSlot 20) (.nocPacketHop guaranteed) (fun t => t == atSlot 20) = true ∧
    after (atSlot 19) (.nocPacketHop guaranteed) (fun t => t == atSlot 19) = true ∧
    after (atSlot 23) (.nocPacketHop guaranteed) (fun t => t.fld .NOC_CNT 0 4 47 0 == 2) = true := by decide +kernel

/-- A request that die 0 tracks. -/
def aReq : TrackedReq :=
  { gen := 4, deadline := 500, timeout := 100, queue := 7, seq := 1, corral := 3, remote := none, kind := 0, addr := 0, len := 8, dest := 0, ctx := 0
    recv := 0 }

/-- Die 0 tracks it under tag 9, a microsecond after its deadline. -/
def tracking : State :=
  { running with noc := { running.noc with reqs := [(9, some aReq)] }, time := 1500 }

theorem wit_Timeouts_stuck : going 0 ∈ (carrying (going 0)).noc.packets ∧ (going 0).router < 768 := by decide +kernel
theorem wit_Timeouts : tracking.down = false ∧ tracking.tracked 0 9 = some aReq ∧ aReq.deadline ≤ tracking.time ∧ tracking.cmd aReq.queue aReq.seq = none := by
  decide +kernel
theorem wit_Timeouts_late : (∀ r, tracking.tracked 0 9 = some r → r.gen ≠ 5) ∧ running.tracked 0 9 = none := by
  refine ⟨fun r h => ?_, by decide +kernel⟩
  cases (show some aReq = some r from h); decide

/-- The generation of a tag that timed out goes on, and the tag is held for four timeouts (R440). -/
theorem test_timeout : after tracking (.initiatorTimeout 0 9) (fun t => t.tagGen 0 9 == 5 && smGet (fun _ => none) t.noc.held 9 == some (4, 1900) &&
    t.fld .NOC_CNT 0 1 47 0 == 1) = true := by decide +kernel

/-- A command in flight of corral 2, with a descriptor. -/
def words (d : List Nat) : List Word := (d ++ List.replicate (16 - d.length) 0).map (BitVec.ofNat 64)
def header (cls sub : Nat) : Nat := cls * 2 ^ 60 + sub * 2 ^ 56
def cmdOf (q seq : Nat) (d : List Nat) : Cmd :=
  { queue := q, seq := seq, corral := 2, desc := words d, phase := .running, startTime := 10, segs := [2], ctxs := [0], slots := [], banks := []
    windows := [], halts := 0, counts := Counts.zero, stages := [], hands := [], stageTabs := [], latch := [], moved := 0, units := 0
    tether := 0, released := 0, owner := 0, inactive := false, freed := [], masks := [], fold := FoldSt.start }

theorem wit_Timeouts_command : (let r := { aReq with corral := 2 }; let s := { tracking with cmds := [cmdOf 7 1 [header 3 0]] }
    (∃ c, s.cmd r.queue r.seq = some c ∧ c.corral = r.corral ∧ c.phase = .running) ∧ s.discard 2 = none) :=
  ⟨⟨_, rfl, rfl, rfl⟩, rfl⟩

/-- A tag that is held, its hold over. -/
def holding : State := { running with noc := { running.noc with held := [(9, some (4, 1900))] }, time := 1900 }

theorem wit_Timeouts_held : holding.down = false ∧ smGet (fun _ => none) holding.noc.held 9 = some (4, 1900) ∧ 1900 ≤ holding.time := by decide +kernel

/-! ## Witnesses: paddocks -/

/-- Paddock 5 in a state, in a device of which corral 2 owns the paddocks, 0 and 5 of depth 1. -/
def pdkIs (k : PdkSt) : State :=
  let s := (upTo 8).foldl (fun s i => s.setStack i 2) running
  ({ s with cfg := { s.cfg with
              live := { s.cfg.live with own := [⟨.paddock, 0, 99, some 2⟩] }
              frames := [((pdkFrame 0 + 2) * 128 + 64, 1), ((pdkFrame 5 + 2) * 128 + 64, 1)] }
            time := 10 ^ 6 } : State).setPdk 5 k

/-- A paddock that ticks, at the tick before its user reset ends. -/
def ticking : PdkSt := { PdkSt.idle0 with stage := 2, tick := 15, lastEdge := 5 }

theorem wit_Gait : (pdkIs ticking).down = false ∧ (pdkIs ticking).pdkTicks 5 = true ∧ (pdkIs ticking).gaitMembers 5 = [5] ∧
    (pdkIs ticking).edgeHeld 5 = 0 ∧ ((pdkIs ticking).pdk 5).stage = 2 ∧ 15 + 1 = RParam.dflt.ticks ∧
    smGet (fun _ => RParam.dflt) (pdkIs ticking).cfg.live.rparams ((pdkIs ticking).pdkRegion 5) = RParam.dflt := by decide +kernel
theorem wit_Gait_none : ready.pdkTicks 5 = false ∧ (ready.pdk 5).stage ≠ 2 ∧ ({ ticking with tick := 14 } : PdkSt).tick + 1 ≠ 16 := by decide +kernel

/-- A paddock whose edge is held: it has run with IDLE set, and no word is there. -/
def heldEdge : State := pdkIs { ticking with stage := 3, idle := true }

theorem wit_Gait_held : heldEdge.down = false ∧ heldEdge.edgeHeld 5 ≠ 0 ∧ 5 ∈ heldEdge.gaitMembers 5 ∧ heldEdge.pdkTicks 5 = true ∧
    (heldEdge.pdk 5).stopped = false ∧ (heldEdge.pdk 5).lastEdge * 1000 + heldEdge.pdkPeriod 5 + 1000000 ≤ heldEdge.time * 1000 := by decide +kernel

/-- A stopped gait that nothing holds any more. -/
def stoppedGait : State := pdkIs { ticking with stage := 3, stopped := true }
theorem wit_Idle_gait : stoppedGait.down = false ∧ 5 ∈ smKeys stoppedGait.pdks ∧ (stoppedGait.pdk 5).stopped = true ∧ stoppedGait.grmPhase ≠ 0 ∧
    ({ stoppedGait with time := stoppedGait.time + 1 } : State).gaitHeld 5 = false := by decide +kernel

/-- A paddock with words in flight. -/
def sending : State := pdkIs { ticking with flight := [7, 9] }

theorem wit_Words_drop : sending.down = false ∧ (sending.pdk 5).flight = [7, 9] ∧ sending.discards (sending.pdkTo 5) = true := by decide +kernel
theorem wit_Words_deliver : (sending.setPdk 0 ticking).pdkTo 5 = 0 ∧ (sending.setPdk 0 ticking).discards 0 = false ∧
    (sending.pdk 5).flight.head? ≠ some 9 := by decide +kernel

/-- A paddock with a batch of so many words, the first pushed at a time. -/
def batching (n at_ : Nat) : State :=
  pdkIs { ticking with outRing := { PdkRing.idle with batch := List.replicate n 3, batchAt := at_ } }

theorem wit_Words_batch : ((batching 16 (10 ^ 6)).pdk 5).outRing.batch.length = 16 ∧
    ((batching 1 999900).pdk 5).outRing.batchAt + 100 ≤ (batching 1 999900).time ∧
    ¬ ((batching 15 999901).pdk 5).outRing.batchAt + 100 ≤ (batching 15 999901).time ∧ ((batching 15 999901).pdk 5).stopped = false := by decide +kernel
theorem wit_Words_ram : (0x11F8#13).toNat + 8 ≤ 0x1200 ∧ (0x11F8#13).toNat % 8 = 0 ∧ (0x11FC#13).toNat % 8 ≠ 0 ∧ (0x11FC#13).toNat + 4 ≤ 0x1200 ∧
    (0x1200#13).toNat + (0#13).toNat ≤ 0x1200 := by decide
theorem test_ram : after running (.paddockRamAccess 5 0x11F8 (some [1, 2, 3, 4, 5, 6, 7, 8]) 0)
    (fun t => t.rdBytes (pdkRamAddr 5 0x11F8) 8 == [1, 2, 3, 4, 5, 6, 7, 8]) = true := by decide +kernel

/-- Probe ports of paddock 5. -/
def probing (c r : ProbePhase) : State :=
  let s := pdkIs { ticking with cap := c, rep := r }
  (((s.setFld .PDK_PROBE_LEN 5 0 31 0 4).setFld .PDK_REPLAY_LEN 5 0 31 0 2).setFld .PDK_PROBE_START 5 0 47 0 15).setFld .PDK_REPLAY_CTL 5 0 4 4 1

theorem wit_Probe_unowned : running.down = false ∧ running.owner .paddock 5 = none ∧ (running.pdk 5).cap = .off ∧ (running.pdk 5).rep = .off := by
  decide +kernel
theorem wit_Probe_phases : ((probing .armed .off).pdk 5).cap = .armed ∧ ((probing .running .off).pdk 5).cap = .running ∧
    ((probing .running .off).pdk 5).full = [] ∧ ((probing .running .off).pdk 5).block = none ∧ ((probing .done .armed).pdk 5).rep = .armed ∧
    ((probing .done .running).pdk 5).rep = .running ∧ ((probing .done .done).pdk 5).rep = .done := by decide +kernel
theorem wit_Probe_start : (probing .armed .off).pdkTicks 5 = true ∧
    (probing .armed .off).fld .PDK_PROBE_START 5 0 47 0 = ((probing .armed .off).pdk 5).tick ∧ ((probing .armed .off).pdk 5).rep ≠ .armed := by
  decide +kernel

/-- A closed block of two samples. -/
def aBlock : CapBlock := { stampFirst := 100, stampLast := 200, tickFirst := 3, samples := [4, 5], gap := true, lost := 2 }

/-- A capture that runs, with that block to write to the second block of its region. -/
def capturing : State :=
  let s := (probing .running .off).setFld .PDK_PROBE_WPTR 5 0 31 0 1
  s.setPdk 5 { s.pdk 5 with full := [aBlock] }

theorem wit_Probe_write : capturing.down = false ∧ (capturing.pdk 5).full = [aBlock] ∧ aBlock.samples.length ≤ 60 ∧
    capturing.fld .PDK_PROBE_BASE 5 0 56 9 * 512 + 512 * 1 + 512 ≤ hbmTop ∧ capturing.hbmServed 512 = true ∧
    capturing.fld .PDK_PROBE_WPTR 5 0 31 0 = 1 ∧ 1 + 1 < capturing.fld .PDK_PROBE_LEN 5 0 31 0 := by decide +kernel
theorem wit_Probe_stimulus : ((probing .off .armed).pdk 5).repBuf.length < 2 ∧ (probing .off .armed).fld .PDK_REPLAY_RPTR 5 0 31 0 = 0 ∧
    0 < (probing .off .armed).fld .PDK_REPLAY_LEN 5 0 31 0 ∧ (probing .off .armed).badIn 0 512 = none ∧
    ((probing .off .armed).setFld .PDK_REPLAY_RPTR 5 0 31 0 1).fld .PDK_REPLAY_RPTR 5 0 31 0 + 1 = (probing .off .armed).fld .PDK_REPLAY_LEN 5 0 31 0 ∧
    ((probing .off .armed).reg .PDK_REPLAY_CTL 5 0).bit 4 = true := by decide +kernel

/-- The block written stands as R357 lays it out. -/
theorem test_capture : after capturing (.captureBlockWrite 5) (fun t => t.rdWord 512 == 100 && t.rdWord (512 + 16) == 3 * 2 ^ 16 + 2 * 256 + 1 &&
    t.rdWord (512 + 24) == 2 * 2 ^ 32 + 5 && t.rdWord (512 + 40) == 5 && t.rdWord (512 + 48) == 0) = true := by decide +kernel

/-! ## Witnesses: configuration -/

/-- A write of CFG_LOAD: its CMD, SOURCE and SCOPE. -/
def loadCmd (cmd source scope : Nat) : Word := BitVec.ofNat 64 (cmd * 2 ^ 60 + source * 2 ^ 58 + scope * 2 ^ 56)

/-- A state with a load; a lead. -/
def loading (l : LoadSt) : State :=
  let s := (upTo 8).foldl (fun s i => s.setStack i 2) running
  { s with cfg := { s.cfg with load := some l } }
def aLead : State := running.setFld .RNL_IDENT 0 0 36 36 1

theorem wit_Load_legal : (∀ src, src < 3 → ∀ scope, scope < 2 → (loadCmd 1 src scope).fld 63 60 = 1 ∧ (loadCmd 1 src scope).fld 59 58 = src ∧
    (loadCmd 1 src scope).fld 57 56 = scope) ∧ (loadCmd 1 3 0).fld 59 58 = 3 ∧ (loadCmd 1 0 2).fld 57 56 = 2 ∧ (loadCmd 2 0 0).fld 63 60 = 2 := by
  decide +kernel
theorem wit_Load : running.down = false ∧ running.cfg.load = none ∧ running.isLead = false ∧ aLead.isLead = true ∧
    running.fld .CFG_LOAD_ADDR 0 0 56 0 % 512 = 0 ∧ (running.setReg .CFG_LOAD_ADDR 0 0 8).fld .CFG_LOAD_ADDR 0 0 56 0 % 512 ≠ 0 ∧
    (loading (newLoad .hbm 0 0 0 false false false)).cfg.load ≠ none := by decide +kernel

/-- The header of a full image whose body, an END alone, has the digest d. -/
def cfgHeader (d : Nat) : List Byte :=
  leBytes 4 0x7C0F1A6E ++ leBytes 2 1 ++ leBytes 2 0 ++ leBytes 4 0x1307296B ++ leBytes 2 2 ++ leBytes 2 0x71 ++ leBytes 4 5 ++ leBytes 4 0 ++
    leBytes 8 8 ++ leBytes 32 (2 ^ 256 - 1) ++ leBytes 32 d ++ leBytes 416 0
def cfgBody : List Byte := leBytes 8 0x0F00000000000000
def cfgImage : List Byte := cfgHeader (Config.shake256 cfgBody).toNat ++ cfgBody

theorem cfgHeader_length (d : Nat) : (cfgHeader d).length = 512 := by simp [cfgHeader, leBytes_length]
theorem cfgImage_length : cfgImage.length = 520 := by simp [cfgImage, cfgHeader_length, cfgBody, leBytes_length]

/-- A load of that image from address 0, with its key in the owner's slot 0; of a source of n bytes. -/
def cfgSource (n : Nat) : LoadSt := newLoad .hbm 0 n 0 false false false
def cfgLoading (l : LoadSt) : State :=
  let s := loading l
  { s with mem := placed 0 cfgImage, fuse := { s.fuse with owner0 := { hash := zeroKey, st := .provisioned } } }

/-- The bytes a source in HBM at address 0 gives are those that stand there. -/
theorem srcHead (s : State) (l : LoadSt) (img : List Byte) (hm : s.mem = placed 0 img) (hs : l.source = .hbm) (ha : l.addr = 0)
    (hn : 512 ≤ img.length) : s.srcBytes l 0 512 = img.take 512 := by
  simp only [State.srcBytes, State.rdBytes, State.rd, hs, ha, hm]
  exact placed_read _ img 512 hn

theorem cfgHead (l l' : LoadSt) (h : l'.source = .hbm) (ha : l'.addr = 0) :
    (cfgLoading l).srcBytes l' 0 512 = cfgHeader (Config.shake256 cfgBody).toNat :=
  (srcHead _ l' cfgImage rfl h ha (by rw [cfgImage_length]; omega)).trans (List.take_left' (cfgHeader_length _))

theorem wit_Header_none : running.down = false ∧ ∀ l, running.cfg.load = some l → l.accepted = true :=
  ⟨rfl, fun l h => by cases (show none = some l from h)⟩
theorem wit_Header_short : let l := newLoad .hbm 0 504 0 false false false
    (loading l).cfg.load = some l ∧ l.accepted = false ∧ l.source ≠ .reins ∧ l.hitch = false ∧ l.asFallback = false ∧ l.atStart = false ∧
      (loading l).srcLen l < 512 := by decide +kernel
theorem wit_Header_bad : let l := newLoad .hbm 0 512 0 false false false
    (loading l).cfg.load = some l ∧ (loading l).srcLen l = 512 ∧ (loading l).srcBad l 0 512 = none ∧
      hdrCheck1 ((loading l).srcBytes l 0 512) = some E_FIELD_RESERVED := by decide +kernel
theorem cfgHeader_check1 : hdrCheck1 (cfgHeader (Config.shake256 cfgBody).toNat) = none := by
  unfold hdrCheck1; rw [if_neg (by decide +kernel), if_neg (by decide +kernel)]

/-- A partial image that names one frame, its source ending at the header. -/
def partHeader : List Byte :=
  leBytes 4 0x7C0F1A6E ++ leBytes 2 1 ++ leBytes 2 0x8000 ++ leBytes 4 0x1307296B ++ leBytes 2 2 ++ leBytes 2 0x71 ++ leBytes 4 5 ++ leBytes 4 1 ++
    leBytes 8 8 ++ leBytes 32 4 ++ leBytes 448 0
def partLoading (n : Nat) : State := { loading (cfgSource n) with mem := placed 0 partHeader }

theorem partHead (n : Nat) : (partLoading n).srcBytes (cfgSource n) 0 512 = partHeader :=
  (srcHead _ _ partHeader rfl rfl rfl (by decide +kernel)).trans (List.take_of_length_le (by decide +kernel))

theorem wit_Header_list_short : hdrCheck1 ((partLoading 1023).srcBytes (cfgSource 1023) 0 512) = none ∧
    (partLoading 1023).srcLen (cfgSource 1023) < 512 + hdrList ((partLoading 1023).srcBytes (cfgSource 1023) 0 512) := by
  rw [partHead]; decide +kernel
theorem wit_Header_list_bad : (partLoading 1024).srcLen (cfgSource 1024) = 512 + hdrList ((partLoading 1024).srcBytes (cfgSource 1024) 0 512) ∧
    (partLoading 1024).srcBad (cfgSource 1024) 512 512 = none ∧
    (partLoading 1024).hdrChecks ((partLoading 1024).srcBytes (cfgSource 1024) 0 512) ((partLoading 1024).srcBytes (cfgSource 1024) 512 512)
      = some E_FIELD_RESERVED := by rw [partHead]; decide +kernel

/-- Where its signature verifies, the image passes the checks of its header. -/
theorem wit_Acceptance (hv : ∀ k c m s, Config.ed448Verify k c m s = true) :
    let l := cfgSource 520
    let s := cfgLoading l
    let h := s.srcBytes l 0 512
    s.down = false ∧ s.cfg.load = some l ∧ l.accepted = false ∧ l.source ≠ .reins ∧ 512 ≤ s.srcLen l ∧ s.srcBad l 0 512 = none ∧
      hdrCheck1 h = none ∧ 512 + hdrList h ≤ s.srcLen l ∧ s.srcBad l 512 (hdrList h) = none ∧
      s.hdrChecks h (s.srcBytes l 512 (hdrList h)) = none ∧ hdrTotal h ≤ s.srcLen l := by
  have hh := cfgHead (cfgSource 520) (cfgSource 520) rfl rfl
  have hl : hdrList (cfgHeader (Config.shake256 cfgBody).toNat) = 0 := by decide +kernel
  have hn : (cfgLoading (cfgSource 520)).srcLen (cfgSource 520) = 520 := by decide +kernel
  have hk : ((cfgHeader (Config.shake256 cfgBody).toNat).drop 112).take 57 = leBytes 57 0 := rfl
  dsimp only
  rw [hh, hl, hn]
  refine ⟨rfl, rfl, rfl, by decide, by decide, by decide +kernel, cfgHeader_check1, by decide, by decide +kernel, ?_, by decide +kernel⟩
  have hs : sigValid (cfgLoading (cfgSource 520)).fuse (cfgHeader (Config.shake256 cfgBody).toNat) [] = true := by
    have e : (cfgLoading (cfgSource 520)).fuse.owner (hdrSlot (cfgHeader (Config.shake256 cfgBody).toNat)) = { hash := zeroKey, st := .provisioned } := rfl
    simp only [sigValid, e, hk, hv]; simp [zeroKey]
  show State.hdrChecks _ _ [] = none
  unfold State.hdrChecks
  rw [if_neg (by decide +kernel), if_neg (by decide +kernel), if_neg (by rw [hs]; decide), if_neg (by decide +kernel)]

/-- That load, its image accepted. -/
def cfgAccepted : LoadSt := { cfgSource 520 with accepted := true, head := cfgHeader (Config.shake256 cfgBody).toNat }

theorem wit_Commit :
    let l := cfgAccepted
    let s := cfgLoading l
    let h := l.head
    let body := imageBody l (s.srcBytes l 512 (hdrBody h)) (s.srcBytes l (512 + hdrBody h) 16)
    let words := (upTo (hdrBody h / 8)).map (fun i => wordAt body.1 (8 * i))
    let base : Staged := { st := s.stageBase l, frames := s.cfg.frames, wrote := [], inFrames := false }
    let g := runBody none none (words.length + 1) false base words
    let full := (({ ((s.framesIn g.1).setReg .CFG_PROGRESS 0 0 (BitVec.ofNat 64 (hdrTotal h))) with
      cfg := { ((s.framesIn g.1).setReg .CFG_PROGRESS 0 0 (BitVec.ofNat 64 (hdrTotal h))).cfg with live := g.1.st } } : State).applyRegs
        g.1.st.regs).settleRole
    s.down = false ∧ s.cfg.load = some l ∧ hdrPartial h = false ∧ hdrList h = 0 ∧ s.loadBusy l = false ∧ hdrTotal h = s.srcLen l ∧
      s.srcBad l 512 8 = none ∧ hdrEncrypted h = false ∧ g.2 = none ∧ endCheck g.1.st g.1.frames (fun _ => true) = none ∧
      full.flowsOk = true ∧ s.positionDiffers full = false ∧ (Config.shake256 body.1).toNat = hdrDigest h ∧ body.2 = true := by
  have hb : (imageBody cfgAccepted ((cfgLoading cfgAccepted).srcBytes cfgAccepted 512 (hdrBody cfgAccepted.head))
      ((cfgLoading cfgAccepted).srcBytes cfgAccepted (512 + hdrBody cfgAccepted.head) 16)).1 = cfgBody := by decide +kernel
  have hd : hdrDigest cfgAccepted.head = (Config.shake256 cfgBody).toNat := leNat_leBytes 32 _ (BitVec.isLt _)
  refine ⟨rfl, rfl, ?_⟩
  and_intros <;> try decide +kernel
  rw [hb, hd]

/-- An accepted image that its source does not hold: full or partial, from a source. -/
def shortLoad (part asFallback : Bool) (src : LoadSource) : LoadSt :=
  { newLoad src 0 512 0 false asFallback false with
    accepted := true, head := if part then partHeader else cfgHeader 0, bytes := if part then partHeader else cfgHeader 0 }

theorem wit_Failed : (∀ part fb, (loading (shortLoad part fb .hbm)).down = false ∧
      (loading (shortLoad part fb .hbm)).loadBusy (shortLoad part fb .hbm) = false ∧
      (loading (shortLoad part fb .hbm)).srcLen (shortLoad part fb .hbm) < hdrTotal (shortLoad part fb .hbm).head ∧
      (shortLoad part fb .reins).bytes.length < hdrTotal ((shortLoad part fb .reins).bytes.take 512)) ∧
    hdrPartial partHeader = true ∧ hdrPartial (cfgHeader 0) = false := by decide +kernel
theorem wit_Failed_late : 0 + running.fld .CFG_TRUNC_MS 0 0 31 0 * 1000000 ≤ 10 ^ 12 ∧ ¬ (0 + running.fld .CFG_TRUNC_MS 0 0 31 0 * 1000000 ≤ 0) := by
  decide +kernel
theorem wit_Failed_fallback : let l := { shortLoad false true .flashFallback with head := leBytes 24 0 ++ leBytes 8 (2 ^ 32) ++ leBytes 480 0 }
    (loading l).srcLen l < hdrTotal l.head := by decide +kernel

/-- The lead awaits reports of two devices. -/
def awaiting (got : SMap (Nat × Nat × Nat)) : State :=
  let s := (upTo 8).foldl (fun s i => s.setStack i 2) aLead
  { s.setReg .CFG_REPORT_ADDR 0 0 0x1000 with cfg := { s.cfg with hitch := some { devices := [0, 1], got := got, since := 0 } }, time := 10 ^ 12 }

theorem wit_Reports : (awaiting []).down = false ∧ smFind ([] : SMap (Nat × Nat × Nat)) 1 = none ∧ (awaiting []).devId = 0 ∧
    smFind [(0, (1, 2, 3))] 0 ≠ (none : Option (Nat × Nat × Nat)) ∧ 0 + (awaiting []).nocTimeout 0 true ≤ (awaiting []).time ∧
    0x1008 + 8 ≤ hbmTop ∧ (awaiting []).hbmServed 0x1008 = true ∧ ¬ (0 + aLead.nocTimeout 0 true ≤ aLead.time) := by decide +kernel

/-- Region 3 in a state, its paddock used. -/
def regionIs (x : RegionSt) : State :=
  let s := (pdkIs ticking).setRegion 3 x
  (({ s with cfg := { s.cfg with live := { s.cfg.live with regions := [⟨3, pdkFrame 5, 8⟩] } } } : State).setFld .CFG_STATUS 0 0 31 29 3)

theorem wit_Release : (regionIs RegionSt.idle).down = false ∧ (regionIs RegionSt.idle).fld .CFG_STATUS 0 0 31 29 ≠ 0 ∧
    (regionIs RegionSt.idle).region 3 = RegionSt.idle ∧ running.fld .CFG_STATUS 0 0 31 29 = 0 ∧
    smGet (fun _ => RParam.dflt) (regionIs RegionSt.idle).cfg.live.rparams 3 = RParam.dflt ∧ (regionIs RegionSt.idle).regionPdks 3 ≠ [] := by
  decide +kernel
theorem wit_Release_stages : (∀ n, n < 4 → ((regionIs { RegionSt.idle with stage := n, command := true }).region 3).stage = n) ∧
    RegionSt.idle.loadedAt + RParam.dflt.waitA ≤ (regionIs RegionSt.idle).time ∧
    ({ RegionSt.idle with stage := 1, stageAt := 10 ^ 6 - 1000 } : RegionSt).stageAt + RParam.dflt.waitB ≤ (regionIs RegionSt.idle).time ∧
    (regionIs RegionSt.idle).time < ({ RegionSt.idle with stage := 1, stageAt := 10 ^ 6 - 999 } : RegionSt).stageAt + RParam.dflt.waitB := by
  decide +kernel

/-- A write of CFG_CONSIST: GO and SCOPE. -/
def probeCmd (scope : Nat) : Word := BitVec.ofNat 64 (2 ^ 62 + scope * 2 ^ 60)

/-- A lead with a neighbour in its tree. -/
def treeLead : State :=
  (((aLead.setFld .RNL_PORT_STATUS 0 0 3 0 5).setFld .RNL_IDENT 0 0 47 39 (4 * 64 + 8 + 1)).setFld .CFG_CONSIST_PERIOD 0 0 31 0 1)

theorem wit_Probe : (∀ n, n < 4 → (probeCmd n).fld 63 62 = 1 ∧ (probeCmd n).fld 61 60 = n) ∧ (0 : Word).fld 63 62 ≠ 1 ∧
    (aLead.reg .CFG_CONSIST_STATUS 0 0).bit 0 = false ∧ ((aLead.setFld .CFG_CONSIST_STATUS 0 0 0 0 1).reg .CFG_CONSIST_STATUS 0 0).bit 0 = true ∧
    aLead.cfg.probes = [] ∧ aLead.treeChildren = [] := by decide +kernel
theorem wit_Probe_tree : treeLead.down = false ∧ treeLead.isLead = true ∧ treeLead.treeChildren ≠ [] := by decide +kernel
theorem wit_Probe_mismatch : let s := (aLead.setFld .CFG_EPOCH 0 0 32 32 1).setReg .CFG_CONSIST_EPOCH 0 0 4
    (s.reg .CFG_EPOCH 0 0).bit 32 = true ∧ s.fld .CFG_EPOCH 0 0 31 0 ≠ s.fld .CFG_CONSIST_EPOCH 0 0 31 0 ∧ (probeCmd 0).bit 59 = false ∧
      s.fld .CFG_CONSIST_RANGE 0 0 15 0 ≤ s.devId ∧ s.devId ≤ s.fld .CFG_CONSIST_RANGE 0 0 31 16 := by decide +kernel
theorem wit_Period : let s : State := { treeLead with time := 10 ^ 6 }
    s.fld .CFG_CONSIST_PERIOD 0 0 31 0 ≠ 0 ∧ s.cfg.probeAt + s.fld .CFG_CONSIST_PERIOD 0 0 31 0 * 1000000 ≤ s.time ∧
      ¬ (treeLead.cfg.probeAt + treeLead.fld .CFG_CONSIST_PERIOD 0 0 31 0 * 1000000 ≤ treeLead.time) := by decide +kernel

/-- A probe that the lead led, which waits for devices. -/
def aProbe (w : List Nat) : ProbeSt :=
  { seq := 1, scope := 0, first := 0, last := 9, expEpoch := 0, expDigest := 0, led := true, parent := 0, waiting := w, sum := ProbeSum.zero, since := 0 }
def probed (w : List Nat) : State := { aLead with cfg := { aLead.cfg with probes := [aProbe w] }, time := 10 ^ 12 }

theorem wit_Answers : (probed [1, 2]).down = false ∧ (probed [1, 2]).cfg.probes = [aProbe [1, 2]] ∧ 2 ∈ (aProbe [1, 2]).waiting ∧
    (aProbe [1, 2]).waiting.erase 2 ≠ [] ∧ (aProbe [2]).waiting.erase 2 = [] ∧ 3 ∉ (aProbe [1, 2]).waiting ∧
    0 + (probed [2]).nocTimeout 0 true ≤ (probed [2]).time ∧ aLead.time < 0 + aLead.nocTimeout 0 true := by decide +kernel

/-! ## Witnesses: the reins -/

/-- Port i in a state of its link. -/
def portIs (i n : Nat) (k : PortSt) : State := (aLead.setFld .RNL_PORT_STATUS i 0 3 0 n).setPort i k

/-- The same at a device that is no lead, at position 1 of a hitch of two. -/
def wheeler (i n : Nat) (k : PortSt) : State :=
  ((running.setFld .RNL_IDENT 0 0 53 48 1).setFld .RNL_IDENT 0 0 47 39 (2 * 64 + 8 + 1)).setFld .RNL_PORT_STATUS i 0 3 0 n |>.setPort i k

theorem wit_Trains : (∀ n, n < 8 → (portIs 2 n PortSt.idle).portState 2 = n) ∧ (portIs 2 1 PortSt.idle).down = false ∧
    (portIs 0 1 PortSt.idle).portRole 0 = 1 ∧ (portIs 15 1 PortSt.idle).portRole 15 ≠ 1 := by decide +kernel
theorem wit_Trains_retry : (late (portIs 2 7 PortSt.idle)).portState 2 = 7 ∧ PortSt.idle.failedAt + 1000000000 ≤ (late (portIs 2 7 PortSt.idle)).time ∧
    (portIs 2 7 PortSt.idle).time < PortSt.idle.failedAt + 1000000000 := by decide +kernel
theorem wit_Trains_peer : (portIs 2 4 PortSt.idle).peerOk 2 5 0x2C00000000000000 true = false ∨
    (portIs 2 4 PortSt.idle).peerOk 2 5 0x2C00000000000000 true = true := by decide +kernel

/-- The third failed step in a row fails the port, and the fourth good marker in a row brings INIT. -/
theorem test_training_fails : after (portIs 2 1 { PortSt.idle with failures := 1 }) (.reinTrainingComplete 2 false false 3)
      (fun t => t.portState 2 == 1) = true ∧
    after (portIs 2 1 { PortSt.idle with failures := 2 }) (.reinTrainingComplete 2 false false 3) (fun t => t.portState 2 == 7) = true := by decide +kernel
/-- The fields of four lanes' markers with a number (R482). -/
def markerFields (seq : Nat) : List (BitVec 32) := (upTo 4).map (fun l => BitVec.ofNat 32 (seq * 2 ^ 16 + l * 2 ^ 14))

theorem test_markers : after (portIs 2 3 { PortSt.idle with markers := 2 }) (.alignMarkerReceive 2 (markerFields 1) true true false) (fun t => t.portState 2 == 3) = true ∧
    after (portIs 2 3 { PortSt.idle with markers := 3 }) (.alignMarkerReceive 2 (markerFields 1) true true false) (fun t => t.portState 2 == 4) = true := by decide +kernel

theorem wit_Trains_markers : fieldsAgree ((markerFields 7).map (·.toNat)) = true ∧
    fieldsAgree (((markerFields 7).set 1 0).map (·.toNat)) = false ∧ (portIs 2 3 PortSt.idle).portState 2 = 3 := by decide +kernel

/-- A flit of a retry buffer, sent so many times. -/
def sentFlit (n : Nat) : RetryFlit := { seq := 0, body := [], used := 0, nextPkt := 31, pkts := [], tries := n }

theorem wit_Leaves : (portIs 2 5 { PortSt.idle with badMarkers := 1, drain := true }).portState 2 = 5 ∧ PortSt.idle.retry = [] ∧ PortSt.idle.txq = [] ∧
    (∀ c : BitVec 3, c = 1 ∨ c = 2 ∨ c = 5 → c.toNat < 6) := by decide +kernel
theorem wit_Leaves_markers : (portIs 2 5 { PortSt.idle with badMarkers := 1 }).portState 2 = 5 ∧
    fieldsAgree (((markerFields 7).set 3 (markerFields 8)[0]).map (·.toNat)) = false := by decide +kernel

theorem wit_Leaves_retry : let s := (late (portIs 2 5 { PortSt.idle with retry := [sentFlit 1] })).setFld .RNL_RETRY 2 0 39 32 2
    s.portState 2 = 5 ∧ (s.port 2).retry ≠ [] ∧ (s.port 2).ackAt + s.fld .RNL_RETRY 2 0 31 0 ≤ s.time ∧
      ¬ (s.fld .RNL_RETRY 2 0 39 32 < (sentFlit 1).tries + 1) ∧ s.fld .RNL_RETRY 2 0 39 32 < (sentFlit 2).tries + 1 := by decide +kernel

/-- A port of a torus with its partner UP and its error rate high. -/
def retraining : State := ((portIs 0 5 PortSt.idle).setFld .RNL_PORT_STATUS 4 0 3 0 5).setFld .RNL_EVENT 0 0 5 5 1

theorem wit_Leaves_lanes : retraining.down = false ∧ retraining.feature 6 = true ∧ retraining.ready = true ∧ retraining.portState 0 = 5 ∧
    retraining.portRole 0 = 1 ∧ (retraining.reg .RNL_EVENT 0 0).bit 5 = true ∧ retraining.partnerUp 0 = true ∧ running.partnerUp 0 = false := by
  decide +kernel

/-- A DATA flit with a sequence number and a body, its CRC right. -/
def dataFlit (seq : Nat) (body : List Byte) : List Byte :=
  let b := leBytes 8 (2 ^ 60 + seq * 2 ^ 48 + 31 * 2 ^ 30) ++ body ++ List.replicate (244 - body.length) 0
  b ++ leBytes 4 (crc32 b)

/-- The bytes of a READ without a payload. -/
def readBytes : List Byte := leBytes 8 (2 ^ 28 + 10 * 2 ^ 10) ++ leBytes 16 0

theorem wit_Flits : (dataFlit 0 []).length = 256 ∧ crc32 ((dataFlit 0 []).take 252) = leNat ((dataFlit 0 []).drop 252) ∧
    (let h := wordAt (dataFlit 0 []) 0
     bitsOf h 63 60 = 1 ∧ bitsOf h 7 0 = 0 ∧ 18 ≤ bitsOf h 34 30 ∧ bitAt h 35 = false ∧ bitsOf h 59 48 = (PortSt.idle.rxSeq + 1) % 4096) ∧
    bitsOf (wordAt (dataFlit 1 []) 0) 59 48 ≠ (PortSt.idle.rxSeq + 1) % 4096 ∧ (parsePkts 64 (((dataFlit 0 []).drop 8).take 244)).1 = [] := by
  decide +kernel
/-- Two READs that start together share a flit's body (R487). -/
theorem test_packing : let p : TypedPkt := { typ := T_READ, pkt := { mkPkt 1 0 3 9 4 0 0 8 [] with vc := 0 } }
    ((((portIs 4 5 PortSt.idle).queuePkt 4 p).queuePkt 4 p).port 4).retry.map (fun f => (f.seq, f.used, f.nextPkt)) = [(0, 48, 0)] := by decide +kernel

/-- A READ for device 0 that came to device 1 by P5 waits at P4, whose VC 0 has no credit. -/
theorem wit_Flits_forward :
    let k : PortSt := { PortSt.idle with credits := [(0, 0)] }
    let s := (wheeler 4 5 k).setFld .RNL_PORT_STATUS 5 0 3 0 5
    let p : TypedPkt := { typ := T_READ, pkt := { mkPkt 0 1 3 9 4 0 0 8 [] with vc := 0 } }
    pktBad p = false ∧ s.hopOf 5 p = .out 4 0 0 ∧ (s.port 4).txq = [] ∧ (s.port 4).credit 0 < cdiv (pktBytes p) 16 := by decide +kernel
theorem wit_Flits_read : (parsePkts 64 (PortSt.idle.partPkt ++ ((dataFlit 0 readBytes).drop 8).take 244)).1.map (·.typ) = [T_READ] := by decide +kernel
/-- A receiver whose descramblers hold zeros. -/
def plainRx (pair : Nat) : LineRx := { LineRx.start with pair := pair, scramblers := [0, 0, 0, 0] }

theorem gfMulBits_zero (n b : Nat) : gfMulBits n 0 b = 0 := by
  induction n generalizing b with
  | zero => rfl
  | succ n ih => simp [gfMulBits, gfTimesX, ih]

theorem fold_zeros (a n : Nat) : (List.replicate n 0).foldl (fun acc c => Nat.xor (gfMul acc a) c) 0 = 0 := by
  induction n with
  | zero => rfl
  | succ n ih => rw [List.replicate_succ, List.foldl_cons, gfMul, gfMulBits_zero]; exact ih

/-- A word of zeros is a codeword. -/
theorem rsDecode_zeros (n : Nat) : rsDecode (List.replicate n 0) = some (List.replicate n 0, 0) := by
  have h : (rsSyndromes (List.replicate n 0)).all (· == 0) = true := by
    simp only [rsSyndromes, fold_zeros]; decide
  rw [rsDecode, if_pos h]

theorem plain_words : gatheredWords ((upTo 4).map (fun _ => bitSymbols 272 [])) = List.replicate 1088 0 := by decide +kernel

theorem pairOf_zeros : (pairOf (List.replicate 1088 0)).pair = some 0 := by
  have h : bitNum ((symbolBits (List.replicate 514 0 ++ List.replicate 514 0)).take 14) = 0 := by decide +kernel
  simp only [pairOf, List.take_replicate, List.drop_replicate, rsDecode_zeros, Option.isSome_some, if_pos]
  exact congrArg some h

theorem plainRx_number : ((plainRx 0).takePair 0 []).1.pair = some 0 := by
  have h : (upTo 4).map (fun l => bitSymbols 272 (scramble ((plainRx 0).scramblers.getD l 0) []).1) = (upTo 4).map (fun _ => bitSymbols 272 []) :=
    List.map_congr_left fun _ _ => rfl
  simp only [LineRx.takePair, List.map_nil, stuffOut, List.flatMap_nil, List.map_map, Function.comp_def]
  rw [h, plain_words, pairOf_zeros]
theorem plainRx_any (n : Nat) : ((plainRx n).takePair 0 []).1.pair = ((plainRx 0).takePair 0 []).1.pair := by
  simp only [LineRx.takePair, plainRx]
theorem wit_Flits_pair : (portIs 2 3 { PortSt.idle with rx := plainRx 0 }).portState 2 = 3 ∧
    (portIs 2 3 { PortSt.idle with rx := plainRx 0 }).fld .RNL_PORT_STATUS 2 0 15 12 = 0 ∧
    ((plainRx 0).takePair 0 []).1.pair = some (plainRx 0).pair ∧
    ((plainRx 1).takePair 0 []).1.pair = some 0 ∧ (plainRx 1).pair ≠ 0 :=
  ⟨by decide +kernel, by decide +kernel, plainRx_number, (plainRx_any 1).trans plainRx_number, by decide⟩

theorem wit_Eye : (portIs 2 5 { PortSt.idle with eyeRun := true }).portState 2 = 5 ∧ (0x8000000000000000 : Word).bit 63 = true ∧ PortSt.idle.eyeRun = false := by
  decide +kernel

/-- A packet to device 1, at position 1, from device 0. -/
def toOne (vc len code : Nat) (addr : Word) (payload : List Byte) : ReinPkt :=
  { dst := 1, src := 0, vc := BitVec.ofNat 5 vc, ghops := 0, len := BitVec.ofNat 11 len, corral := 3, tag := 9, gen := 4, srcIndex := 2
    srcRouter := 7, code := BitVec.ofNat 16 code, addr := addr, payload := payload }

/-- Device 1, whose corral 3 owns tethers 0 to 99. -/
def corralled : State :=
  let s := wheeler 4 5 PortSt.idle
  ({ s with cfg := { s.cfg with live := { s.cfg.live with
      corrals := [(3, some { l := 4, shapes := 0 })], own := [⟨.tether, 0, 100, some 3⟩, ⟨.hbm, 0, 4, some 3⟩] } } } : State).setTether 9 5

theorem wit_Served : (wheeler 4 5 PortSt.idle).down = false ∧ (wheeler 4 5 PortSt.idle).devId = 1 ∧ (wheeler 4 5 PortSt.idle).portState 4 = 5 ∧
    (match (wheeler 4 5 PortSt.idle).nextHop 1 0 0 0 none with | .out j _ _ => decide (j = 4) | _ => false) = true ∧
    (wheeler 4 5 PortSt.idle).corral 3 = none := by decide +kernel
theorem wit_Served_corral : corralled.corral 3 ≠ none ∧ corralled.owns 3 .tether 9 = true ∧ corralled.owns 3 .tether 100 = false ∧
    corralled.rangeErr 3 false 200 0 = none ∧ corralled.rangeErr 3 true 200 ([] : List Byte).length = none := by decide +kernel

/-- COMPARE_SWAP stores its second operand where the tether equals the first. -/
def swapped (x : Nat) : Bool :=
  after corralled (.remoteTetherCompareSwap 4 (toOne 0 16 0 9 (leBytes 8 x ++ leBytes 8 77))) (fun t => t.tether 9 == if x = 5 then 77 else 5)
theorem test_compare_swap : swapped 5 = true ∧ swapped 6 = true := by decide +kernel

/-- Device 1 waits on die 0 for a request of a type that it sent to device 0. -/
def expecting (kind : Nat) : State :=
  let s := wheeler 4 5 PortSt.idle
  { s with noc := { s.noc with reqs := [(9, some { aReq with remote := some 0, corral := 2, kind := kind })] }
           cmds := [cmdOf 7 1 [header 3 0]] }

theorem wit_Responses : (expecting T_READ).down = false ∧ (expecting T_READ).portState 4 = 5 ∧
    ((expecting T_READ).tracked 0 9).map (·.gen) = some (toOne 8 0 0 0 []).gen.toNat ∧
    ((expecting T_READ).tracked 0 9).map (fun r => (r.queue, r.seq, r.corral, r.remote)) = some (7, 1, 2, some 0) ∧
    routerDie (toOne 8 0 0 0 []).srcRouter.toNat % 4 = 0 ∧ (wheeler 4 5 PortSt.idle).tracked 0 9 = none := by
  decide +kernel
theorem wit_Responses_command : (expecting T_READ).cmd 7 1 = some (cmdOf 7 1 [header 3 0]) ∧ (cmdOf 7 1 [header 3 0]).corral = 2 ∧
    (cmdOf 7 1 [header 3 0]).phase = .running ∧ ((expecting T_READ).ctx aReq.ctx).rfault = none ∧ T_WRITE ≠ T_READ := ⟨rfl, rfl, rfl, rfl, by decide⟩
/-- The same, with a second READ of that stream still out. -/
def expectingTwo : State :=
  let s := expecting T_READ
  { s with noc := { s.noc with reqs := s.noc.reqs ++ [(10, some { aReq with remote := some 0, corral := 2, kind := T_READ, dest := 8 })] } }

theorem wit_Responses_two : (expectingTwo.tracked 0 9).map (fun r => (r.gen, r.kind, r.ctx)) = some (4, T_READ, 0) ∧
    (let t : State := { expectingTwo with noc := { expectingTwo.noc with reqs := [(10, some { aReq with remote := some 0, corral := 2, kind := T_READ, dest := 8 })] } }
     t.outstanding 7 1 0 T_READ ≠ []) ∧ (toOne 8 0 E_XLATE_FAULT 0 []).code.toNat = E_XLATE_FAULT ∧ expectingTwo.discard 2 = none := by decide +kernel

theorem wit_Responses_codes : isCorralFault E_NET_TIMEOUT = true ∧ isCorralFault E_REMOTE_CORRAL = false ∧ E_REMOTE_CORRAL ≠ E_XLATE_FAULT := by decide

theorem wit_Enumeration : running.isLead = false ∧ (portIs 4 0 PortSt.idle).isLead = true ∧ running.upTorus = [] ∧ (portIs 4 5 PortSt.idle).upTorus = [4] ∧
    (running.setReg .GRM_FEATURES_ACTIVE 0 0 0).hotPlug = false := by decide +kernel

/-- The address of an ENUM: hitch 5, sender at position 1 of a hitch of 4 by 1 by 1. -/
def enumAddr : Word := BitVec.ofNat 64 (5 * 2 ^ 54 + 2 ^ 48 + (4 * 64 + 8 + 1) * 2 ^ 39)

theorem wit_Enum : (wheeler 4 5 PortSt.idle).portRole 4 = 1 ∧ (wheeler 4 5 PortSt.idle).rein.numbered = false ∧ (toOne 17 0 1 enumAddr []).vc.toNat = 17 ∧
    (toOne 17 0 1 enumAddr []).code.toNat = 1 ∧ (wheeler 4 5 PortSt.idle).portDim 4 = 0 := by decide +kernel
theorem test_enum : after ((wheeler 0 5 PortSt.idle).setFld .RNL_PORT_CFG 0 0 58 58 1) (.reinEnum 0 (toOne 17 0 1 enumAddr []))
    (fun t => t.rein.numbered && t.fld .RNL_IDENT 0 0 63 54 == 5 && (t.fld .RNL_IDENT 0 0 53 48 == 0 || t.fld .RNL_IDENT 0 0 53 48 == 2)) = true := by
  decide +kernel
theorem wit_Tree : (toOne 16 0 1 0 []).vc.toNat = 16 ∧ (toOne 16 0 1 0 []).addr = 0 ∧ (toOne 16 0 1 0 []).dst.toNat = (wheeler 4 5 PortSt.idle).devId := by
  decide +kernel

/-- A TIME packet's payload: its stamp, and whether the sender is locked. -/
def timeBody (t1 locked : Nat) : List Byte := leBytes 8 t1 ++ leBytes 16 0 ++ leBytes 8 locked

theorem wit_Time : (wheeler 5 5 PortSt.idle).timeParent = some 0 ∧ (wheeler 5 5 PortSt.idle).svc.leadLost = false ∧
    (wheeler 5 5 PortSt.idle).rein.locked = false ∧ (wheeler 5 5 PortSt.idle).mayStep = true ∧ bitAt (wordAt (timeBody 1000 1) 24) 0 = true ∧
    bitAt (wordAt (timeBody 1000 0) 24) 0 = false ∧ (wheeler 5 5 PortSt.idle).fld .RNL_STRING 0 0 63 54 * 64 = 0 := by decide +kernel
theorem wit_Time_other : let s := (wheeler 5 5 PortSt.idle).setFld .RNL_STRING 0 0 63 54 3
    (toOne 17 32 0 0 []).src.toNat ≠ s.fld .RNL_STRING 0 0 63 54 * 64 ∧ s.timeParent = some 0 ∧
      (((wheeler 5 5 PortSt.idle).setFld .RNL_TIME_STATUS 0 0 63 63 1).reg .RNL_TIME_STATUS 0 0).bit 63 = true := by decide +kernel

/-- The offset of an exchange is half the difference of the two ways (R507): stamps 1000, 5000, 5010 and 2000 ns. -/
theorem test_time : after { wheeler 5 5 PortSt.idle with time := 10 ^ 6 }
    (.reinTime 5 (toOne 17 32 0 (64 * 2000) (timeBody 1000 1)) (64 * 5000) (64 * 5010)) (fun t => t.time == 10 ^ 6 - 3505 && t.rein.locked) = true := by
  decide +kernel

theorem wit_Time_here : (toOne 17 32 0 0 []).dst.toNat = (wheeler 5 5 PortSt.idle).devId := by decide +kernel

/-- Position 1 of a ring of two sends TIME with its marker to position 0, its parent, by the X− port that is UP (R507, R510). -/
theorem test_time_sent : (match ((wheeler 5 5 PortSt.idle).sendTime 5).sent with
    | .rein p typ q :: _ => p == 5 && typ == T_TIME && q.dst == 0 && q.payload.length == 32
    | _ => false) = true := by decide +kernel

theorem wit_Relay : let p := toOne 17 1 0 0 []
    1 ≤ p.len.toNat ∧ p.len.toNat ≤ 545 ∧ bitsOf (wordAt p.payload 0) 12 0 + 8 ≤ 8 * p.len.toNat ∧ p.dst.toNat = (wheeler 4 5 PortSt.idle).devId ∧
      isRoce (frame 64 60 .other).body = false ∧ isRoce (.cnp 5) = true ∧ (wheeler 4 5 PortSt.idle).frameBad 0 (frame 64 60 (.cnp 5)) = false := by
  decide +kernel

theorem wit_Tree_wrong_vc : (toOne 17 0 1 0 []).vc.toNat ≠ 16 ∧ (toOne 16 0 1 0 []).vc.toNat ≠ 17 ∧ (wheeler 4 3 PortSt.idle).portState 4 ≠ 5 := by decide +kernel
theorem wit_Enum_numbered : let s : State := { wheeler 4 5 PortSt.idle with rein := { (wheeler 4 5 PortSt.idle).rein with numbered := true } }
    let p := toOne 17 0 1 (BitVec.ofNat 64 (s.ownHitch * 2 ^ 54 + 0 * 2 ^ 48 + (2 * 64 + 8 + 1) * 2 ^ 39)) []
    s.isLead = false ∧ s.portRole 4 = 1 ∧ s.rein.numbered = true ∧
    (let dim := s.portDim 4
      let size := match dim with | 0 => p.addr.fld 47 45 | 1 => p.addr.fld 44 42 | _ => p.addr.fld 41 39
      let from_ := p.addr.fld 53 48
      let c := (coordOf from_ dim + (if s.portDir 4 = 1 then 1 else size - 1)) % max 1 size
      from_ - coordOf from_ dim * 4 ^ dim + c * 4 ^ dim = s.ownPos) ∧ p.addr.fld 63 54 = s.ownHitch ∧
    (∀ j ∈ s.upTorus, s.posAbsent (s.neighbour (s.portDim j) (s.portDir j)) = false) := by decide +kernel

/-- A contribution of device 0 that has begun to arrive, 64 bytes of which are to come. -/
def begun : Contribution := { dev := 0, corral := 3, group := 0, part := 1, chunk := 0, header := [0, 0, 0, 0], need := 128, bytes := leBytes 64 5 }
def joined : State := { wheeler 4 5 PortSt.idle with rein := { (wheeler 4 5 PortSt.idle).rein with contribs := [begun] } }
theorem wit_Tree_extends : joined.rein.contribs = [begun] ∧ begun.dev = (toOne 16 64 1 64 []).src.toNat ∧ begun.corral = (toOne 16 64 1 64 []).corral.toNat ∧
    (toOne 16 64 1 64 []).addr.toNat = begun.bytes.length ∧ 0 < begun.bytes.length ∧ begun.bytes.length < begun.need ∧
    (toOne 16 64 1 64 []).dst.toNat = joined.devId := by decide +kernel
theorem wit_Time_waits : let s : State := { wheeler 5 5 PortSt.idle with cmds := [cmdOf 3 4 [header 9 0]] }
    let t : State := { wheeler 5 5 PortSt.idle with rein := { (wheeler 5 5 PortSt.idle).rein with locked := true } }
    s.mayStep = false ∧ s.timeParent = some 0 ∧ t.rein.locked = true ∧ t.timeParent = some 0 ∧ t.svc.leadLost = false ∧
      t.timeParent ≠ some 7 ∧ aLead.isLead = true := by decide +kernel
theorem wit_Relay_cases : (wheeler 4 5 PortSt.idle).isLead = false ∧ (portIs 4 5 PortSt.idle).isLead = true ∧
    (toOne 17 1 0 0 []).vc.toNat = 17 ∧ (wheeler 4 5 PortSt.idle).frameBad 0 (frame 64 60 .other) = true ∨ isRoce (frame 64 60 .other).body = false := by decide +kernel

/-! ## Witnesses: hot plug, observation, cards -/

/-- A lead with HOT_PLUG, whose hitch of four has positions 0 to 2 present, position 1 missed twice. -/
def plugging : State :=
  let s := aLead.setFld .RNL_IDENT 0 0 47 39 (4 * 64 + 8 + 1)
  { s with svc := { s.svc with presence := 7, pollMiss := [(1, 2)] } }

theorem wit_HotPlug : plugging.down = false ∧ plugging.isLead = true ∧ plugging.hotPlug = true ∧ plugging.admitted plugging.ownPos = true ∧
    plugging.admitted 1 = true ∧ plugging.admitted 2 = true ∧ smGet (fun _ => 0) plugging.svc.pollMiss 1 + 1 = 3 ∧
    smGet (fun _ => 0) plugging.svc.pollMiss 2 + 1 < 3 ∧ (aLead.setReg .GRM_FEATURES_ACTIVE 0 0 0).hotPlug = false := by decide +kernel
theorem wit_HotPlug_admit : plugging.admitted 3 = false ∧ plugging.posNames 3 = true ∧ 3 ≠ plugging.ownPos ∧ 1 ∈ plugging.torusNeighbours 2 ∧
    plugging.admitted 3 = false ∧ plugging.torusNeighbours 2 = [3, 1] := by decide +kernel
theorem wit_HotPlug_report : let s := { plugging with svc := { plugging.svc with presence := 15 } }
    3 ∈ s.torusNeighbours 2 ∧ ¬ (3 = 1 ∨ bitAt (smGet (fun _ => 0) s.svc.downReports 2) 3 = true) ∧ s.admitted 3 = true := by decide +kernel
theorem wit_HotPlug_mask : running.isLead = false ∧ running.noc.reqs = [] ∧ (running.posAbsent 3 = false) := by decide +kernel
theorem wit_HotPlug_lost : let s := { late running with rein := { running.rein with numbered := true } }
    s.isLead = false ∧ s.rein.numbered = true ∧ s.svc.pollSeen + 40000000 ≤ s.time ∧ running.rein.numbered = false := by decide +kernel

/-- A wheeler at position 1 of two whose ports toward position 0 are DOWN with a cause, but for port 0, which is UP. -/
def lastLink (cause : Nat) : State :=
  let s := { wheeler 0 5 PortSt.idle with rein := { (wheeler 0 5 PortSt.idle).rein with numbered := true } }
  [1, 4, 5].foldl (fun t j => (t.setFld .RNL_PORT_STATUS j 0 3 0 1).setFld .RNL_PORT_STATUS j 0 6 4 cause) s

/-- The last link to the lead's position goes (R610): reported after SIGNAL, not after FREQ. -/
theorem test_lost_neighbour : after (lastLink 1) (.reinLinkDown 0 1) (fun t => t.sent == [.mgmtDown 0]) = true ∧
    after (lastLink 5) (.reinLinkDown 0 1) (fun t => t.sent == []) = true := by decide +kernel
theorem test_polls : after plugging (.mgmtPoll 0) (fun t => t.sent.contains (.mgmtPoll 2) && !t.sent.contains (.mgmtPoll 3)) = true := by decide +kernel

/-- Trace is on with an interval of 1,000 ns, and stall 769 is traced. -/
def traced : State := { (running.setReg .DBG_TRACE_CFG 0 0 0x800003E800000000).setReg .DBG_TRACE_STALL 0 12 2 with time := 5000 }

theorem wit_Trace : traced.down = false ∧ (traced.reg .DBG_TRACE_CFG 0 0).bit 63 = true ∧ traced.time % traced.fld .DBG_TRACE_CFG 0 0 51 32 = 0 ∧
    traced.obs.lastSample ≠ some traced.time ∧ (traced.reg .DBG_TRACE_STATUS 0 0).bit 1 = false ∧ (traced.traceDie 1).block = [] ∧
    (running.reg .DBG_TRACE_CFG 0 0).bit 63 = false := by decide +kernel
theorem wit_Trace_stall : ∀ a, a < 48 → traced.reg .DBG_TRACE_STALL 0 a = if a = 12 then 2 else 0 := by decide +kernel
theorem wit_Trace_write : (regWritten .DBG_TRACE_CFG (running.reg .DBG_TRACE_CFG 0 0) 0x800003E800000000).bit 63 = true ∧
    (regWritten .DBG_TRACE_CFG (traced.reg .DBG_TRACE_CFG 0 0) 0).bit 63 = false := by decide +kernel

/-- Corral 2 owns queues 0 to 8, tethers, stalls and contexts; queue 3 is enabled, of 16 slots of the ring, with ten commands posted and five taken. -/
def owned : List OwnRange := [⟨.queue, 0, 9, some 2⟩, ⟨.tether, 0, 99, some 2⟩, ⟨.stall, 0, 64, some 2⟩, ⟨.context, 0, 20, some 2⟩, ⟨.hbm, 0, 4, some 2⟩]
def queued : State :=
  let s := (upTo 8).foldl (fun s i => s.setStack i 2) running
  ({ s with cfg := { s.cfg with live := { s.cfg.live with own := owned } }, time := 77 } : State).setQueue 3
    { QueueSt.idle with phase := .enabled, entry := [0, 0x20000, BitVec.ofNat 64 (2 ^ 63 + 4 * 2 ^ 57 + 4 * 2 ^ 52 + 5 * 2 ^ 40), 0], pi := 10
                        admitIx := 5, recs := 5, written := 5, ci := 5 }

theorem wit_Occupancy : (∀ q c, queued.owner .queue q = some c → c < 256) ∧ queued.owner .queue 3 = some 2 ∧ queued.time % 1000 ≠ 0 ∧
    running.time % 1000 = 0 ∧ running.obs.lastOcc ≠ some running.time := by
  refine ⟨fun q c h => ?_, by decide +kernel⟩
  simp only [State.owner, show queued.cfg.live.own = owned from rfl, owned, ownerIn] at h
  simp at h; omega

/-- A RESYNC runs, for a device card or a hitch card. -/
def resync (hitch : Nat) : State := { queued with cmds := [cmdOf 3 4 [header 10 0, 0, hitch * 2 ^ 62, 0x1000, 0]] }

theorem wit_Cards : (∀ h, h < 2 → ((resync h).cmd 3 4).map (fun c => (descClass c.desc, c.phase, bitsOf (dw c.desc 2) 63 62)) = some (10, .running, h)) ∧
    (resync 0).ready = true ∧ (resync 0).rein.cardFor = none ∧ (resync 0).rangeErr 2 true 0x1000 0 = none := by decide +kernel
theorem wit_Cards_late : let s := { late running with rein := { running.rein with cardFor := some (3, 4) } }
    s.rein.cardFor ≠ none ∧ s.rein.cardSince + s.nocTimeout 0 true ≤ s.time := by decide +kernel

/-! ## Witnesses: host ports, RoCE, queues -/

/-- Port 1 is up, honours every priority, and sends pauses from 100 KiB with release at 50. -/
def ported : State :=
  let s := (running.setReg .HST_PFC 1 0 (BitVec.ofNat 64 (255 + 0xF0 * 2 ^ 8 + 100 * 2 ^ 32 + 50 * 2 ^ 48))).setFld .HST_PORT_STATUS 1 0 0 0 1
  { (s.setFld .HST_CC 1 0 1 1 1).setFld .HST_PORT_STATUS 1 0 5 4 1 with time := 1000 }

/-- It holds two messages back, priority 0 being paused until 900 ns, and its buffer was at XOFF. -/
def pausedPort : State := ported.setHostPort 1 { paused := [(0, 900), (5, 1001)], xoff := true, txq := [(.cnp 5, 1), (.cnp 6, 2)] }

theorem wit_Ports : ported.down = false ∧ ported.linkUp 1 = true ∧ running.linkUp 1 = false ∧ ported.frameBad 1 (frame 4352 0 .other) = false ∧
    ported.frameBad 1 (frame 4353 0 .other) = true ∧ isRoce (frame 64 0 .other).body = false ∧ (frame 4352 0 (.pfc 6 [])).len.toNat ≤ 4352 := by
  decide +kernel
theorem wit_Ports_own : let f : EthFrame := { frame 64 60 (.cnp 5) with dst4 := some 0x0A000001 }
    ∃ v, (ported.setReg .HST_IPV4 1 0 v).ownFrame 1 f = true ∧ (ported.setReg .HST_IPV4 1 0 v).frameBad 1 f = false ∧ isRoce f.body = true :=
  ⟨BitVec.ofNat 64 (2 ^ 32 + 0x0A000001), by decide +kernel⟩
theorem wit_Ports_pause : smGet (fun _ => 0) (pausedPort.hostPort 1).paused 0 ≤ pausedPort.time ∧
    pausedPort.time < smGet (fun _ => 0) (pausedPort.hostPort 1).paused 5 ∧ pausedPort.portPaused 1 = false ∧ (ported.hostPort 1).txq = [] := by
  decide +kernel
theorem wit_Ports_buffer : ported.fld .HST_PFC 1 0 15 8 ≠ 0 ∧ ported.fld .HST_PFC 1 0 47 32 ≤ (100 : BitVec 11).toNat ∧
    ¬ ported.fld .HST_PFC 1 0 47 32 ≤ (99 : BitVec 11).toNat ∧ (pausedPort.hostPort 1).xoff = true ∧
    (50 : BitVec 11).toNat ≤ ported.fld .HST_PFC 1 0 63 48 ∧ ¬ (51 : BitVec 11).toNat ≤ ported.fld .HST_PFC 1 0 63 48 := by decide +kernel
theorem wit_Ports_link : running.fld .HST_PORT_STATUS 3 0 5 4 = 0 ∧ ported.fld .HST_PORT_STATUS 1 0 5 4 ≠ 0 ∧ ported.linkUp 1 = true := by decide +kernel
theorem wit_Ports_rate : (ported.reg .HST_CC 1 0).bit 1 = true ∧ ((running.setFld .HST_CC 2 0 1 1 0).reg .HST_CC 2 0).bit 1 = false ∧ (late ported).time ≥ QpSt.idle.rateAt + 55000 ∧
    ported.time < QpSt.idle.rateAt + 55000 := by decide +kernel

/-- A lead that relays the IPv4 range of its hitch from port 1. -/
def relaying : State :=
  let s := ported.setFld .RNL_IDENT 0 0 36 36 1
  s.setReg .RNL_RELAY_CFG 0 0 (BitVec.ofNat 64 (2 ^ 63 + 0x0A000000 / 64))

theorem wit_Ports_relay : let f : EthFrame := { frame 64 60 (.cnp 5) with dst4 := some 0x0A000003 }
    relaying.linkUp 1 = true ∧ relaying.ownFrame 1 f = false ∧ relaying.relayTo 1 f = some 3 ∧ 3 ≠ relaying.ownPos ∧
      relaying.frameBad 1 f = false ∧ ported.relayTo 1 f = none ∧ f.badFcs = false ∧ ({ f with fecLost := 2 } : EthFrame).fecLost ≠ 0 := by
  decide +kernel
theorem test_frame_errors : after ported (.ethFrameReceive 1 { frame 64 60 (.cnp 5) with badFcs := true, fecFixed := 3 })
    (fun t => t.fld .HST_CNT 1 3 47 0 == 1 && t.fld .HST_CNT 1 4 47 0 == 3 && t.fld .HST_CNT 1 2 47 0 == 1) = true := by decide +kernel

/-- A quantum of 512 bit times at 400 Gbit/s is 1.28 ns: 100 quanta last 128 ns. -/
theorem test_pause : after ported (.pfcFrameReceive 1 6 [0, 100, 200]) (fun t => (t.hostPort 1).paused == [(1, 1128), (2, 1256)]) = true := by decide +kernel

/-- Queue pair 2050 is in RTS and expects PSN 7; region 3 is memory, region 4 tethers. -/
def paired : State :=
  { (({ queued with time := 10 ^ 12 } : State).setQp 2050
      { QpSt.idle with phase := .rts, entry := [0x500000000000000, 0x0060000000010000 + 2 ^ 21 * 3, 0, 0, 0, 0, 0, 0], rqPsn := 7 }) with
    mrs := [(3, some [BitVec.ofNat 64 (2 ^ 62 + 2 ^ 61 + 2 ^ 60 + 2 ^ 59 + 2 ^ 58 + 5), 0x100000, 0x10000, 0]),
            (4, some [BitVec.ofNat 64 (3 * 2 ^ 62 + 2 ^ 61 + 2 ^ 60 + 2 ^ 59 + 2 ^ 58 + 5), 8, 0x1000, 0])] }

/-- What a target is. -/
def isPieces (t : HostTarget) (l : List (Nat × Nat)) : Bool := match t with | .pieces m => m == l | _ => false
def isRefused (t : HostTarget) : Bool := match t with | .refused => true | _ => false
def isTether (t : HostTarget) (n : Nat) : Bool := match t with | .tethers m => m == n | _ => false

theorem wit_Roce : paired.down = false ∧ (paired.qp 2050).phase = .rts ∧ (paired.qp 2050).entry ≠ [] ∧ (7 : BitVec 24).toNat = (paired.qp 2050).rqPsn ∧
    paired.portPaused 1 = false ∧ (paired.hostPort 1).txq = [] := by decide +kernel
theorem wit_Roce_memory : isPieces (paired.hostTarget 2050 (3 * 2 ^ 20 + 5) 0x40 16 permWrite).1 [(0x100040, 16)] = true ∧
    isPieces (paired.hostTarget 2050 (3 * 2 ^ 20 + 5) 0x40 16 permRead).1 [(0x100040, 16)] = true ∧
    isRefused (paired.hostTarget 2050 (3 * 2 ^ 20 + 6) 0x40 16 permWrite).1 = true ∧ 0x100040 + 16 ≤ hbmTop := by decide +kernel
theorem wit_Roce_tether : isTether (paired.hostTarget 2050 (4 * 2 ^ 20 + 5) 16 8 permAtomic).1 10 = true := by decide +kernel
theorem wit_Roce_response : (paired.qp 2049).phase ≠ .rts ∧ (paired.qp 2050).outstanding = [] := by decide +kernel

/-- Queue 3 with its ring in HBM, fed by queue pair 2050. -/
def hbmRing (s : State) : State :=
  s.setQueue 3 { s.queue 3 with entry := [0x8000, 0x20000, BitVec.ofNat 64 (4 * 2 ^ 57 + 4 * 2 ^ 52 + 5 * 2 ^ 40 + 2050), 0] }

/-- Corral 2 sees its first 64 KiB page at the same address, and the caches hold nothing older. -/
def mapped (s : State) : State :=
  let t := (((s.setReg .HST_XLATE_ROOT 0 2 0x1001).wrWord 0x1000 0x2001).wrWord 0x2000 0x3001).wrWord 0x3000 0xF
  { t with xold := { XlateOld.reset with all := t.mem } }

theorem wit_Roce_send : let s := mapped (hbmRing paired)
    s.sendQueue 2050 = some 3 ∧ 2 ^ entryRingLog (s.queue 3) = 16 ∧ sub32 (s.queue 3).pi (s.queue 3).admitIx + 11 ≤ 16 ∧
      16 < sub32 (s.queue 3).pi (s.queue 3).admitIx + 12 ∧
      ∀ j, j < 11 → s.rangeErr (s.queueCorral 3) true (dw (s.queue 3).entry 0 + 128 * ((10 + j) % 16)) 128 = none := by decide +kernel

/-- A WRITE of it is outstanding, sent so many times. -/
def outstanding (tries : Nat) : State :=
  paired.setQp 2050 { paired.qp 2050 with
    outstanding := [{ write := true, psn := 3, addr := 0, rkey := 0, len := 8, data := [], queue := 9, sentAt := 0, tries := tries }] }

theorem wit_Roce_timeout : ((outstanding 1).qp 2050).outstanding.length = 1 ∧ bitsOf (dw ((outstanding 1).qp 2050).entry 1) 23 21 = 3 ∧
    0 + 4096 * 2 ^ bitsOf (dw ((outstanding 1).qp 2050).entry 1) 20 16 ≤ (outstanding 1).time ∧ psnLe 3 3 = true ∧
    ¬ (0 + 4096 * 2 ^ bitsOf (dw ((outstanding 1).qp 2050).entry 1) 20 16 ≤ ported.time) := by decide +kernel

theorem wit_Control : let s := (hbmRing queued).setQueue 3 { (hbmRing queued).queue 3 with recs := 9 }
    s.down = false ∧ (s.queue 3).phase = .enabled ∧ entryRingHost (s.queue 3) = false ∧ (s.queue 3).entry ≠ [] ∧
      sub32 21 (s.queue 3).admitIx ≤ 2 ^ entryRingLog (s.queue 3) ∧ ¬ sub32 22 (s.queue 3).admitIx ≤ 2 ^ entryRingLog (s.queue 3) ∧
      sub32 (s.queue 3).pi (s.queue 3).admitIx ≤ sub32 21 (s.queue 3).admitIx ∧
      ¬ sub32 (s.queue 3).pi (s.queue 3).admitIx ≤ sub32 9 (s.queue 3).admitIx ∧
      sub32 9 (s.queue 3).ci ≤ sub32 (s.queue 3).recs (s.queue 3).ci ∧ ¬ sub32 10 (s.queue 3).ci ≤ sub32 (s.queue 3).recs (s.queue 3).ci ∧
      (s.queue 3).held = [] ∧
      (s.queue 4).phase = .disabled := by decide +kernel

/-- A word with its top two bits and the nine below. -/
def topTwo (n k : Nat) : Word := BitVec.ofNat 64 (n * 2 ^ 62 + k * 2 ^ 53)

/-- Queue 3 has a MOVE in flight whose stream 0 is halted. -/
def haltedMove : State :=
  ({ queued with cmds := [cmdOf 3 4 [header 3 0]] } : State).setCtx 0 { StreamCtx.idle with phase := .halted, queue := 3, seq := 4 }

theorem wit_Control_stream : (haltedMove.ctx 0).phase = .halted ∧ (haltedMove.ctx 0).queue = 3 ∧ haltedMove.cmd 3 (haltedMove.ctx 0).seq = some (cmdOf 3 4 [header 3 0]) ∧
    (∀ n, n < 4 → (topTwo n 0).fld 63 62 = n ∧ (topTwo n 0).fld 61 17 = 0) :=
  ⟨by decide +kernel, by decide +kernel, rfl, by decide +kernel⟩

/-- The entry of queue 3 stands in the table, and that of queue pair 5. -/
def tabled : State :=
  let s := queued.setQueue 3 QueueSt.idle
  (s.wr (64 * 3) (leBytes 8 0x10000 ++ leBytes 8 0x20000 ++ leBytes 8 (4 * 2 ^ 57 + 4 * 2 ^ 52 + 2 * 2 ^ 40) ++ leBytes 8 0)).wr (64 * 5)
    (wordsBytes (paired.qp 2050).entry)

theorem wit_Control_enable : (tabled.queue 3).phase = .disabled ∧ entryReserved (tabled.tableWords (64 * 3) 8) = false ∧ tabled.owner .queue 3 ≠ none ∧
    tabled.owner .queue 9 = none ∧ tabled.fld .HST_QTABLE_BASE 0 0 56 12 = 0 ∧ (tabled.queue 3).held = [] ∧ tabled.cmds = [] := by decide +kernel
theorem wit_Control_reserved : entryReserved (tabled.tableWords (64 * 5) 8) = true ∧ entryReserved (running.tableWords (64 * 9) 8) = true := by decide +kernel
theorem wit_Control_pair : (tabled.qp 5).phase = .reset ∧ (let e := tabled.tableWords (64 * 5) 8
      3 ≤ bitsOf (dw e 0) 58 56 ∧ bitsOf (dw e 0) 58 56 ≤ 5 ∧ bitsOf (dw e 1) 20 16 ≠ 0) ∧
    bitsOf (dw (tabled.tableWords (64 * 6) 8) 1) 20 16 = 0 ∧ (paired.qp 2050).phase ≠ .reset := by decide +kernel
theorem wit_Control_inval : (∀ n, n < 4 → (topTwo n 256).fld 63 62 = n ∧
    (topTwo n 256).fld 61 53 = 256) ∧ 256 < (topTwo 0 257).fld 61 53 := by decide +kernel

/-! ## Witnesses: admission, grants and leases -/

/-- Queue 3 with a descriptor at its head; in walk mode or not. -/
def heading (d : List Nat) : State := queued.setQueue 3 { queued.queue 3 with fetched := some (words d) }
def walking (s : State) : State :=
  s.setQueue 3 { s.queue 3 with entry := [0, 0x20000, BitVec.ofNat 64 (2 ^ 63 + 4 * 2 ^ 57 + 4 * 2 ^ 52 + 5 * 2 ^ 40 + 2 ^ 39), 0] }

/-- What admission answers, as a number: 0 go, 1 no operation, 2 + code a rejection. -/
def admits (d : List Nat) : Nat :=
  match (heading d).admission 2 3 5 (words d) with | .go => 0 | .noop => 1 | .reject e _ => 2 + e.code

/-- A descriptor for every row. -/
def rowWords : List (ClassRow × List Nat) :=
  [(.matrix, [header 1 0]), (.vector, [header 2 0]), (.drain, [header 4 0]), (.tandem, [header 5 0]), (.tetherWait, [header 6 0, 0, 7, 9]),
   (.tetherSignal, [header 6 1, 0, 7, 9]), (.tetherAdd, [header 6 2, 0, 7, 9]), (.ctxSave, [header 7 0]), (.ctxRestore, [header 8 0]),
   (.fence, [header 9 0]), (.resync, [header 10 0]), (.step, [header 11 0])]

theorem wit_Rows : ∀ e ∈ rowWords, rowOf (words e.2) = some e.1 := by decide +kernel
theorem wit_Rows_moves : ((upTo 8).map (fun s => rowOf (words [header 3 0, 0, s * 2 ^ 61]))).contains (some .moveCopy) = true ∧
    ((upTo 8).map (fun s => rowOf (words [header 3 0, 0, s * 2 ^ 61]))).contains (some .moveMulticast) = true ∧
    ((upTo 16).all (fun s => match rowOf (words [header 3 s]) with | some _ => true | none => rowOf (words [header 3 s]) == none)) = true ∧
    rowOf (words [header 12 0]) = none := by decide +kernel
theorem wit_Rows_head : (heading [header 9 0]).down = false ∧ (heading [header 9 0]).canAdmit 3 = true ∧ stepFor 3 (heading [header 9 0]).cmds = none ∧
    ((heading [header 9 0]).queue 3).waiter = none ∧ ((heading [header 9 0]).queue 3).fetched = some (words [header 9 0]) ∧
    (heading [header 9 0]).cmds = [] ∧ entryWalk ((heading [header 9 0]).queue 3) = false := by decide +kernel
theorem wit_Rows_walk : entryWalk ((walking (heading [header 9 0])).queue 3) = true ∧ ((walking (heading [header 9 0])).queue 3).walkUnits = 0 ∧
    (walking (heading [header 9 0])).canAdmit 3 = true := by decide +kernel
theorem wit_Rows_admit : admits [header 9 0] = 0 ∧ admits [header 6 1, 0, 7, 9] = 0 ∧ 2 ≤ admits [header 6 2, 0, 200] ∧
    (2 ≤ admits [header 12 0]) := by decide +kernel
theorem wit_Rows_tether : ¬ (bitAt (dw (words [header 9 0, 2 ^ 63 + 4 * 2 ^ 48 + 1]) 1) 63 = false ∨
    bitsOf (dw (words [header 9 0, 2 ^ 63 + 4 * 2 ^ 48 + 1]) 1) 31 0 ≤ (queued.tether 4).toNat) := by decide +kernel

/-- Descriptors: a VECTOR of stall 0 to 0 with a program at 5, a DRAIN of a segment, each accepted. -/
def vecWords : List Nat := [header 2 0, 0, 2 ^ 40 + 5 * 2 ^ 29 + 3 * 2 ^ 17, 0, 99, 0, 0, 0, 0, 0, 11, 12, 13, 14, 15, 16]
def drainWords : List Nat := [header 4 0, 0, 2 ^ 40 + 2 * 2 ^ 34, 4 * 2 ^ 32 + 3 * 2 ^ 16, 0x1000, 2 ^ 32, 0x100]

/-- A descriptor that waits, and queue 3 with it. -/
def waiterOf (d : List Nat) (at_ : WaitStage) : Waiter :=
  { desc := words d, at_ := at_, noop := false, staged := false, stamp := 70, since := 60, prodDone := false, refused := false }
def waiting (w : Waiter) : State := queued.setQueue 3 { queued.queue 3 with waiter := some w }

/-- The segment that the DRAIN names is resident; the producer has ended; another command holds the segment. -/
def resident (s : State) : State := { s with acs := { s.acs with segs := [(2, { SegSt.idle with valid := true, prodQueue := 3, prodSeq := 4 })] } }
def produced (s : State) (code : Nat) : State := s.setQueue 3 { s.queue 3 with outcome := [(4, code + 1)] }
def conflicted (w : Waiter) : State := { waiting w with cmds := [cmdOf 4 1 drainWords] }

theorem wit_Grants : let w := waiterOf vecWords .grant
    (waiting w).down = false ∧ ((waiting w).queue 3).waiter = some w ∧ ((waiting w).queue 3).phase = .enabled ∧ (waiting w).discard 2 = none ∧
      (waiting w).queueCorral 3 = 2 ∧ (waiting w).grantable 3 70 w.desc ((waiting w).descNeed 2 w.desc) = true ∧ descClass w.desc = 2 ∧
      (vecDescOf w.desc).pload = false ∧ (waiting w).vecStalls 2 (vecDescOf w.desc) = [0] := by decide +kernel
theorem wit_Grants_drain : let w := waiterOf drainWords .grant
    (waiting w).grantable 3 70 w.desc ((waiting w).descNeed 2 w.desc) = true ∧ descClass w.desc = 4 ∧
      (waiting w).drainResident 2 (drainDescOf w.desc) = false ∧ (resident (waiting w)).drainResident 2 (drainDescOf w.desc) = true := by decide +kernel
theorem wit_Grants_conflict : let w := waiterOf drainWords .grant
    (conflicted w).grantable 3 70 w.desc ((conflicted w).descNeed 2 w.desc) = false ∧ w.refused = false := by decide +kernel
theorem wit_Grants_producer : let p := drainDescOf (words drainWords)
    (waiting (waiterOf drainWords .producer)).producer p.prodQueue p.prodSeq = none ∧
      (produced (waiting (waiterOf drainWords .producer)) OK).producer p.prodQueue p.prodSeq = some OK ∧ isOkCode OK = true ∧
      (produced (waiting (waiterOf drainWords .producer)) E_ACS_ECC).producer p.prodQueue p.prodSeq = some E_ACS_ECC ∧ isOkCode E_ACS_ECC = false := by
  decide +kernel

/-- An ACCUMULATE whose segment is not resident. -/
theorem wit_Grants_accumulate : let w := waiterOf [header 1 0, 0, 2 ^ 40] .grant
    descClass w.desc = 1 ∧ (waiting w).grantable 3 70 w.desc ((waiting w).descNeed 2 w.desc) = true := by decide +kernel

/-- A waiter that was refused, and a limit of 1 µs. -/
def overdue : State :=
  let s := (conflicted { waiterOf drainWords .grant with refused := true }).setFld .ACS_LEASE_LIMIT 0 0 31 0 1
  { s with time := 5000 }

theorem wit_Grants_limit : let w := { waiterOf drainWords .grant with refused := true }
    let st := overdue.waitStalls 3 70 w.desc (overdue.descNeed 2 w.desc)
    (overdue.queue 3).waiter = some w ∧ (overdue.leaseLimit st).isSome = true ∧ (overdue.leaseLimit st).getD 0 < overdue.time - w.since ∧
      ¬ (overdue.leaseLimit st).getD 0 < 61 - w.since := by decide +kernel

/-! ## Witnesses: commands in flight -/

/-- A command beside another one, a second after reset. -/
def flying (c : Cmd) : State := { queued with cmds := [cmdOf 4 1 drainWords, c], time := 10 ^ 9 }

/-- Its stream 0 is ACTIVE. -/
def streaming (c : Cmd) : State := (flying c).setCtx 0 { StreamCtx.idle with phase := .active, queue := 3, seq := 4, advanced := 3 }

/-- A TETHER WAIT of 5 ms, a MOVE, a multicast of two receivers, a tree node that waits. -/
def waitCmd : Cmd := cmdOf 3 4 [header 6 0, 0, 7, 9, 5 * 2 ^ 32]
def moveCmd : Cmd := cmdOf 3 4 [header 3 0]
def mcastCmd : Cmd := cmdOf 3 4 [header 3 0, 0, 2 * 2 ^ 61, 0, 0, 0, 0, 0, 0, 0, 2 * 2 ^ 48]
def treeWords : List Nat := [header 1 0, 0, 0, 0, 0, 0, 0, 0, 0, 0, 0, 0, 0, 0, 4 * 2 ^ 52]
def treeCmd : Cmd := { cmdOf 3 4 treeWords with fold := { FoldSt.start with streamed := true, tree := some (0, 5, 0) } }

theorem wit_Flying (c : Cmd) (hq : c.queue = 3) (hs : c.seq = 4) : (flying c).down = false ∧ (flying c).cmd 3 4 = some c := by
  refine ⟨rfl, ?_⟩
  simp [State.cmd, flying, List.find?, cmdOf, hq, hs]
theorem wit_Timeout_releases : descClass (cmdOf 3 4 drainWords).desc = 4 ∧ (cmdOf 3 4 drainWords).released = 0 ∧ descClass moveCmd.desc = 3 ∧
    (matDescOf (words [header 1 0])).ctl.disp ≠ 1 := by decide +kernel
theorem wit_Timeout_wait : descClass waitCmd.desc = 6 ∧ descSub waitCmd.desc = 0 ∧ bitsOf (dw waitCmd.desc 4) 63 32 = 5 ∧
    5 * 1000000 ≤ (flying waitCmd).time - waitCmd.startTime ∧ ¬ 5 * 1000000 ≤ 5000009 - waitCmd.startTime := by decide +kernel
theorem wit_Timeout_tree : treeCmd.fold.tree = some (0, 5, 0) ∧ descClass treeCmd.desc = 1 ∧
    (flying treeCmd).nocTimeout (treeCmd.ctxs.headD 0 / 32768) true ≤ (flying treeCmd).time - 5 ∧
    (flying treeCmd).treeWaits treeCmd (matDescOf treeCmd.desc) 16 0 = true ∧ (flying treeCmd).discard 2 = none ∧ moveCmd.fold.tree = none := by
  decide +kernel
theorem wit_Timeout_stream : ((streaming moveCmd).ctx 0).phase = .active ∧ ((streaming moveCmd).ctx 0).queue = 3 ∧ ((streaming moveCmd).ctx 0).seq = 4 ∧
    0 ∈ moveCmd.ctxs ∧ (moveDescOf moveCmd.desc).watchNs ≤ (streaming moveCmd).time - ((streaming moveCmd).ctx 0).advanced ∧
    ((flying moveCmd).ctx 0).phase ≠ .active := by decide +kernel
theorem wit_Timeout_lag : let m := moveDescOf mcastCmd.desc
    m.kind = 2 ∧ m.ctx = 0 ∧ m.mcCount = 2 ∧ ((streaming mcastCmd).ctx 0).phase ≠ .halted ∧ m.lagNs < 2000000 ∧ ¬ m.lagNs < 1000000 ∧ m.mcReport = 0 := by decide +kernel

/-! ## Witnesses: commands that end, tandems, faults -/

/-- Queue 3's completion ring is full, corral 2 sees its page, and another command holds segment 2. -/
def ending (c : Cmd) : State :=
  let s := mapped { queued with cmds := [cmdOf 4 1 drainWords, c] }
  s.setQueue 3 { s.queue 3 with ci := 5, written := 21, recs := 21, inflight := 1 }

/-- A small MATRIX, a one-row copy of 20 bytes, a STEP of queue 9, a tandem with stage records and stages. -/
def matWords : List Nat := [header 1 0, 0, 0, 2 ^ 32 + 2 ^ 16, 1, 0x8000, 0x9000]
def copyWords : List Nat := [header 3 0, 0, 0, 0x1000, 0x8010, 20, 2 ^ 32]
def stepCmd9 : Cmd := cmdOf 3 4 [header 11 0, 0, 9 * 2 ^ 48]
def tandemOf (recs : List (List Nat)) (st : List StageSt) : Cmd := { cmdOf 3 4 [header 5 0] with stages := st, stageTabs := recs.map words }

theorem wit_Timeout_tree_stage : let c : Cmd := { tandemOf [copyWords, treeWords] [.done, .running] with fold := { FoldSt.start with tree := some (0, 5, 1) } }
    descClass c.desc = 5 ∧ (flying c).treeWaits c (matDescOf (c.stageTabs.getD 1 [])) 16 0 = true ∧
      (flying c).nocTimeout (c.ctxs.headD 0 / 32768) true ≤ (flying c).time - 5 := by decide +kernel

/-- How a piece of work comes out: 0 it waits, 1 part of the way, 2 it fails with a code, 3 it is done. -/
def workKind (w : Work) : Nat := match w with | .wait => 0 | .part _ _ => 1 | .fail _ _ _ _ _ => 2 | .done _ _ _ => 3

theorem wit_Grants_free : (waiting (waiterOf vecWords .grant)).cmd 3 ((waiting (waiterOf vecWords .grant)).queue 3).admitIx = none ∧
    (waiting (waiterOf drainWords .grant)).residentOk 2 (words matWords) = true := by decide +kernel

/-- A DRAIN whose stall's team works for another command, for no one, or for it. -/
def teamWith (s : State) (j : Option TeamJob) : State := s.setTeam 0 { TeamSt.reset with job := j, done := (List.replicate 64 0).set 0 1 }
def jobFor (q seq : Nat) : TeamJob :=
  { queue := q, seq := seq, stage := 0, chunk := 0, corral := 2, slice := 0, up := none, down := none, slow := false, passes := [(0, 4)] }
def drainCmd : Cmd := cmdOf 3 4 drainWords
def releases (s : State) (c : Cmd) (i : Nat) : Bool :=
  (s.stallsOne c.corral (stageDesc c i)).all (fun st => (s.team st).quiet || (match (s.team st).job with
    | some j => j.queue == c.queue && j.seq == c.seq | none => false))

theorem wit_Releases : (flying drainCmd).stallsOne 2 (stageDesc drainCmd 0) = [0] ∧ releases (flying drainCmd) drainCmd 0 = true ∧
    releases (teamWith (flying drainCmd) (some (jobFor 3 4))) drainCmd 0 = true ∧
    releases (teamWith (flying drainCmd) (some (jobFor 9 9))) drainCmd 0 = false := by decide +kernel
theorem wit_Releases_tandem : let c := tandemOf [copyWords, drainWords] [.running, .running]
    descClass c.desc = 5 ∧ needRelease c = [1] ∧ releases (flying c) c 1 = true ∧
      releases (teamWith (flying c) (some (jobFor 9 9))) c 1 = false ∧ needRelease { c with freed := [1] } = [] := by decide +kernel
theorem wit_Lag_tandem : let c : Cmd := { tandemOf [copyWords, [header 3 0, 0, 2 * 2 ^ 61 + 7 * 2 ^ 40, 0, 0, 0, 0, 0, 0, 0, 2 * 2 ^ 48]] [.done, .running] with
      ctxs := [0, 7] }
    let s := (flying c).setCtx 7 { StreamCtx.idle with phase := .waiting, queue := 3, seq := 4, stage := 1 }
    let m := moveDescOf (c.stageTabs.getD 1 [])
    c.stages.getD 1 .done = .running ∧ m.kind = 2 ∧ m.ctx = 7 ∧ 1 < m.mcCount ∧ m.lagNs < 2000000 ∧ (moveDescOf (c.stageTabs.getD 0 [])).ctx ≠ 7 ∧
      7 ∈ c.ctxs ∧ (s.ctx 7).queue = 3 ∧ (s.ctx 7).seq = 4 ∧ (s.ctx 7).phase ≠ .halted := by decide +kernel

theorem wit_Ends (c : Cmd) (hq : c.queue = 3) (hs : c.seq = 4) : (ending c).down = false ∧ (ending c).cmd 3 4 = some c ∧ (ending c).discard 2 = none := by
  refine ⟨rfl, ?_, rfl⟩
  rw [State.cmd, show (ending c).cmds = [cmdOf 4 1 drainWords, c] from rfl]
  simp [List.find?, cmdOf, hq, hs]
theorem wit_Ends_full : let v := (ending moveCmd).queue 3
    v.error = 0 ∧ 2 ^ entryCrLog v ≤ sub32 v.written v.ci ∧ ((ending moveCmd).reg .DBG_LATCH_RING 0 2).bit 63 = false := by decide +kernel
theorem wit_Ends_halted : haltedMove.isHalted (cmdOf 3 4 [header 3 0]) = true ∧ (ending moveCmd).isHalted moveCmd = false := by decide +kernel
theorem wit_Ends_drain : let c := { cmdOf 3 4 drainWords with released := 1 }
    workKind ((resident (ending c)).drainWork c c.desc false) = 3 := by decide +kernel
theorem wit_Ends_copy : let c := cmdOf 3 4 copyWords
    let m := moveDescOf c.desc
    m.kind = 0 ∧ m.srcSp = 0 ∧ m.dstSp = 0 ∧ m.rows = 1 ∧ m.len = 20 ∧ m.dst / 512 = (m.dst + m.len - 1) / 512 ∧ c.ctxs = [m.ctx] ∧
      ((ending c).ctx m.ctx).pos = 0 ∧ ((ending c).ctx m.ctx).sent = 0 ∧ ((ending c).ctx m.ctx).made = [] ∧
      ((ending c).ctx m.ctx).rfault = none ∧ (ending c).outstanding 3 4 m.ctx T_WRITE = [] ∧ c.stageTabs = [] ∧
      ((ending c).moveStop c m).isNone = true ∧
      (match (ending c).translate 2 m.dst true with | .ok pa => pa == 0x8010 && placeOf pa == .hbm | _ => false) = true := by decide +kernel
theorem wit_Ends_tether : descClass waitCmd.desc = 6 ∧ descSub waitCmd.desc = 0 ∧ descSub (words [header 6 1, 0, 7, 9]) = 1 ∧ descSub (words [header 6 2, 0, 7, 9]) = 2 := by
  decide +kernel
theorem wit_Ends_fence : let c := cmdOf 3 4 [header 9 0]
    (ending c).cmds.any (fun x => x.queue == 3 && x.seq != 4) = false ∧
      ({ ending c with cmds := [c, cmdOf 3 3 drainWords] } : State).cmds.any (fun x => x.queue == 3 && x.seq != 4) = true := by decide +kernel
theorem wit_Ends_units : (ending moveCmd).allHalted [] = true ∧ (ending moveCmd).allHalted [⟨0, 0, 0⟩] = false ∧ [StageSt.done, .skipped].all stageOver = true ∧
    [StageSt.done, .idle].all stageOver = false ∧ ((ending stepCmd9).queue 9).phase = .disabled ∧
    unitOpen ((ending stepCmd9).queue 9) (ending stepCmd9).cmds 9 = false := by decide +kernel

/-- SIGNAL sets, ADD adds to its tether, and SIG_EN adds one. -/
def tetherAfter (d : List Nat) : Option Nat :=
  match exec (.commandComplete 3 4) ((ending (cmdOf 3 4 d)).setTether 7 5) with | .next t => some (t.tether 7).toNat | _ => none
theorem test_tether : tetherAfter [header 6 1, 2 ^ 47 + 7 * 2 ^ 32, 7, 9] = some 10 ∧ tetherAfter [header 6 2, 0, 7, 9] = some 14 := by decide +kernel
theorem test_copy : after ((ending (cmdOf 3 4 [header 3 0, 0, 0, 0x5000, 0x8010, 20, 2 ^ 32])).wr 0x5000 [7, 8]) (.commandComplete 3 4) (fun t => t.rdBytes 0x8010 3 == [7, 8, 0]) = true := by decide +kernel

theorem wit_Tandem : let c := tandemOf [matWords, copyWords, [header 3 0 + 2 ^ 59 + 0x40]] [.idle, .idle, .idle]
    descClass c.desc = 5 ∧ stageOf c 1 = .idle ∧ (ending c).snooped c = false ∧ stageAfter (words copyWords) = 0 ∧ stagePredicated (words copyWords) = false ∧
      bitAt (dw (words [header 3 0 + 2 ^ 59 + 0x40]) 0) 59 = true ∧ (ending c).vaWord 2 0x40 = 0 ∧
      (ending c).rangeErr 2 false 0x40 8 = none := by decide +kernel
theorem wit_Tandem_word : ((ending moveCmd).wrWord 0x40 1).vaWord 2 0x40 ≠ 0 := by decide +kernel
theorem wit_Tandem_drain : let x := drainDescOf (words drainWords)
    let c := tandemOf [drainWords] [.idle]
    x.rows ≠ 0 ∧ x.count ≠ 0 ∧ (ending c).producer x.prodQueue x.prodSeq = none ∧
      (produced (ending c) OK).producer x.prodQueue x.prodSeq = some OK ∧ (produced (ending c) OK).drainResident 2 x = false ∧
      (produced (resident (ending c)) OK).drainResident 2 x = true ∧ (produced (ending c) E_ACS_ECC).producer x.prodQueue x.prodSeq = some E_ACS_ECC := by
  decide +kernel
theorem wit_Tandem_work : let c := tandemOf [copyWords] [.running]
    stageOf c 0 = .running ∧ (∀ j ∈ (ending c).stageCtxs c 0, ((ending c).ctx j).phase ≠ .halted) ∧ (stageInput c 0).isNone = true ∧
      stageClass c 0 = 3 ∧ workKind ((ending c).stageWork c 0 none) = 3 := by decide +kernel
theorem wit_Tandem_vector : let c := tandemOf [vecWords] [.running]
    stageClass c 0 = 2 ∧ stageIsNoop (words vecWords) = false ∧ (ending c).allHalted [] = true := by decide +kernel

/-- A copy from an address that is not mapped. -/
def lostCopy : Cmd := cmdOf 3 4 [header 3 0, 0, 0, 0x40000000, 0x8010, 20, 2 ^ 32]
def losing : State := { ending lostCopy with cmds := [lostCopy] }

theorem wit_Halt : (losing.ctx 0).phase ≠ .halted ∧ (losing.ctx 0).stage < 8 ∧ (moveDescOf lostCopy.desc).ctx = 0 ∧
    (match losing.moveWork lostCopy lostCopy.desc none false with
      | .part u c1 => (match u.moveStop c1 (moveDescOf lostCopy.desc) with
        | some a => (match a.err with | .xlate _ _ => true | _ => false) && decide (a.pos ≤ (u.ctx 0).pos) && c1.queue == 3 && c1.seq == 4
            && c1.phase == .running && c1.halts == lostCopy.halts && u.cmd 3 4 == some lostCopy
        | none => false)
      | _ => false) = true := by decide +kernel
theorem wit_Halt_first : losing.cmds.find? (fun x => x.ctxs.contains 0) = some lostCopy := rfl
theorem wit_Halt_none : let s : State := { ending (cmdOf 3 4 copyWords) with cmds := [cmdOf 3 4 copyWords] }
    workKind (s.moveWork (cmdOf 3 4 copyWords) (words copyWords) none false) = 3 := by decide +kernel

/-- The only command. -/
def alone (c : Cmd) : State := { ending c with cmds := [c] }

/-- A GATHER of a row past its table. -/
def badGather : Cmd := cmdOf 3 4 [header 3 0, 0, 2 ^ 61, 0x1000, 0x8000, 0, 0, 0, 0, 0, 0, 0, 1, 0x100, 4 * 2 ^ 32 + 4, 0]

theorem wit_Ends_work : workKind ((alone badGather).moveWork badGather badGather.desc none false) = 2 ∧
    (match (alone badGather).moveWork badGather badGather.desc none false with
      | .fail u code _ _ _ => !isCorralFault code && (u.cmd 3 4).map (·.phase) == some .running | _ => false) = true ∧
    (let c := cmdOf 3 4 copyWords
     (match (alone c).moveWork c c.desc none false with | .done _ c1 _ => c1.queue == 3 && c1.seq == 4 && c1.desc == c.desc | _ => false) = true) ∧
    workKind (losing.moveWork lostCopy lostCopy.desc none false) = 1 := by
  decide +kernel
theorem wit_Ends_chunk : let c := cmdOf 3 4 matWords
    let s := alone c
    c.fold = FoldSt.start ∧ (match matWith c c.desc 0 none with
      | some (x, f) =>
        let rd := s.matReader 2 [] []
        x.ctl.disp != 1 && chunkCount x f == 1 && s.teamsOpen c (s.gangStalls 2 x.gangBase (gangsUsed x f)) && !x.haltInvalid
          && (match (s.chunkStreams c x f rd false).2 with | .through _ => true | _ => false) && (s.firstFail c (troughAccs x f 0)).isNone
      | none => false) = true := by decide +kernel
theorem wit_Ends_restore : let c := cmdOf 3 4 [header 8 0, 0, 0, 0x1000]
    workKind ((alone c).restoreWork c) = 2 ∧
      (let d := { cmdOf 3 4 [header 7 0, 0, 0, 0x1000] with released := 1 }
       workKind ((alone d).saveWork d) = 3) ∧ isCorralFault E_CTX_IMAGE = false := by decide +kernel

/-- A MATRIX stage with a predicate mask at 0x40, and one whose operand has no translation. -/
def maskedWords : List Nat := [header 1 0, 0, 0, 2 ^ 32 + 2 ^ 16, 1, 0x8000, 0x9000, 0, 0, 0, 0, 2 ^ 58 + 0x40]
def lostWords : List Nat := [header 1 0, 0, 0, 2 ^ 32 + 2 ^ 16, 1, 0x40000000, 0x9000]
theorem wit_Tandem_mask : let c := tandemOf [maskedWords] [.idle]
    (stageMaskAt (words maskedWords)).map (·.1) = some 0x40 ∧
      (match stageMaskAt (words maskedWords) with | some (a, n) => (ending c).rangeErr 2 false a n == none | none => false) = true ∧
      stageMaskAt (words copyWords) = none := by decide +kernel
theorem wit_Tandem_part : let c := tandemOf [lostWords] [.running]
    stageOf c 0 = .running ∧ (match (alone c).stageWork c 0 none with
      | .part u c1 => c1.queue == 3 && c1.seq == 4 && u.cmd 3 4 == some c | _ => false) = true ∧
    (let d := tandemOf [[header 3 0, 0, 2 ^ 61, 0x1000, 0x8000, 0, 0, 0, 0, 0, 0, 0, 1, 0x100, 4 * 2 ^ 32 + 4, 0]] [.running]
     workKind ((alone d).stageWork d 0 none) = 2) := by decide +kernel
theorem wit_Halt_matrix : let c := cmdOf 3 4 lostWords
    let d := cmdOf 3 4 matWords
    (match ((alone c).haltPlan c c.desc 0 none false 0).1 with | some a => (match a.err with | .xlate _ _ => true | _ => false) | none => false) = true ∧
      ((alone d).haltPlan d d.desc 0 none false 0).1.isNone = true ∧ descClass c.desc = 1 ∧ ((alone c).ctx 0).phase ≠ .halted := by decide +kernel

/-- A MATRIX of a team at stall 0. -/
def teamCmd : Cmd := cmdOf 3 4 matWords
def teamed : State := { ending teamCmd with cmds := [teamCmd] }

theorem wit_Faults : teamed.down = false ∧ teamed.discard 2 = none ∧ (teamed.teamUser 0).isSome = true ∧ (∃ p, p < 9 ∧ (rowInUse (teamed.repair 0) p).isSome = true) ∧
    (running.teamUser 0).isNone = true := by
  refine ⟨rfl, rfl, by decide +kernel, ⟨3, by decide +kernel⟩, by decide +kernel⟩
theorem wit_Faults_segment : (firstCmd (teamed.cmds.filter (fun x => x.phase == .running && x.segs.contains (0 * 64 + 2)))).isSome = true ∧
    (firstCmd (teamed.cmds.filter (fun x => x.phase == .running && x.segs.contains (0 * 64 + 3)))).isNone = true ∧
    (acsSeg running.acs 0 3).valid = false ∧ (acsSeg (resident running).acs 0 2).valid = true := by decide +kernel
theorem wit_Faults_bank : let s := teamed.setSeqr 0 { SeqSt.idle with bank0 := { BankSt.idle with phase := .active, queue := 3, seq := 4 } }
    ((s.seqr 0).bank false).phase ≠ .free ∧ ((s.seqr 0).bank false).queue = 3 ∧ ((s.seqr 0).bank false).seq = 4 ∧ ((s.seqr 0).bank true).phase = .free := by
  decide +kernel
theorem wit_Faults_gait : (0 : BitVec 12).toNat < (running.setFld .STL_GAIT_LIMIT 7 0 11 0 1).fld .STL_GAIT_LIMIT 7 0 11 0 ∧
    ¬ (1 : BitVec 12).toNat < (running.setFld .STL_GAIT_LIMIT 7 0 11 0 1).fld .STL_GAIT_LIMIT 7 0 11 0 := by decide +kernel

/-- Corral 2 discards: its MATRIX fails and another command is discarded. -/
def discarding : State :=
  let s := ending { teamCmd with phase := .failing E_ACS_ECC 0 0 }
  { s with cmds := [{ cmdOf 4 1 drainWords with phase := .discarding E_ACS_ECC 3 }, { teamCmd with phase := .failing E_ACS_ECC 0 0 }]
           svc := { s.svc with discards := [(2, some { code := E_ACS_ECC, queue := 3, instant := 77, repair := [], joined := [] })] } }

theorem wit_Discard : discarding.down = false ∧ (discarding.discard 2).isSome = true ∧ discarding.corralBusy 2 = false ∧ running.discard 2 = none ∧
    discarding.cmds.map (fun c => (c.queue, c.seq, c.corral)) = [(4, 1, 2), (3, 4, 2)] := by decide +kernel
theorem test_discard_joined : after (discarding.fault 2 E_HBM_UNCORR 0xFFFF none []) (.discardRequestsRetired 2) (fun t =>
    (t.svc.events.take 2).map (fun e => e.word3 / 2 ^ 32) == [E_ACS_ECC * 2 ^ 16 + 3, E_HBM_UNCORR * 2 ^ 16 + 0xFFFF] &&
    smGet (fun _ => 0) (t.queue 3).outcome 4 == E_ACS_ECC + 1) = true := by decide +kernel
theorem test_discard : after discarding (.discardRequestsRetired 2) (fun t => t.cmds == [] && (t.discard 2).isNone &&
    smGet (fun _ => 0) (t.queue 4).outcome 1 == E_DISCARDED + 1 && smGet (fun _ => 0) (t.queue 3).outcome 4 == E_ACS_ECC + 1) = true := by decide +kernel

/-! ## Witnesses: the stall's processor -/

/-- An instruction: opcode, formats, mask, registers, immediate. -/
def ins (op fd fs mk d a b imm : Nat) : VIns :=
  ⟨BitVec.ofNat 8 op, BitVec.ofNat 4 fd, BitVec.ofNat 4 fs, BitVec.ofNat 3 mk, BitVec.ofNat 5 d, BitVec.ofNat 5 a, BitVec.ofNat 5 b, 0, false, false,
   BitVec.ofNat 26 imm⟩

/-- The ACTIVE bank of stall 0 at an instruction of its program 10 to 14, with a window of 4 KiB at 0x4000. -/
def bankOf : BankSt :=
  { BankSt.idle with
    phase := .active, queue := 3, seq := 4, pstart := 10, plen := 5, pc := 11, stalls := 1, issued := 3
    s := [(1, 0x1234567890), (2, 37), (3, 0x4000)], v := [(1, 0x3F80000040000000), (2, 0x40000000)], masks := [(1, 3)]
    windows := [(0x4000, 0x1000, true)], seed := 77 }
def vecCmd : Cmd := { cmdOf 3 4 [header 2 0] with segs := [], ctxs := [], banks := [⟨0, 0, 0⟩] }
def atIns (k : BankSt) (c : Cmd) (i : VIns) : State :=
  ({ ending c with cmds := [c] } : State).setSeqr 0 { SeqSt.idle with bank0 := k, prog := [(11, vinsWord i)] }

/-- The instruction is the ACTIVE bank's next one. -/
def nextIs (i : VIns) : Bool := (atIns bankOf vecCmd i).nextIns 0 i.op.toNat == some (false, bankOf, vecCmd, i)

theorem wit_Scalar : (vectorRows.map (·.1)).all (fun op => nextIs (ins op 1 1 1 3 1 2 12)) = true ∧ (atIns bankOf vecCmd (ins 1 0 0 0 5 0 0 0)).down = false ∧
    (atIns bankOf vecCmd (ins 1 0 0 0 5 0 0 0)).nextIns 0 2 = none := by decide +kernel
theorem wit_Scalar_limit : limitHit bankOf = false ∧ limitHit { bankOf with limit := 3 } = true ∧ bankOf.haltInv = false := by decide +kernel
theorem wit_Scalar_targets : (bankOf.pstart ≤ 14 ∧ 14 < bankOf.pstart + bankOf.plen) ∧ ¬ (bankOf.pstart ≤ 15 ∧ 15 < bankOf.pstart + bankOf.plen) ∧
    bankOf.pstart ≤ bankOf.pc + 1 ∧ bankOf.pc + 1 < bankOf.pstart + bankOf.plen := by decide
theorem wit_Scalar_window : windowOk bankOf 0x4FF8 8 8 true = true ∧ windowOk bankOf 0x5000 8 8 true = false ∧ windowOk bankOf 0x4004 8 8 false = false ∧
    windowOk bankOf 0x4000 32 32 false = true ∧ descClass vecCmd.desc ≠ 5 := by decide +kernel

/-- A hand-over into and out of stage 0: produced, consumed, closed. -/
def handOf (p c : Nat) (closed : Bool) : HandOver :=
  { prod := 1, cons := 0, stall := 0, slot := 0, bytes := 4096, p := p, c := c, closed := closed, ending := false, backlog := [], got := [] }

/-- The VECTOR stage that binds channel 0 both ways to hand-over 0, and its command. -/
def bindWords : List Nat := [header 2 0, 8 + 8 * 2 ^ 16]
def channelled (p c : Nat) (closed : Bool) : Cmd := { tandemOf [bindWords] [.running] with hands := [handOf p c closed] }

theorem wit_Channels : chanHand (channelled 100 4 false) 0 false 0 = some (0, handOf 100 4 false) ∧ chanHand (channelled 100 4 false) 0 true 0 = some (0, handOf 100 4 false) ∧
    chanHand (channelled 100 4 false) 0 false 1 = none := by decide +kernel
theorem wit_Channels_counts : (handOf 100 4 false).p < (handOf 100 4 false).c + 97 ∧ 96 ≤ (handOf 100 4 false).p - (handOf 100 4 false).c ∧
    (handOf 100 4 false).p - (handOf 100 4 false).c < 97 ∧ (handOf 100 4 true).closed = true ∧ (handOf 100 4 false).p + 4000 - (handOf 100 4 false).c ≤ 4096 ∧
    4096 < (handOf 100 4 false).p + 4001 - (handOf 100 4 false).c := by decide

/-- A DISPATCH block in the window. -/
def dispatching (block : List Byte) : State := (atIns bankOf vecCmd (ins 0x68 0 0 0 0 3 0 0)).wr (stallAddr 0 0x4000) block
def goodBlock : List Byte := leBytes 8 0x4000 ++ leBytes 8 0x6000 ++ leBytes 8 (2 ^ 48 + 2 * 2 ^ 32 + 3) ++ leBytes 8 4

theorem wit_Dispatch : let s := dispatching goodBlock
    windowOk bankOf 0x4000 32 32 false = true ∧ (s.freeContext 2).isSome = true ∧ s.isHalted vecCmd = false ∧ s.stageBanks vecCmd 0 = [⟨0, 0, 0⟩] ∧
      (match dispBlockOf (bytesWords 4 (s.rdBytes (stallAddr 0 0x4000) 32)) with
        | some blk => ((s.dispatchAccs 2 blk).1.filterMap (s.accFail 2)).isEmpty | none => false) = true := by decide +kernel
theorem wit_Dispatch_refused : (dispBlockOf (bytesWords 4 ((dispatching (leBytes 32 0)).rdBytes (stallAddr 0 0x4000) 32))).isNone = true ∧
    running.owned .context 2 = [] := by decide +kernel

/-- The ACTIVE bank has halted and the other is READY. -/
def switching : State :=
  let s := atIns { bankOf with wait := .halted } vecCmd (ins 0x1F 0 0 0 0 0 0 0)
  let t : State := { s with cmds := [vecCmd, { vecCmd with seq := 5 }] }
  t.setSeqr 0 { t.seqr 0 with bank1 := { bankOf with phase := .ready, seq := 5 } }

theorem wit_Switch : let q := switching.seqr 0
    let o := !(q.active.getD q.last)
    (q.active = none ∨ (q.bank (!o)).wait = .halted) ∧ (q.bank o).phase = .ready ∧ (switching.bankCmd (q.bank o)).isSome = true := by decide +kernel
theorem wit_Switch_none : let q := (atIns bankOf vecCmd (ins 0x1F 0 0 0 0 0 0 0)).seqr 0
    let o := !(q.active.getD q.last)
    (q.bank o).phase ≠ .ready ∧ (q.bank o).phase ≠ .waiting := by decide +kernel

theorem wit_Dispatch_ctxs : let s := dispatching goodBlock
    s.dispCtxs vecCmd 0 = [] ∧ ((s.seqr 0).bank true).phase ≠ .active ∧ s.owned .context 2 ≠ [] ∧
      (let c := { vecCmd with ctxs := [5] }
       ((s.setCtx 5 { StreamCtx.idle with phase := .active, stage := 8 }).dispCtxs c 0 = [5])) := by decide +kernel
theorem wit_Switch_sound : let q := switching.seqr 0
    let o := !(q.active.getD q.last)
    q.active.getD q.last = q.last ∧ (q.bank o).wait = .none := by decide +kernel

/-- The other bank waits at an HWAIT of 96 bytes, which its channel has. -/
def waking : State :=
  let c := { channelled 100 4 false with seq := 5 }
  let t : State := { switching with cmds := [vecCmd, c] }
  t.setSeqr 0 { t.seqr 0 with bank1 := { bankOf with phase := .waiting, seq := 5, wait := .hwait 0 96 6 } }
theorem wit_Switch_wait : let q := waking.seqr 0
    let o := !(q.active.getD q.last)
    (q.bank (!o)).wait = .halted ∧ q.active.getD q.last = q.last ∧ (q.bank o).phase = .waiting ∧
      (match waking.bankCmd (q.bank o) with | some c => (hwaitValue c (q.bank o).stage 0 96).isSome | none => false) = true ∧
      (q.bank o).pstart ≤ (q.bank o).pc ∧ (q.bank o).pc < (q.bank o).pstart + (q.bank o).plen := by decide +kernel
theorem test_switch : after waking (.bankSwitch 0) (fun t => (t.seqr 0).active == some true &&
    ((t.seqr 0).bank true).sreg 6 == 96 && t.fld .STL_SEQ_SWITCHES 0 0 47 0 == 1) = true := by decide +kernel

theorem wit_Vector : nextIs (ins 0x3B 1 1 1 3 1 2 2) = true ∧ elemWidth (fmtOfCode 1) = 32 ∧ 3 % 8 ≠ 0 ∧ laneOn (bankOf.mreg 1) 0 = true ∧
    laneOn (bankOf.mreg 1) 2 = false ∧ lanesOn (bankOf.mreg 1) 32 = 2 := by decide +kernel
theorem wit_Vector_convert : let g := 1024 / max (elemWidth (fmtOfCode 3)) (elemWidth (fmtOfCode 1))
    g * 1 + g ≤ 1024 / elemWidth (fmtOfCode 3) := by decide +kernel
theorem wit_Vector_scale : (mxConvert (fmtOfCode 6) [(roundingOf 0 77 0, numOperand (fmtOfCode 1) false 0x40000000)]).scale < 256 := by decide +kernel
theorem wit_Vector_tree : (fixedTree (redNode 0 (fmtOfCode 1) false) ((upTo 32).map (fun l => RedNode.mk (elemAt (bankOf.vreg 1) 32 l) l l [] 0))).isSome = true := by
  decide +kernel
theorem wit_Vector_memory : windowOk bankOf 0x4040 (16 * packBits 7) 64 false = true ∧ windowOk bankOf 0x4020 (16 * packBits 7) 64 false = false ∧
    idxOk (ins 0x22 3 0 1 3 3 2 1) { bankOf with v := [] } 16 true = true := by decide +kernel
theorem wit_Vector_invalid : ∃ l, l < 32 ∧ laneOn (bankOf.mreg 1) l = true ∧ (vecDiv (fmtOfCode 1) (elemAt (bankOf.vreg 4) 32 l) (elemAt (bankOf.vreg 5) 32 l)).cause.isSome = true :=
  ⟨0, by decide +kernel⟩

/-- 2.0 + 2.0 is 4.0 in FP32, in the active lanes only; 0 / 0 is invalid and gives a NaN. -/
theorem test_vadd : after (atIns bankOf vecCmd (ins 0x30 1 1 1 3 1 2 0)) (.vvadd 0) (fun t =>
    elemAt (((t.seqr 0).bank false).vreg 3) 32 0 == 0x40800000 && elemAt (((t.seqr 0).bank false).vreg 3) 32 2 == 0) = true := by decide +kernel

/-- VSUB of scalars wraps modulo 2^64, and S0 stays zero. -/
theorem test_vssub : after (atIns bankOf vecCmd (ins 4 0 0 0 5 0 2 0)) (.vssub 0) (fun t => ((t.seqr 0).bank false).sreg 5 == BitVec.ofNat 64 (2 ^ 64 - 37)) = true ∧
    after (atIns bankOf vecCmd (ins 4 0 0 0 0 1 2 0)) (.vssub 0) (fun t => ((t.seqr 0).bank false).sreg 0 == 0) = true := by decide +kernel

/-! ## Witnesses: registers -/

/-- An address of the windows without a register, and one that is misaligned. -/
def noRegister : BitVec 57 := BitVec.ofNat 57 (regAddr .CFG_LOAD 0 0 + 0x8000)

theorem wit_Undefined : running.down = false ∧ regBase ≤ noRegister.toNat ∧ noRegister.toNat < regTop ∧ regAt noRegister.toNat = none ∧
    (noRegister + 4).toNat % 8 ≠ 0 ∧ (noRegister + 4).toNat < regTop := by decide +kernel
theorem wit_Fields : let a : BitVec 57 := BitVec.ofNat 57 (regAddr .NOC_TIMEOUT 3 0)
    regBase ≤ a.toNat ∧ a.toNat < regTop ∧ a.toNat % 8 = 0 ∧ regAt a.toNat = some ⟨.NOC_TIMEOUT, 3, 0⟩ ∧
      isEnable .NOC_TIMEOUT (regInfo .NOC_TIMEOUT).blk = false := by decide +kernel
theorem wit_Idcode : running.reg .CFG_IDCODE 0 0 = State.reset.reg .CFG_IDCODE 0 0 := by decide +kernel

/-- XOFF_KIB at or below XON_KIB, or above 1,008, is not taken; 1,008 is (R331). -/
def pfcXoff (xon xoff : Nat) : Option Nat :=
  match exec (.registerWrite (BitVec.ofNat 57 (regAddr .HST_PFC 1 0)) (BitVec.ofNat 64 (xon * 2 ^ 48 + xoff * 2 ^ 32))) running with
  | .next t => some (t.fld .HST_PFC 1 0 47 32) | _ => none
theorem test_pfc : pfcXoff 256 256 = some 0x280 ∧ pfcXoff 256 257 = some 257 ∧ pfcXoff 256 1008 = some 1008 ∧ pfcXoff 256 1009 = some 0x280 := by
  decide +kernel

/-- An instruction's word has its opcode in bits 63:56 and its immediate in bits 25:0. -/
theorem test_word : vinsWord (ins 0x30 1 2 3 4 5 6 7) >>> 56 = 0x30 ∧ vinsWord (ins 0 0 0 0 0 0 0 0x3FFFFFF) = 0x3FFFFFF := by decide +kernel

/-- A chunk's relay and four elements: step 0 is the relay, the next begins at step 5. -/
theorem test_steps : (upTo 6).map (stepOf [(0, 4), (1, 2)]) =
    [some (0, true), some (0, false), some (0, false), some (0, false), some (0, false), some (1, true)] ∧
    relaysIn [(0, 4), (1, 2)] 6 = 2 := by decide +kernel
/-- R479: the pairs 00, 01, 11 and 10 are levels 0 to 3. -/
theorem test_levels : pamLevels [false, false, false, true, true, true, true, false] = [0, 1, 2, 3] ∧ (upTo 4).flatMap pamPair =
    [false, false, false, true, true, true, true, false] := by decide +kernel
/-- R480: two scramblers in the same state undo each other, and a register of ones sends 0 first. -/
theorem test_scrambler : (scramble scrOnes (bitList 70 (2 ^ 60 + 5))).1 ≠ bitList 70 (2 ^ 60 + 5) ∧
    (scramble scrOnes (scramble scrOnes (bitList 70 (2 ^ 60 + 5))).1).1 = bitList 70 (2 ^ 60 + 5) := by decide +kernel
/-- R481: after 15 equal levels a lane that has sent v sends 3 − v. -/
theorem test_stuff : (stuffIn freshRuns (List.replicate 16 [1, 0, 2, 3])).1.drop 15 = [[2, 3, 1, 0], [1, 0, 2, 3]] ∧
    (stuffOut freshRuns [0, 0, 0, 0] (stuffIn freshRuns (List.replicate 16 [1, 0, 2, 3])).1).1 = List.replicate 16 [1, 0, 2, 3] := by decide +kernel
/-- The field of the code: 3 times its inverse is 1, and x to the 1,023rd is 1. -/
theorem test_field : gfMul 3 (gfInv 3) = 1 ∧ gfTimesX 512 = 9 := by decide +kernel

/-- Chapter 17's worked example: 70,000 tagged K positions fail check 9 with the byte of INDEX_TAG; 60,000 pass. -/
def tagged (k : Nat) : List Word :=
  ([2 ^ 60, 0, 0x24 * 2 ^ 58 + 2 * 2 ^ 54 + 2 ^ 50 + 4 * 2 ^ 40 + 4 * 2 ^ 32 + 2 ^ 24 + 8 * 2 ^ 7 + 2 ^ 6, 64 * 2 ^ 32 + 256 * 2 ^ 16, k, 0, 0, 0,
    64 * 128 * 2 ^ 32, 0, 0, 2 ^ 62, 0, 0, 2 ^ 52, 0] : List Nat).map (BitVec.ofNat 64)
def corralSeven : CorralView := { len := 8, shapes := 2 ^ 0x24, gangs := 48, available := fun _ => true }
theorem test_tag_range : (firstReject (matChecks (tagged 70000) corralSeven)).map (fun r => (r.code, r.detail)) = some (0x100B, 0x09000016) ∧
    (firstReject (matChecks (tagged 60000) corralSeven)).isNone = true := by decide +kernel
/-- Chapter 7's worked example: instruction 12 is VCVT to E4M3 from FP32, stochastic, V4 part 2 from V2. -/
theorem test_vcvt_word : vinsOf 0x5051041030000002 = { op := 0x50, fd := 5, fs := 1, msk := 0, d := 4, a := 2, b := 0, rnd := 3, sd := false, ss := false, imm := 2 } ∧
    vinsLegal (vinsOf 0x5051041030000002) = true := by decide +kernel
/-- Chapter 13's worked example: physical address 0x35_6B2C_4E00 under the reset masks. -/
theorem test_hbm_address : let s := State.reset
    s.stackOf 0x356B2C4E00 = 7 ∧ s.ctrlOf 0x356B2C4E00 = 12 ∧ s.pcOf 0x356B2C4E00 = 248 ∧ s.bankOf 0x356B2C4E00 = 51 := by decide +kernel

end Sys2Proof.Tests
end

section
/-!
PROOFS. Register accesses that reach no register (R9): what a refused access changes, for reads and for writes, and that it is the same
for a hole as for a misaligned address.
-/

namespace Sys2Proof

/-- Setting bit `n` of a word is replacing the one-bit field there by 1. -/
theorem Word.or_two_pow_eq_put (w : Word) {n : Nat} (h : n < 64) : w ||| BitVec.ofNat 64 (2 ^ n) = w.put n n 1 := by
  refine BitVec.eq_of_getLsbD_eq fun i hi => ?_
  have hput : (w.put n n 1).getLsbD i = if n ≤ i ∧ i < n + 1 then Nat.testBit 1 (i - n) else w.getLsbD i := w.bit_put n n 1 i hi
  rw [hput, BitVec.getLsbD_or, BitVec.getLsbD_ofNat, Nat.testBit_two_pow]
  by_cases hn : i = n
  · simp [hn, h]
  · rw [if_neg (by omega)]
    simp [Ne.symm hn]

end Sys2Proof

namespace Sys2Proof.Machine

/-! ### A replaced field, in the words of the obligations -/

/-- Replacing a field of a register leaves its other fields. -/
theorem State.fieldOnly_setFld (s : State) (r : Reg) (inst idx hi lo v : Nat) :
    s.fieldOnly (s.setFld r inst idx hi lo v) r inst idx hi lo := fun h l d hh => by
  rw [State.fld, State.reg_setFld, Word.fld_put_other _ _ _ _ _ _ d hh, State.fld]

/-- Replacing a field of a register leaves the other registers. -/
theorem State.regsBut_setFld (s : State) (r : Reg) (inst idx hi lo v : Nat) :
    s.regsBut (s.setFld r inst idx hi lo v) [regAddr r inst idx] :=
  fun _ ha => smGet_smSet_other _ _ _ (List.ne_of_not_mem_cons ha)

/-- Changes one after the other leave what neither of them reaches. -/
theorem State.regsBut_trans {s t u : State} {l m : List Nat} (h : s.regsBut t l) (k : t.regsBut u m) : s.regsBut u (l ++ m) :=
  fun a ha => (k a fun hm => ha (List.mem_append_right l hm)).trans (h a fun hl => ha (List.mem_append_left m hl))

/-! ### A register access that is refused (R9) -/

/-- The registers after an event: the event's bit is 1, whether or not a record is produced (R600). -/
theorem State.raise0_regs (s : State) {b : Blk} {ev en : Reg} {blk : Nat} (inst : Nat) {bit : Nat} (hb : evRegs b = some (ev, en, blk))
    (hbit : bit < 64) : (s.raise0 b inst bit).regs = (s.setFld ev inst 0 bit bit 1).regs := by
  simp only [State.raise0, State.raise, hb, Word.or_two_pow_eq_put _ hbit]
  split
  · exact State.pushEvent_regs ..
  · rfl

/-- The registers after a refused access: DBG_BAD_REG_ACCESS has advanced and DBG_EVENT.BAD_REG is 1. -/
theorem State.badReg_regs (s : State) :
    s.badReg.regs = ((s.bump .DBG_BAD_REG_ACCESS 0 0 1).setFld .DBG_EVENT 0 0 0 0 1).regs :=
  State.raise0_regs _ 0 (b := .dbg) rfl (by decide)

/-- A register after a refused access. -/
theorem State.badReg_reg (s : State) (r : Reg) (inst idx : Nat) :
    s.badReg.reg r inst idx = ((s.bump .DBG_BAD_REG_ACCESS 0 0 1).setFld .DBG_EVENT 0 0 0 0 1).reg r inst idx := by
  rw [State.reg, State.badReg_regs, State.reg]

/-- A refused access changes registers and the events held; nothing else. -/
theorem State.badReg_eq (s : State) : s.badReg = { s with regs := s.badReg.regs, svc := s.badReg.svc } := State.raise0_eq ..

/-- A refused access and the count of such accesses: one more in COUNT. -/
theorem State.badReg_reg_count (s : State) :
    s.badReg.reg .DBG_BAD_REG_ACCESS 0 0 = (s.bump .DBG_BAD_REG_ACCESS 0 0 1).reg .DBG_BAD_REG_ACCESS 0 0 := by
  rw [State.badReg_reg, State.reg_setFld_other _ _ _ _ (by decide)]

/-- A refused access and DBG_EVENT: its bit BAD_REG becomes 1. -/
theorem State.badReg_reg_event (s : State) : s.badReg.reg .DBG_EVENT 0 0 = (s.reg .DBG_EVENT 0 0).put 0 0 1 := by
  rw [State.badReg_reg, State.reg_setFld, State.bump, State.reg_setFld_other _ _ _ _ (by decide)]

/-- COUNT of DBG_BAD_REG_ACCESS advances by one, modulo its width (R122). -/
theorem State.badReg_count (s : State) :
    s.badReg.fld .DBG_BAD_REG_ACCESS 0 0 47 0 = (s.fld .DBG_BAD_REG_ACCESS 0 0 47 0 + 1) % 2 ^ 48 := by
  rw [State.fld, State.badReg_reg_count, State.bump, State.reg_setFld, Word.fld_put_same _ _ _ _ (by decide)]

/-- Of DBG_BAD_REG_ACCESS only COUNT changes. -/
theorem State.badReg_fieldOnly_count (s : State) : s.fieldOnly s.badReg .DBG_BAD_REG_ACCESS 0 0 47 0 := fun h l d hh => by
  rw [State.fld, State.badReg_reg_count]
  exact s.fieldOnly_setFld .DBG_BAD_REG_ACCESS 0 0 47 0 _ h l d hh

/-- Of DBG_EVENT only BAD_REG changes. -/
theorem State.badReg_fieldOnly_event (s : State) : s.fieldOnly s.badReg .DBG_EVENT 0 0 0 0 := fun h l d hh => by
  rw [State.fld, State.badReg_reg_event, Word.fld_put_other _ _ _ _ _ _ d hh, State.fld]

/-- DBG_EVENT.BAD_REG is 1 after a refused access. -/
theorem State.badReg_event_bit (s : State) : (s.badReg.reg .DBG_EVENT 0 0).bit 0 = true := by
  rw [State.badReg_reg_event, Word.bit_put _ _ _ _ _ (by decide)]
  rfl

/-- A refused access leaves every register but the two that record it. -/
theorem State.badReg_regsBut (s : State) :
    s.regsBut s.badReg [regAddr .DBG_BAD_REG_ACCESS 0 0, regAddr .DBG_EVENT 0 0] := fun a ha => by
  rw [State.badReg_regs]
  exact State.regsBut_trans (s.regsBut_setFld _ _ _ _ _ _) (State.regsBut_setFld _ _ _ _ _ _ _) a ha

/-! ### Addresses that name no register -/

/-- A read at a misaligned address, or where no register is defined, returns zero and is refused (R9). -/
theorem State.regRead_refused (s : State) {a : Nat} (h : a % 8 ≠ 0 ∨ regAt a = none) : s.regRead a = (0, s.badReg) := by
  unfold State.regRead
  split
  next => rfl
  next aligned => rw [h.resolve_left aligned]

/-- A write at a misaligned address, or where no register is defined, is refused (R9). -/
theorem State.regWrite_refused (s : State) {a : Nat} (v : Word) (h : a % 8 ≠ 0 ∨ regAt a = none) : s.regWrite a v = s.badReg := by
  unfold State.regWrite
  split
  next => rfl
  next aligned => rw [h.resolve_left aligned]

/-- REGISTER_WRITE is what its arm says. -/
theorem exec_registerWrite (a : BitVec 57) (v : Word) (s : State) : exec (.registerWrite a v) s = execRegisterWrite a v s := rfl

/-- REGISTER_WRITE at an address of the register windows that names no register, of a device that runs. -/
theorem exec_registerWrite_refused {s : State} {a : BitVec 57} (v : Word) (hs : s.down = false) (lo : regBase ≤ a.toNat)
    (hi : a.toNat < regTop) (h : a.toNat % 8 ≠ 0 ∨ regAt a.toNat = none) : exec (.registerWrite a v) s = .next s.badReg := by
  rw [exec_registerWrite, execRegisterWrite, if_pos ⟨lo, hi⟩, s.regWrite_refused v h, State.live_up _ _ hs, State.badReg_eq]

/-- Settles O57: an address that names no register is refused exactly as a misaligned one is, and a refused access changes the count and
DBG_EVENT.BAD_REG alone. -/
theorem undefinedOffsets : Obligations.UndefinedOffsets := by
  intro s a v hs lo hi hole
  have hwrite := exec_registerWrite_refused v hs lo hi (.inr hole)
  refine ⟨?_, ⟨s.badReg, hwrite, s.badReg_eq, s.badReg_count, s.badReg_fieldOnly_count, s.badReg_event_bit, s.badReg_fieldOnly_event,
    s.badReg_regsBut⟩, fun b blo bhi misaligned => ⟨?_, ?_⟩⟩
  · rw [s.regRead_refused (.inr hole)]
  · rw [s.regRead_refused (.inl misaligned), s.regRead_refused (.inr hole)]
  · rw [exec_registerWrite_refused v hs blo bhi (.inl misaligned), hwrite]

end Sys2Proof.Machine
end

section
/-!
PROOFS. Registers that keep a field written out of range (R331, R376, R443, R476): which place their addresses name, that a write of one
of them only stores, what each of its fields holds then, and where the probe lengths lie.
-/

namespace Sys2Proof

/-- Words that agree in a one-bit field agree in its bit. -/
theorem Word.bit_eq_of_fld_eq {w u : Word} {n : Nat} (h : w.fld n n = u.fld n n) : w.bit n = u.bit n := by
  have hbit := congrArg (·.testBit 0) h
  simpa only [testBit_fld, Nat.add_sub_cancel_left, Nat.add_zero, Nat.lt_one_iff, decide_true, Bool.true_and] using hbit

end Sys2Proof

namespace Sys2Proof.Machine

/-! ### The address of a register names it -/

/-- The windows of one block end before those of the other begin (R43). -/
abbrev windowsBefore (b c : Blk) : Prop := (blkWindow b).1 + (blkWindow b).2.1 * (blkWindow b).2.2.2 ≤ (blkWindow c).1

/-- The windows of the blocks stand in address order (R43). -/
theorem allBlks_ordered : allBlks.Pairwise windowsBefore := by decide

/-- Row `i` of `n` rows of `w` ends within them all. -/
theorem mul_add_lt_of_lt {i n o w : Nat} (hi : i < n) (ho : o < w) : i * w + o < w * n := by
  calc i * w + o < i * w + w := Nat.add_lt_add_left ho _
    _ = (i + 1) * w := (Nat.succ_mul i w).symm
    _ ≤ n * w := Nat.mul_le_mul_right w hi
    _ = w * n := Nat.mul_comm n w

/-- Of a list of blocks in address order, an address within the windows of one is found there, with the window's number and the offset in it. -/
theorem windowOf_of_mem {b : Blk} {i o : Nat} (hi : i < (blkWindow b).2.2.2) (ho : o < (blkWindow b).2.1) {l : List Blk}
    (ordered : l.Pairwise windowsBefore) (hb : b ∈ l) :
    windowOf ((blkWindow b).1 + i * (blkWindow b).2.1 + o) l = some (b, i, o) := by
  have hend : i * (blkWindow b).2.1 + o < (blkWindow b).2.1 * (blkWindow b).2.2.2 := mul_add_lt_of_lt hi ho
  induction l with
  | nil => cases hb
  | cons c t ih =>
    obtain ⟨hbefore, htail⟩ := List.pairwise_cons.1 ordered
    obtain rfl | hbt := List.mem_cons.1 hb
    · have hdiv : (i * (blkWindow b).2.1 + o) / (blkWindow b).2.1 = i := by
        rw [Nat.mul_comm, Nat.mul_add_div (by omega), Nat.div_eq_of_lt ho, Nat.add_zero]
      have hmod : (i * (blkWindow b).2.1 + o) % (blkWindow b).2.1 = o := by
        rw [Nat.mul_comm, Nat.mul_add_mod, Nat.mod_eq_of_lt ho]
      rw [windowOf, if_pos (by omega), Nat.add_assoc, Nat.add_sub_cancel_left, hdiv, hmod]
    · have hpast : windowsBefore c b := hbefore b hbt
      rw [windowOf, if_neg (by omega)]
      exact ih htail hbt

/-- A block's windows lie within the register windows, at aligned addresses (R43). -/
theorem blkWindow_bounds (b : Blk) : b ∈ allBlks ∧ regBase ≤ (blkWindow b).1 ∧
    (blkWindow b).1 + (blkWindow b).2.1 * (blkWindow b).2.2.2 ≤ regTop ∧ (blkWindow b).1 % 8 = 0 ∧ (blkWindow b).2.1 % 8 = 0 := by
  cases b <;> decide

/-- The table puts index 0 of a register into the window of its block, at an aligned offset at which no register of the block comes first;
a device-wide register is named as that of window 0. -/
structure RegPlaced (r : Reg) (i : Nat) : Prop where
  inst : i < (blkWindow (regInfo r).blk).2.2.2
  home : regShared r = false ∨ i = 0
  off : (regInfo r).off < (blkWindow (regInfo r).blk).2.1
  aligned : (regInfo r).off % 8 = 0
  find : findReg (regInfo r).off i (regsOf (regInfo r).blk) = some ⟨r, i, 0⟩

section
variable {r : Reg} {i : Nat} (h : RegPlaced r i)
include h

/-- The address of a register is its offset in the window of its number. -/
theorem RegPlaced.regAddr_eq :
    regAddr r i 0 = (blkWindow (regInfo r).blk).1 + i * (blkWindow (regInfo r).blk).2.1 + (regInfo r).off := by
  obtain own | first := h.home
  · simp [regAddr, own]
  · simp [regAddr, first]

/-- The address of a register names it. -/
theorem RegPlaced.regAt_regAddr : regAt (regAddr r i 0) = some ⟨r, i, 0⟩ := by
  rw [regAt, h.regAddr_eq, windowOf_of_mem h.inst h.off allBlks_ordered (blkWindow_bounds _).1]
  exact h.find

/-- The address of a register is an aligned address of the register windows. -/
theorem RegPlaced.regAddr_bounds : regBase ≤ regAddr r i 0 ∧ regAddr r i 0 < regTop ∧ regAddr r i 0 % 8 = 0 := by
  obtain ⟨-, hlo, hhi, hbase, hstride⟩ := blkWindow_bounds (regInfo r).blk
  have hoff := h.off
  have hal := h.aligned
  have hend : i * (blkWindow (regInfo r).blk).2.1 + (regInfo r).off <
      (blkWindow (regInfo r).blk).2.1 * (blkWindow (regInfo r).blk).2.2.2 := mul_add_lt_of_lt h.inst h.off
  have hmul : i * (blkWindow (regInfo r).blk).2.1 % 8 = 0 := by simp [Nat.mul_mod, hstride]
  rw [h.regAddr_eq]
  omega

end

/-! ### A write that only stores -/

/-- A write that only stores leaves the other registers. -/
theorem State.regsBut_plainWrite (s : State) (p : RegPlace) (v : Word) :
    s.regsBut (s.plainWrite p v) [regAddr p.reg p.inst p.idx] :=
  fun _ ha => smGet_smSet_other _ _ _ (List.ne_of_not_mem_cons ha)

/-- REGISTER_WRITE at an aligned address of a register, of a device that runs: the meaning of a write of that register. -/
theorem exec_registerWrite_place {s : State} {a : BitVec 57} {p : RegPlace} (v : Word) (lo : regBase ≤ a.toNat)
    (hi : a.toNat < regTop) (aligned : a.toNat % 8 = 0) (hp : regAt a.toNat = some p) :
    exec (.registerWrite a v) s = s.live (s.regPut p v) := by
  rw [exec_registerWrite, execRegisterWrite, if_pos ⟨lo, hi⟩, State.regWrite, if_neg (not_not_intro aligned), hp]

/-- REGISTER_WRITE of a register whose write only stores: that register holds its written word, and nothing else changes. -/
theorem RegPlaced.exec_registerWrite {s : State} {r : Reg} {i : Nat} (h : RegPlaced r i) (v : Word) (hs : s.down = false)
    (plain : s.regPut ⟨r, i, 0⟩ v = s.plainWrite ⟨r, i, 0⟩ v) :
    ∃ t, exec (.registerWrite (BitVec.ofNat 57 (regAddr r i 0)) v) s = .next t ∧ t = { s with regs := t.regs } ∧
      s.regsBut t [regAddr r i 0] ∧ t.reg r i 0 = regWritten r (s.reg r i 0) v := by
  obtain ⟨lo, hi, aligned⟩ := h.regAddr_bounds
  have haddr : (BitVec.ofNat 57 (regAddr r i 0)).toNat = regAddr r i 0 :=
    Nat.mod_eq_of_lt (Nat.lt_trans hi (by decide))
  refine ⟨s.plainWrite ⟨r, i, 0⟩ v, ?_, rfl, s.regsBut_plainWrite _ v, s.reg_setReg ..⟩
  rw [exec_registerWrite_place v (haddr.symm ▸ lo) (haddr.symm ▸ hi) (haddr.symm ▸ aligned) (haddr.symm ▸ h.regAt_regAddr), plain,
    State.live_up _ _ hs]
  rfl

/-! ### The fields of a written word -/

/-- Two fields share no bit. -/
abbrev RegField.apart (f g : RegField) : Prop := f.hi < g.lo ∨ g.hi < f.lo

/-- Bits that lie in no field of a register keep what they hold (R12). -/
theorem fieldsWrite_fld_outside (r : Reg) (old v : Word) {h l : Nat} (hh : h < 64) {fs : List RegField}
    (outside : ∀ f ∈ fs, h < f.lo ∨ f.hi < l) : (fieldsWrite r old v fs).fld h l = old.fld h l := by
  induction fs with
  | nil => rfl
  | cons g t ih =>
    obtain ⟨hg, ht⟩ := List.forall_mem_cons.1 outside
    rw [fieldsWrite, Word.fld_put_other _ _ _ _ _ _ hg hh, ih ht]

/-- A field of a register, all of whose fields are apart, takes what its access code gives it (R11), modulo its width. -/
theorem fieldsWrite_fld (r : Reg) (old v : Word) {f : RegField} (hh : f.hi < 64) {fs : List RegField}
    (apart : fs.Pairwise RegField.apart) (hf : f ∈ fs) :
    (fieldsWrite r old v fs).fld f.hi f.lo = fieldWrite r f (old.fld f.hi f.lo) (v.fld f.hi f.lo) % 2 ^ (f.hi + 1 - f.lo) := by
  induction fs with
  | nil => cases hf
  | cons g t ih =>
    obtain ⟨hg, ht⟩ := List.pairwise_cons.1 apart
    obtain rfl | hft := List.mem_cons.1 hf
    · rw [fieldsWrite, Word.fld_put_same _ _ _ _ hh]
    · rw [fieldsWrite, Word.fld_put_other _ _ _ _ _ _ (hg f hft).symm hh, ih ht hft]

/-- The fields of a register of the table share no bit and lie within its word. -/
theorem regInfo_fields_apart (r : Reg) : (regInfo r).fields.Pairwise RegField.apart ∧ ∀ f ∈ (regInfo r).fields, f.hi < 64 := by
  cases r <;> decide

/-- An RW field takes what is written, but for a reserved encoding, which leaves it (R11, R13). -/
theorem fieldsWrite_fld_rw (old v : Word) {r : Reg} {f : RegField} (hf : f ∈ (regInfo r).fields) (hrw : f.acc = .rw) :
    (fieldsWrite r old v (regInfo r).fields).fld f.hi f.lo =
      if fieldReserved r f.hi (v.fld f.hi f.lo) then old.fld f.hi f.lo else v.fld f.hi f.lo := by
  obtain ⟨apart, below⟩ := regInfo_fields_apart r
  rw [fieldsWrite_fld r old v (below f hf) apart hf, fieldWrite, hrw]
  refine Nat.mod_eq_of_lt ?_
  dsimp only
  split
  · exact Word.fld_lt ..
  · exact Word.fld_lt ..

/-! ### The registers with thresholds -/

/-- The registers of R331, R376, R443 and R476. -/
abbrev thresholdRegs : List Reg := [.HST_PFC, .NOC_TIMEOUT, .HBM_SCRUB_CFG, .PDK_PROBE_LEN, .PDK_REPLAY_LEN]

/-- One of them is one of the five. -/
theorem thresholdRegs_cases {r : Reg} (hr : r ∈ thresholdRegs) :
    r = .HST_PFC ∨ r = .NOC_TIMEOUT ∨ r = .HBM_SCRUB_CFG ∨ r = .PDK_PROBE_LEN ∨ r = .PDK_REPLAY_LEN := by
  simpa using hr

/-- The table places them where their addresses say. -/
theorem RegPlaced.of_threshold {r : Reg} (hr : r ∈ thresholdRegs) {i : Nat} (hi : i < (blkWindow (regInfo r).blk).2.2.2)
    (home : regShared r = false ∨ i = 0) : RegPlaced r i := by
  obtain rfl | rfl | rfl | rfl | rfl := thresholdRegs_cases hr
  all_goals exact ⟨hi, home, by decide, by decide, rfl⟩

/-- A write of one of them only stores. -/
theorem State.regPut_threshold (s : State) {r : Reg} (hr : r ∈ thresholdRegs) (i : Nat) (v : Word) :
    s.regPut ⟨r, i, 0⟩ v = s.plainWrite ⟨r, i, 0⟩ v := by
  obtain rfl | rfl | rfl | rfl | rfl := thresholdRegs_cases hr
  all_goals rfl

/-- REGISTER_WRITE of one of them. -/
theorem exec_registerWrite_threshold {s : State} {r : Reg} (hr : r ∈ thresholdRegs) {i : Nat}
    (hi : i < (blkWindow (regInfo r).blk).2.2.2) (home : regShared r = false ∨ i = 0) (v : Word) (hs : s.down = false) :
    ∃ t, exec (.registerWrite (BitVec.ofNat 57 (regAddr r i 0)) v) s = .next t ∧ t = { s with regs := t.regs } ∧
      s.regsBut t [regAddr r i 0] ∧ t.reg r i 0 = regWritten r (s.reg r i 0) v :=
  (RegPlaced.of_threshold hr hi home).exec_registerWrite v hs (s.regPut_threshold hr i v)

/-- After reset they hold what the table says. -/
theorem State.reset_reg_threshold {r : Reg} (hr : r ∈ thresholdRegs) {i : Nat} (hi : i < (blkWindow (regInfo r).blk).2.2.2)
    (home : regShared r = false ∨ i = 0) : State.reset.reg r i 0 = BitVec.ofNat 64 (fieldsReset (regInfo r).fields) := by
  have hget : State.reset.reg r i 0 = regDefault (regAddr r i 0) := rfl
  rw [hget, regDefault, (RegPlaced.of_threshold hr hi home).regAt_regAddr]
  obtain rfl | rfl | rfl | rfl | rfl := thresholdRegs_cases hr
  all_goals rfl

/-- A BLOCKS of 0 or 0xFFFF_FFFF is not taken, and the reserved bits keep what they hold (R376). -/
theorem regWritten_pdkLen {r : Reg} (hr : r ∈ [Reg.PDK_PROBE_LEN, Reg.PDK_REPLAY_LEN]) (old v : Word) :
    (regWritten r old v).fld 63 32 = old.fld 63 32 ∧ (regWritten r old v).fld 31 0 =
      if v.fld 31 0 = 0 ∨ v.fld 31 0 = 0xFFFFFFFF then old.fld 31 0 else v.fld 31 0 := by
  simp only [List.mem_cons, List.not_mem_nil, or_false] at hr
  obtain rfl | rfl := hr
  all_goals
    refine ⟨fieldsWrite_fld_outside _ _ _ (by decide) (by decide), ?_⟩
    refine (fieldsWrite_fld_rw old v (f := ⟨31, 0, .rw, 1⟩) (by decide) rfl).trans ?_
    simp [fieldReserved]

/-- A timeout of 0 or above 1,000,000 is not taken, and the reserved bits keep what they hold (R443). -/
theorem regWritten_nocTimeout (old v : Word) : let n := regWritten .NOC_TIMEOUT old v
    (∀ f ∈ [(51, 32), (19, 0)], n.fld f.1 f.2 =
      if v.fld f.1 f.2 = 0 ∨ 1000000 < v.fld f.1 f.2 then old.fld f.1 f.2 else v.fld f.1 f.2) ∧
    n.fld 63 52 = old.fld 63 52 ∧ n.fld 31 20 = old.fld 31 20 := by
  refine ⟨?_, fieldsWrite_fld_outside _ _ _ (by decide) (by decide), fieldsWrite_fld_outside _ _ _ (by decide) (by decide)⟩
  simp only [List.forall_mem_cons]
  refine ⟨?_, ?_, List.forall_mem_nil _⟩
  · refine (fieldsWrite_fld_rw old v (f := ⟨51, 32, .rw, 0xC350⟩) (by decide) rfl).trans ?_
    simp [fieldReserved]
  · refine (fieldsWrite_fld_rw old v (f := ⟨19, 0, .rw, 0x32⟩) (by decide) rfl).trans ?_
    simp [fieldReserved]

/-- An INTERVAL_US or MAX_DEFER_S of 0 is not taken, EN is, and the reserved bits keep what they hold (R476). -/
theorem regWritten_hbmScrubCfg (old v : Word) : let n := regWritten .HBM_SCRUB_CFG old v
    n.bit 31 = v.bit 31 ∧
    (∀ f ∈ [(63, 32), (19, 0)], n.fld f.1 f.2 = if v.fld f.1 f.2 = 0 then old.fld f.1 f.2 else v.fld f.1 f.2) ∧
    n.fld 30 20 = old.fld 30 20 := by
  refine ⟨?_, ?_, fieldsWrite_fld_outside _ _ _ (by decide) (by decide)⟩
  · exact Word.bit_eq_of_fld_eq (fieldsWrite_fld_rw old v (f := ⟨31, 31, .rw, 1⟩) (by decide) rfl)
  · simp only [List.forall_mem_cons]
    refine ⟨?_, ?_, List.forall_mem_nil _⟩
    · refine (fieldsWrite_fld_rw old v (f := ⟨63, 32, .rw, 0x15180⟩) (by decide) rfl).trans ?_
      simp [fieldReserved]
    · refine (fieldsWrite_fld_rw old v (f := ⟨19, 0, .rw, 0xA⟩) (by decide) rfl).trans ?_
      simp [fieldReserved]

/-- XON_KIB and XOFF_KIB are taken together or not at all, TX_EN and RX_EN always, and the reserved bits keep what they hold (R331). -/
theorem regWritten_hstPfc (old v : Word) : let n := regWritten .HST_PFC old v
    let bad := v.fld 47 32 ≤ v.fld 63 48 ∨ 1008 < v.fld 47 32
    n.fld 15 8 = v.fld 15 8 ∧ n.fld 7 0 = v.fld 7 0 ∧ n.fld 63 48 = (if bad then old.fld 63 48 else v.fld 63 48) ∧
    n.fld 47 32 = (if bad then old.fld 47 32 else v.fld 47 32) ∧ n.fld 31 16 = old.fld 31 16 := by
  have hxon := fieldsWrite_fld_rw old v (r := .HST_PFC) (f := ⟨63, 48, .rw, 0x200⟩) (by decide) rfl
  have hxoff := fieldsWrite_fld_rw old v (r := .HST_PFC) (f := ⟨47, 32, .rw, 0x280⟩) (by decide) rfl
  have htx := fieldsWrite_fld_rw old v (r := .HST_PFC) (f := ⟨15, 8, .rw, 8⟩) (by decide) rfl
  have hrx := fieldsWrite_fld_rw old v (r := .HST_PFC) (f := ⟨7, 0, .rw, 8⟩) (by decide) rfl
  have hreserved := fieldsWrite_fld_outside .HST_PFC old v (h := 31) (l := 16) (by decide) (fs := (regInfo .HST_PFC).fields) (by decide)
  simp only [fieldReserved, Bool.false_eq_true, if_false] at hxon hxoff htx hrx
  have hxonLt : old.fld 63 48 < 65536 := Word.fld_lt ..
  have hxoffLt : old.fld 47 32 < 65536 := Word.fld_lt ..
  simp only [regWritten, hxon, hxoff]
  split
  · next bad =>
    simp [Word.fld_put_same, Word.fld_put_other, htx, hrx, hreserved, hxonLt, hxoffLt]
  · exact ⟨htx, hrx, hxon, hxoff, hreserved⟩

/-! ### Where the probe lengths lie -/

/-- What O60 says of the addresses of PDK_PROBE_LEN and PDK_REPLAY_LEN: their offsets are counted from PDK_STATUS. -/
def probeLengthsPastStatus (x : Nat) : Prop :=
  regAddr .PDK_PROBE_LEN x 0 = regAddr .PDK_STATUS x 0 + 0x110 ∧ regAddr .PDK_REPLAY_LEN x 0 = regAddr .PDK_STATUS x 0 + 0x190

/-- PDK_STATUS lies 8 bytes into its paddock's window, past PDK_ID (R368, R369). -/
theorem regAddr_pdkStatus (x : Nat) : regAddr .PDK_STATUS x 0 = regAddr .PDK_ID x 0 + 0x008 := by
  simp [regAddr, regInfo, regShared]

/-- PDK_PROBE_LEN lies at offset 0x110 of its paddock's window, which PDK_ID begins (R368, R376). -/
theorem regAddr_pdkProbeLen (x : Nat) : regAddr .PDK_PROBE_LEN x 0 = regAddr .PDK_ID x 0 + 0x110 := by
  simp [regAddr, regInfo, regShared]

/-- All else that O60 says holds: the offsets of the other registers, the reset values and every write. -/
theorem thresholdRegisterWrites_iff : Obligations.ThresholdRegisterWrites ↔ ∀ x : Fin 9216, probeLengthsPastStatus x := by
  constructor
  · rintro ⟨-, -, -, hpdk, -⟩ x
    obtain ⟨hprobe, hreplay, -⟩ := hpdk x
    exact ⟨hprobe, hreplay⟩
  · intro hpdk
    refine ⟨fun p => ?_, fun d => ?_, ?_, fun x => ?_, fun s v hs => ⟨fun p => ?_, fun d => ?_, ?_, fun x r hr => ?_⟩⟩
    · refine ⟨by simp [regAddr, regInfo, regShared], ?_⟩
      simp only [State.fld, State.reset_reg_threshold (r := .HST_PFC) (by decide) p.2 (.inl rfl)]
      decide
    · refine ⟨by simp [regAddr, regInfo, regShared], ?_⟩
      simp only [State.fld, State.reset_reg_threshold (r := .NOC_TIMEOUT) (by decide) d.2 (.inl rfl)]
      decide
    · refine ⟨by decide, ?_⟩
      simp only [State.fld, State.reset_reg_threshold (r := .HBM_SCRUB_CFG) (by decide) (i := 0) (by decide) (.inr rfl)]
      decide
    · obtain ⟨hprobe, hreplay⟩ := hpdk x
      exact ⟨hprobe, hreplay, State.reset_reg_threshold (r := .PDK_PROBE_LEN) (by decide) x.2 (.inl rfl),
        State.reset_reg_threshold (r := .PDK_REPLAY_LEN) (by decide) x.2 (.inl rfl)⟩
    · obtain ⟨t, hnext, hframe, hbut, hreg⟩ := exec_registerWrite_threshold (r := .HST_PFC) (by decide) p.2 (.inl rfl) v hs
      obtain ⟨htx, hrx, hxon, hxoff, hreserved⟩ := regWritten_hstPfc (s.reg .HST_PFC p 0) v
      rw [← hreg] at htx hrx hxon hxoff hreserved
      exact ⟨t, hnext, hframe, hbut, htx, hrx, ⟨hxon, hxoff⟩, hreserved⟩
    · obtain ⟨t, hnext, hframe, hbut, hreg⟩ := exec_registerWrite_threshold (r := .NOC_TIMEOUT) (by decide) d.2 (.inl rfl) v hs
      have hfields := regWritten_nocTimeout (s.reg .NOC_TIMEOUT d 0) v
      rw [← hreg] at hfields
      exact ⟨t, hnext, hframe, hbut, hfields⟩
    · obtain ⟨t, hnext, hframe, hbut, hreg⟩ :=
        exec_registerWrite_threshold (r := .HBM_SCRUB_CFG) (by decide) (i := 0) (by decide) (.inr rfl) v hs
      have hfields := regWritten_hbmScrubCfg (s.reg .HBM_SCRUB_CFG 0 0) v
      rw [← hreg] at hfields
      exact ⟨t, hnext, hframe, hbut, hfields⟩
    · obtain ⟨hthreshold, hown, hcount⟩ :
          r ∈ thresholdRegs ∧ regShared r = false ∧ (blkWindow (regInfo r).blk).2.2.2 = 9216 := by
        simp only [List.mem_cons, List.not_mem_nil, or_false] at hr
        obtain rfl | rfl := hr
        all_goals decide
      obtain ⟨t, hnext, hframe, hbut, hreg⟩ := exec_registerWrite_threshold hthreshold (Nat.lt_of_lt_of_eq x.2 hcount.symm) (.inl hown) v hs
      have hfields := regWritten_pdkLen hr (s.reg r x 0) v
      rw [← hreg] at hfields
      exact ⟨t, hnext, hframe, hbut, hfields⟩

/-- Refutes O60: the statement counts the offsets of PDK_PROBE_LEN and PDK_REPLAY_LEN from PDK_STATUS, which does not begin its
paddock's window but lies at 0x008 of it (R369). Of paddock 0, as of every other, PDK_PROBE_LEN is at 0x110 of the window, as R376 says,
and so 0x108 past PDK_STATUS. -/
theorem not_thresholdRegisterWrites : ¬ Obligations.ThresholdRegisterWrites := by
  rw [thresholdRegisterWrites_iff]
  intro h
  have hprobe : regAddr .PDK_PROBE_LEN 0 0 = regAddr .PDK_STATUS 0 0 + 0x110 := (h 0).1
  rw [regAddr_pdkProbeLen, regAddr_pdkStatus] at hprobe
  omega

end Sys2Proof.Machine
end

section
/-!
PROOFS. The IDCODE (R389): what a register holds after reset and what a read of it returns, and the identity that CFG_IDCODE and the test
port's IDCODE instruction give.
-/

namespace Sys2Proof.Machine

/-! ### Registers after reset and reads of them -/

section
variable {r : Reg} {i : Nat} (h : RegPlaced r i)
include h

/-- After reset a register holds its reset value (R622). -/
theorem RegPlaced.reset_reg : State.reset.reg r i 0 = regReset r i 0 := by
  have hdefault : State.reset.reg r i 0 = regDefault (regAddr r i 0) := smGet_nil ..
  rw [hdefault, regDefault, h.regAt_regAddr]

/-- A read at the address of a register returns the register as it is read and changes nothing (R8). -/
theorem RegPlaced.regRead_regAddr (s : State) : s.regRead (regAddr r i 0) = (s.regView ⟨r, i, 0⟩, s) := by
  obtain ⟨-, -, aligned⟩ := h.regAddr_bounds
  rw [State.regRead, if_neg (not_not_intro aligned), h.regAt_regAddr]

end

/-! ### CFG_IDCODE -/

/-- The table places CFG_IDCODE where its address says (R413). -/
theorem RegPlaced.cfgIdcode : RegPlaced .CFG_IDCODE 0 where
  inst := by decide
  home := .inl rfl
  off := by decide
  aligned := by decide
  find := rfl

/-- The low half of what CFG_IDCODE resets to is revision 1's IDCODE (R389, R413). -/
theorem regReset_cfgIdcode : (regReset .CFG_IDCODE 0 0).fld 31 0 = 0x1307296B := by decide

/-- CFG_IDCODE is read as it is held. -/
theorem State.regView_cfgIdcode (s : State) : s.regView ⟨.CFG_IDCODE, 0, 0⟩ = s.reg .CFG_IDCODE 0 0 := rfl

/-! ### The test port -/

/-- IDCODE puts the device's IDCODE into the selected register; nothing else changes (R389, R633). -/
theorem exec_tapIdcode (s : State) :
    exec .tapIdcode s = .next { s with tap := { s.tap with ins := .idcode, shift := 0x1307296B } } := rfl

/-- Settles O58: a read of CFG_IDCODE returns the register as it is held, which is its reset value, and the test port's IDCODE loads the
same constant. -/
theorem deviceIdcode : Obligations.DeviceIdcode := by
  have hreset : State.reset.fld .CFG_IDCODE 0 0 31 0 = 0x1307296B := by
    rw [State.fld, RegPlaced.cfgIdcode.reset_reg, regReset_cfgIdcode]
  refine ⟨by decide, by decide, by decide, by decide, RegPlaced.cfgIdcode.regAt_regAddr, hreset, fun s => ⟨fun hheld => ?_, ?_⟩⟩
  · rw [RegPlaced.cfgIdcode.regRead_regAddr, State.regView_cfgIdcode, hheld]
    exact ⟨hreset, rfl⟩
  · exact ⟨_, exec_tapIdcode s, rfl, rfl, rfl⟩

end Sys2Proof.Machine
end
